-- ==== Sys2Proof/Word.lean ====
section
/-! DEFINITION. Word.lean: the byte, the block and the numbered things of the engine. -/

namespace Sys2Proof

/-- A byte, an element of the field of R42 in parity arithmetic. -/
abbrev Byte := BitVec 8

/-- The contents of one 4096-byte block: pairs of byte place and byte, places strictly rising, no byte 00h.
A place that is not listed holds 00h, so the empty list is the void pattern of R50. -/
abbrev Block := List Host.Cell

/-- A member port, 0 to 15 (R22). -/
abbrev PortId := Fin 16

/-- An extent entry, 0 to 15 (R1). -/
abbrev ExtentId := Fin 16

/-- A slip of the work board, 0 to 63 (R151). -/
abbrev SlipId := Fin 64

/-- A job record, 0 to 3 (R86). -/
abbrev JobId := Fin 4

/-- A row context, 0 to 23 (R58). -/
abbrev ContextId := Fin 24

/-- The tag of an outstanding request: its slot, 0 to 7 (R19). -/
abbrev Tag := Fin 8

/-- A stamp: a value of the 32-bit tick counter (R140). -/
abbrev Stamp := BitVec 32

end Sys2Proof
end

