-- ==== Sys2Proof/Syntax.lean ====
section
/-! DEFINITION. Syntax.lean: the commands of the engine, one constructor per row of spec/opcode_table.json, in the
table's order, and the operands they carry. -/

namespace Sys2Proof

/-- The kinds of drive request (R19). -/
inductive RequestKind where
  | read
  | write
  | probe
deriving DecidableEq, Repr

/-- The outcome a drive's reply carries (R20). `good` carries the contents of every block of a READ; `unreadable`
carries the set of unreadable offsets and the contents of the blocks, those at unreadable offsets meaning nothing. -/
inductive ReplyOutcome where
  | good (contents : List Block)
  | unreadable (offsets : List Nat) (contents : List Block)
  | notReady
  | writeFault
deriving DecidableEq, Repr

/-- A reply from a drive (R20). -/
structure Reply where
  tag         : Tag
  issue       : BitVec 32
  kind        : RequestKind
  memberBlock : Nat
  count       : Nat
  outcome     : ReplyOutcome
deriving DecidableEq, Repr

/-- Which bytes of an 8-byte register an access of R160 reaches. -/
inductive RegisterAccess where
  | whole
  | lowHalf
  | highHalf
deriving DecidableEq, Repr

/-- The board accesses whose faults are board faults (R162). -/
inductive BoardAccess where
  | holderRead
  | takenWrite
  | slipRead
  | answerWrite
  | pageWrite
deriving DecidableEq, Repr

/-- The request body of a slip, the 112 bytes at 20h to 8Fh (R152). -/
abbrev SlipBody := List Byte

/-- An entry record of LOSSES EXPORT and IMPORT, 16 bytes (R154). -/
abbrev RecordBytes := List Byte

/-- The commands. A slip command carries the 8-byte tag and the request body that the engine's one read of the slip
brought (R157); a completion of an access carries what the access brought. -/
inductive Instr where
  | powerOnReset
  | linkReset
  | run
  | quiesce
  | reset
  | boardBase (access : RegisterAccess) (value : BitVec 64)
  | sweep (value : BitVec 64)
  | attention (value : BitVec 64)
  | enableSet (value : BitVec 64)
  | enableClear (value : BitVec 64)
  | registerWriteIgnored (offset : Nat) (value : BitVec 64)
  | sweepHolderRead (holder : Byte)
  | takenWrite
  | settings (tag : BitVec 64) (body : SlipBody)
  | member (tag : BitVec 64) (body : SlipBody)
  | extentDefine (tag : BitVec 64) (body : SlipBody)
  | extentClear (tag : BitVec 64) (body : SlipBody)
  | rebuild (tag : BitVec 64) (body : SlipBody)
  | jobctlPause (tag : BitVec 64) (body : SlipBody)
  | jobctlResume (tag : BitVec 64) (body : SlipBody)
  | jobctlAbort (tag : BitVec 64) (body : SlipBody)
  | jobctlChange (tag : BitVec 64) (body : SlipBody)
  | read (tag : BitVec 64) (body : SlipBody)
  | write (tag : BitVec 64) (body : SlipBody)
  | resync (tag : BitVec 64) (body : SlipBody)
  | lossesExport (tag : BitVec 64) (body : SlipBody)
  | lossesImport (tag : BitVec 64) (body : SlipBody)
  | lossesRemove (tag : BitVec 64) (body : SlipBody)
  | badKind (kind : Byte) (tag : BitVec 64)
  | answerWrite
  | publish
  | boardFault (access : BoardAccess)
  | quiesceComplete
  | tick
  | lapse (port : PortId) (slot : Tag)
  | sweepTimerExpiry
  | periodRestart
  | guardHot
  | guardCool
  | driveReply (port : PortId) (reply : Reply)
  | linkUp (port : PortId)
  | linkDown (port : PortId)
  | requestIssue (port : PortId)
  | contextGrant
  | holdGrant
  | frameGrant
  | bufferFetchEnd (context : ContextId) (fetched : Option (List Block))
  | gatherEnd (context : ContextId)
  | supplementEnd (context : ContextId)
  | awaitMemberWake (context : ContextId)
  | solverTakeHead
  | solveCompletion
  | bufferDeliveryEnd (context : ContextId) (fault : Bool)
  | placeEnd (context : ContextId)
  | jobRowStart (job : JobId)
  | startingDrainEnd (job : JobId)
  | pausingDrainEnd (job : JobId)
  | abortingDrainEnd (job : JobId)
  | jobCompletion (job : JobId)
  | pieceStart (slip : SlipId)
  | requestFinish (slip : SlipId)
  | exportEnd (slip : SlipId) (fault : Bool)
  | importCompletion (slip : SlipId) (records : Option (List RecordBytes))
deriving DecidableEq, Repr

end Sys2Proof
end

