-- ==== Sys2Proof/Decode.lean ====
section
/-! DEFINITION. Decode.lean: the command that a word spells by the table's bits. -/

namespace Sys2Proof

/-- The opcode table gives none of its 63 rows any bits ("fields" is empty and there is no "fixed" in every row), so no
word spells a command. -/
def decodeTableWord (nbits w : Nat) : Option Instr :=
  match nbits, w with
  | _, _ => none

end Sys2Proof
end

