-- ==== Sys2Proof/Config.lean ====
section
/-! DEFINITION. Config.lean: the sizes that the spec fixes for the Bergfal 2416, and the free values: how far the board
writes in progress had come when a reset or a board fault cut them short. -/

namespace Sys2Proof.Config

/-- Bytes in a block (00 Conventions). -/
def blockBytes : Nat := 4096

/-- Blocks of one row slice (00 Terms: row). -/
def rowBlocks : Nat := 16

/-- The block spaces of R1 hold 2^40 blocks. -/
def blockSpace : Nat := 2 ^ 40

/-- Frames in the pool (R61). -/
def frames : Nat := 160

/-- Row contexts that rebuild-class operations may hold (R60). -/
def rebuildContexts : Nat := 12

/-- Rebuild-class requests outstanding on one port (R27). -/
def rebuildSlots : Nat := 6

/-- The most slips TAKEN at once (R157). -/
def slipCap : Nat := 48

/-- Slips on the board, and visits of one sweep (R151, R156). -/
def slips : Nat := 64

/-- Rows in flight of one foreground request (R118). -/
def requestRows : Nat := 4

/-- The reach of a job's starts past its frontier (R91). -/
def windowRows : Nat := 64

/-- Rows of frontier movement that ask for a checkpoint (R94). -/
def checkpointRows : Nat := 256

/-- Entries of the loss list (R128). -/
def lossEntries : Nat := 512

/-- Entries of the published unsettled-row list (R82). -/
def unsettledEntries : Nat := 64

/-- The largest count a COUNTED loss entry or an unsettled entry holds (R128, R82). -/
def maxCount : Nat := 2 ^ 32 - 1

/-- The system port's byte addresses (R151). -/
def addressSpace : Nat := 2 ^ 64

/-- The part code and the revision number that IDENT reads (R160). -/
def partCode : Nat := 0x2416
def revision : Nat := 1

/-! ## How far a write cut short had come (R162, R163, R166)

The spec says that such a write may or may not have reached the board, and that part of an answer or of a page may have.
Nothing is said here of these values; `n` numbers the resets and board faults since power-on (log 60). -/

/-- The TAKEN write in progress at the `n`th cut had reached the board. -/
opaque takenReached (n : Nat) : Bool

/-- The ANSWERED write in progress at the `n`th cut had reached the board. -/
opaque answeredReached (n : Nat) : Bool

/-- The bytes of its slip that the answer in progress at the `n`th cut had written. -/
opaque answerReached (n : Nat) : List Nat

/-- The bytes of the status page that the publish in progress at the `n`th cut had written. -/
opaque pageReached (n : Nat) : List Nat

end Sys2Proof.Config
end

