-- ==== Sys2Proof/Machine/State.lean ====
section
/-! DEFINITION. Machine/State.lean: everything the spec gives the engine, as plain data, and its state after
power-on reset. INVENTORY.md lists each field with its rule. -/

namespace Sys2Proof.Machine

/-! ## Layout map (01) -/

/-- Extent condition (R9). -/
inductive Condition where
  | unused
  | whole
  | degraded
  | exposed
  | lost
deriving DecidableEq, Repr

/-- Redundancy scheme (R1). -/
inductive ExtentKind where
  | mirror
  | single
  | double
deriving DecidableEq, Repr

/-- How the parity strips move from stripe to stripe (R6). -/
inductive Rotation where
  | fixed
  | descending
  | ascending
deriving DecidableEq, Repr

/-- An extent entry (R1). -/
structure Extent where
  condition   : Condition
  kind        : ExtentKind
  memberCount : Nat
  stripSize   : Nat
  arrayStart  : Nat
  stripeCount : Nat
  memberBase  : Nat
  rotation    : Rotation
  targets     : List PortId
deriving DecidableEq, Repr

/-- An UNUSED entry: its other fields hold zero and its target list is empty (R1, R3). -/
def Extent.empty : Extent :=
  { condition := .unused, kind := .mirror, memberCount := 0, stripSize := 0, arrayStart := 0, stripeCount := 0,
    memberBase := 0, rotation := .fixed, targets := [] }

/-! ## Member ports (02) -/

/-- Member state (R22). -/
inductive MemberState where
  | absent
  | spare
  | online
  | target
  | failed
  | released
deriving DecidableEq, Repr

/-- Link state (R36). -/
inductive LinkState where
  | down
  | up
deriving DecidableEq, Repr

/-- The class of a request (R25). -/
inductive RequestClass where
  | foreground
  | rebuild
  | probe
deriving DecidableEq, Repr

/-- A request at a port (R25). `owner` is the row context that submitted it, or none for the port's own probe;
`position` and `offset` are the frame of that context and the place in it. -/
structure Request where
  kind        : RequestKind
  cls         : RequestClass
  owner       : Option ContextId
  position    : Nat
  offset      : Nat
  memberBlock : Nat
  count       : Nat
  repair      : Bool
deriving DecidableEq, Repr

/-- The ending of a request (R25): from a reply, from its timeout, from the failure of the member or the loss of its
link, or from its owner. The offsets of UNREADABLE are counted from the first block of the row slice. -/
inductive Ending where
  | good
  | unreadable (offsets : List Nat)
  | notReady
  | writeFault
  | lapsed
  | linkLost
  | withdrawn
deriving DecidableEq, Repr

/-- An outstanding request: its issue number, its ticks left, and the contents a WRITE carried (R19, R25). -/
structure Outstanding where
  request   : Request
  issue     : BitVec 32
  ticksLeft : Nat
  contents  : List Block
deriving DecidableEq, Repr

/-- A member port (02). `stallBlock` is the member block of the request whose ending began the stall (R32). -/
structure Port where
  memberState      : MemberState
  stalled          : Bool
  lapseCount       : Nat
  link             : LinkState
  slots            : Vector (Option Outstanding) 8
  waiting          : List Request
  issueNumber      : BitVec 32
  lapses           : BitVec 32
  lateReplies      : BitVec 32
  unreadableBlocks : BitVec 32
  repairs          : BitVec 32
  probes           : BitVec 32
  stallBlock       : Nat
deriving DecidableEq, Repr

/-- The port after power-on reset (R24, R40). -/
def Port.powerOn : Port :=
  { memberState := .absent, stalled := false, lapseCount := 0, link := .down, slots := Vector.replicate 8 none,
    waiting := [], issueNumber := 0, lapses := 0, lateReplies := 0, unreadableBlocks := 0, repairs := 0, probes := 0,
    stallBlock := 0 }

/-! ## Row engine (04) -/

/-- The kinds of row operation (R58). -/
inductive RowKind where
  | rebuildRow
  | readRow
  | writeRow
  | resyncRow
deriving DecidableEq, Repr

/-- The phases of an operation that holds a context (R59). CONTEXT_WAIT is a place on the context wait list, and an
operation that is ENDED has left its context. -/
inductive Phase where
  | holdWait
  | frameWait
  | gather
  | supplement
  | awaitMember
  | solveWait
  | solving
  | place
deriving DecidableEq, Repr

/-- The outcomes of R71. -/
inductive RowOutcome where
  | done
  | recovered
  | doneWithLoss
  | extentLost
  | targetLost
  | bufferFault
  | skipped
deriving DecidableEq, Repr

/-- Who started a row operation (R58). -/
inductive RowOwner where
  | job (j : JobId)
  | slip (s : SlipId) (piece : Nat)
deriving DecidableEq, Repr

/-- The run of requested offsets on one data strip of a row (R58, R117). -/
structure RequestedRun where
  strip : Nat
  first : Nat
  count : Nat
deriving DecidableEq, Repr

/-- A request on the context wait list (R58). `countedBy` names the job whose drain counts it (R90). -/
structure RowRequest where
  kind      : RowKind
  owner     : RowOwner
  extent    : ExtentId
  row       : Nat
  requested : List RequestedRun
  countedBy : Option JobId
deriving DecidableEq, Repr

/-- A position a plan reads, with its run of offsets. -/
structure ReadWant where
  position : Nat
  first    : Nat
  count    : Nat
deriving DecidableEq, Repr

/-- An entry of the read set: a position, its serving port and its run (R58). -/
structure PlanRead where
  position : Nat
  port     : PortId
  first    : Nat
  count    : Nat
deriving DecidableEq, Repr

/-- An output of a plan: a position and the offsets produced (R58). -/
structure PlanOutput where
  position : Nat
  offsets  : List Nat
deriving DecidableEq, Repr

/-- A plan (R58, R64): the read set, the outputs, the reserved Q frame, whether it is a copy plan (R73, R74), the
positions unavailable when it was made (R45) and the listed blocks found then, as position and offset (R75). -/
structure Plan where
  reads       : List PlanRead
  outputs     : List PlanOutput
  reservedQ   : Option Nat
  copy        : Bool
  unavailable : List Nat
  listed      : List (Nat × Nat)
deriving DecidableEq, Repr

def Plan.none : Plan :=
  { reads := [], outputs := [], reservedQ := Option.none, copy := false, unavailable := [], listed := [] }

/-- A frame: one row slice of one position (R61). -/
structure Frame where
  position : Nat
  blocks   : Vector Block 16
deriving DecidableEq, Repr


/-- One read of a position in the current plan, the port that took it, and its ending (R58, R65). -/
structure ReadResult where
  position : Nat
  port     : PortId
  first    : Nat
  count    : Nat
  ending   : Ending
deriving DecidableEq, Repr

/-- The buffer place of a requested block: its position and offset in the row, and its byte address (R117). -/
structure BufferPlace where
  position : Nat
  offset   : Nat
  address  : Nat
deriving DecidableEq, Repr

/-- A covered block's new contents (R49). -/
structure NewBlock where
  position : Nat
  offset   : Nat
  contents : Block
deriving DecidableEq, Repr

/-- How the value of an output block was obtained (R55). -/
inductive BlockOrigin where
  | read
  | solved
  | new
  | void
  | recomputed
deriving DecidableEq, Repr

/-- An entry of the solve record (R55). -/
structure RecordEntry where
  position : Nat
  offset   : Nat
  origin   : BlockOrigin
deriving DecidableEq, Repr

/-- A run of one write (R70). -/
structure WriteRun where
  position : Nat
  first    : Nat
  count    : Nat
  repair   : Bool
deriving DecidableEq, Repr

/-- The runs a port is still to receive after the one it has (R70). -/
structure PortRuns where
  port : PortId
  runs : List WriteRun
deriving DecidableEq, Repr

/-- Tallies of a row operation (R58). -/
structure RowTallies where
  served        : Nat
  reconstructed : Nat
  lost          : Nat
  firstLost     : Option Nat
  sideLosses    : Nat
  repairs       : Nat
deriving DecidableEq, Repr

def RowTallies.zero : RowTallies :=
  { served := 0, reconstructed := 0, lost := 0, firstLost := none, sideLosses := 0, repairs := 0 }

/-- A row operation in its context (R58). `decision` is the target decision, as the source positions written and
their targets; `carried` is the read set that the next plan keeps (R66); `fetch` is what the fetch of a WRITE_ROW reads
from the host buffer, and `delivery` what a READ_ROW delivers to it, byte address and block (R80). -/
structure Operation where
  kind        : RowKind
  owner       : RowOwner
  extent      : ExtentId
  row         : Nat
  phase       : Phase
  requested   : List RequestedRun
  decision    : Option (List (Nat × PortId))
  plan        : Plan
  carried     : List ReadWant
  frames      : List Frame
  results     : List ReadResult
  closed      : List Nat
  lost        : List Nat
  waitSet     : List PortId
  woken       : Bool
  written     : Bool
  lostSeen    : Bool
  countedBy   : Option JobId
  fetching    : Bool
  fetch       : List BufferPlace
  fetched     : Option (List NewBlock)
  bufferFault : Bool
  record      : List RecordEntry
  delivering  : Bool
  delivery    : List (Nat × Block)
  writesLeft  : List PortRuns
  tallies     : RowTallies
deriving DecidableEq, Repr

/-- An entry of the published unsettled-row list; `toEnd` marks one that reaches the last row of its extent (R82). -/
structure UnsettledEntry where
  extent : ExtentId
  first  : Nat
  count  : Nat
  toEnd  : Bool
deriving DecidableEq, Repr

/-- The row engine (04). The frames free and the live set are computed from the contexts (R61, R81). -/
structure RowEngine where
  contexts    : Vector (Option Operation) 24
  contextWait : List RowRequest
  frameWait   : List ContextId
  unsettled   : List UnsettledEntry
deriving DecidableEq, Repr

/-- The solver (R53): the context in SOLVING, if BUSY, and the solve queue. -/
structure Solver where
  busy  : Option ContextId
  queue : List ContextId
deriving DecidableEq, Repr

/-! ## Hold table (06) -/

/-- The mode of a hold (R109). -/
inductive HoldMode where
  | shared
  | sole
deriving DecidableEq, Repr

/-- An entry of the hold table in use (R109). -/
structure HoldEntry where
  extent  : ExtentId
  row     : Nat
  mode    : HoldMode
  holders : List ContextId
  waiters : List (ContextId × HoldMode)
deriving DecidableEq, Repr

/-- The hold table: its entries in use, and the operations granted whose plan is still to be made, in the order they
were granted (R111). -/
structure HoldTable where
  entries : List HoldEntry
  granted : List ContextId
deriving DecidableEq, Repr

/-! ## Answers (09) -/

/-- Answer status (R153). -/
inductive Status where
  | none
  | good
  | adjusted
  | recovered
  | lostData
  | lossKept
  | refused
  | failed
deriving DecidableEq, Repr

/-- Refusal reason (R153). -/
inductive Reason where
  | none
  | badKind
  | badField
  | outOfRange
  | noExtent
  | extentLost
  | busyExtent
  | overlap
  | memberConflict
  | notPresent
  | noJobSlot
  | wrongState
  | bufferFault
deriving DecidableEq, Repr

/-- A field of an answer body: its width in bytes, and its value or absence (R154). -/
structure BodyField where
  width : Nat
  value : Option Nat
deriving DecidableEq, Repr

/-- End causes, and the drain causes among them (R86). -/
inductive EndCause where
  | complete
  | aborted
  | targetLost
  | extentLost
deriving DecidableEq, Repr

/-- The body of a JOBCTL answer whose values are taken when it is written (R101): the job, and for a PAUSE that a drain
superseded the drain cause that its body gives with the state ABORTING (R98, R99, R104). -/
structure ControlAnswer where
  job     : JobId
  drained : Option EndCause
deriving DecidableEq, Repr

/-- An answer in the answer queue (R158): its body, or the JOBCTL body that it is still to be given. -/
structure Answer where
  slip    : SlipId
  status  : Status
  reason  : Reason
  body    : List BodyField
  control : Option ControlAnswer := none
deriving DecidableEq, Repr

/-- The answer being written: its stamp and its body, as the writing began (R101, R158). -/
structure AnswerWriting where
  stamp : Stamp
  body  : List BodyField
deriving DecidableEq, Repr

/-! ## Foreground service (06) -/

/-- The slip kinds of foreground service (R116). -/
inductive ForegroundKind where
  | read
  | write
  | resync
deriving DecidableEq, Repr

/-- Stop cause of a request (R116). -/
inductive StopCause where
  | extentLost
  | bufferFault
deriving DecidableEq, Repr

/-- A row piece: a row and its requested blocks (R117). -/
structure Piece where
  row  : Nat
  runs : List RequestedRun
deriving DecidableEq, Repr

/-- Tallies of a request (R116, R120). -/
structure RequestTallies where
  served        : Nat
  reconstructed : Nat
  lost          : Nat
  firstLost     : Option Nat
  sideLosses    : Nat
  kept          : Bool
  completed     : Nat
  done          : Nat
  skipped       : Nat
  firstSkipped  : Option Nat
  settled       : Nat
deriving DecidableEq, Repr

def RequestTallies.zero : RequestTallies :=
  { served := 0, reconstructed := 0, lost := 0, firstLost := none, sideLosses := 0, kept := false, completed := 0,
    done := 0, skipped := 0, firstSkipped := none, settled := 0 }

/-- A request record (R116). `granted` is the number of row pieces that a test of R118 has let start and that are still to
be started (log 23). -/
structure ForegroundRequest where
  slip       : SlipId
  kind       : ForegroundKind
  extent     : ExtentId
  firstBlock : Nat
  blockCount : Nat
  buffer     : Nat
  firstRow   : Nat
  rowCount   : Nat
  pieces     : List Piece
  nextPiece  : Nat
  granted    : Nat
  inFlight   : List Nat
  stop       : Option StopCause
  tallies    : RequestTallies
  worst      : Status
deriving DecidableEq, Repr

/-! ## Job unit (05) -/

/-- Job state (R87). -/
inductive JobState where
  | free
  | starting
  | running
  | pausing
  | paused
  | aborting
  | ended
deriving DecidableEq, Repr

/-- Job mode (R86). -/
inductive JobMode where
  | reconstruct
  | copy
deriving DecidableEq, Repr

/-- A source position with its target (R86). -/
structure Source where
  position : Nat
  target   : PortId
deriving DecidableEq, Repr

/-- A job record (R86). `targetless` says that the job has lost its last target (R63 test 2, R99), which stays named in the
record (R96); it is the model's own field (log 71). -/
structure Job where
  state               : JobState
  drainCause          : Option EndCause
  mode                : JobMode
  extent              : ExtentId
  sources             : List Source
  outgoing            : Option PortId
  startRow            : Nat
  endRow              : Nat
  frontier            : Nat
  nextRow             : Nat
  window              : List Nat
  inFlight            : List Nat
  lanesWanted         : Nat
  laneCount           : Nat
  coolCredits         : Nat
  hotCredits          : Nat
  creditsLeft         : Nat
  expedite            : Bool
  exposed             : Bool
  drainCount          : Nat
  publishedFrontier   : Nat
  answering           : Option SlipId
  control             : Option SlipId
  rowsDone            : BitVec 64
  rowsCopied          : BitVec 64
  rowsReconstructed   : BitVec 64
  blocksReconstructed : BitVec 64
  blocksLost          : BitVec 64
  repairs             : BitVec 64
  clampMark           : Bool
  endCause            : Option EndCause
  startStamp          : Stamp
  endStamp            : Stamp
  targetless          : Bool
deriving DecidableEq, Repr

/-- A FREE record: every other field zero, empty or absent (R86). -/
def Job.free : Job :=
  { state := .free, drainCause := none, mode := .reconstruct, extent := 0, sources := [], outgoing := none,
    startRow := 0, endRow := 0, frontier := 0, nextRow := 0, window := [], inFlight := [], lanesWanted := 0,
    laneCount := 0, coolCredits := 0, hotCredits := 0, creditsLeft := 0, expedite := false, exposed := false,
    drainCount := 0, publishedFrontier := 0, answering := none, control := none, rowsDone := 0, rowsCopied := 0,
    rowsReconstructed := 0, blocksReconstructed := 0, blocksLost := 0, repairs := 0, clampMark := false,
    endCause := none, startStamp := 0, endStamp := 0, targetless := false }

/-! ## Loss list (07) -/

/-- What first listed the oldest part of a range (R128). -/
inductive LossOrigin where
  | rebuild
  | foreground
  | imported
deriving DecidableEq, Repr

/-- A loss entry; `toEnd` is the reach TO_END, for which `count` is not used (R128). -/
structure LossEntry where
  extent : ExtentId
  first  : Nat
  toEnd  : Bool
  count  : Nat
  origin : LossOrigin
  stamp  : Stamp
deriving DecidableEq, Repr

/-- A LOSSES buffer transfer running (R135, R136): an EXPORT with its copy, the number of chosen entries that did not
fit, the first of those and the counts at the copy, or an IMPORT with its extent and record count. -/
inductive TransferWork where
  | exporting (copy : List LossEntry) (unfit : Nat) (next : Option LossEntry) (held : Nat) (coarsenings kept : Nat)
  | importing (extent : ExtentId) (count : Nat)
deriving DecidableEq, Repr

structure Transfer where
  slip   : SlipId
  buffer : Nat
  work   : TransferWork
deriving DecidableEq, Repr

/-- The loss list (R128, R137). -/
structure LossList where
  entries     : List LossEntry
  coarsenings : BitVec 32
  kept        : BitVec 32
  transfers   : List Transfer
deriving DecidableEq, Repr

/-! ## Time base, settings and pacing (08) -/

/-- The eight settings (R141). -/
structure Settings where
  tickTap        : Nat
  memberTimeout  : Nat
  stallLimit     : Nat
  sweepInterval  : Nat
  pacingPeriod   : Nat
  guardThreshold : Nat
  senseTicks     : Nat
  minimumHold    : Nat
deriving DecidableEq, Repr

/-- The power-on values of R141. -/
def Settings.powerOn : Settings :=
  { tickTap := 64, memberTimeout := 15625, stallLimit := 3, sweepInterval := 0, pacingPeriod := 1563,
    guardThreshold := 12, senseTicks := 16, minimumHold := 1563 }

/-- The tick counter, the sweep timer and the period counter (R139, R144, R145). `restartDue` says that the last tick
brought the counter to the pacing period and the restart is still to be taken. -/
structure TimeBase where
  tick          : BitVec 32
  sweepTimer    : Nat
  periodCounter : Nat
  restartDue    : Bool
deriving DecidableEq, Repr

/-- The load guard's states (R147). -/
inductive GuardState where
  | cool
  | hot
deriving DecidableEq, Repr

/-- The load guard (R147). `due` is the change that the last tick's sample calls for, still to be taken. -/
structure LoadGuard where
  state : GuardState
  sense : Nat
  hold  : Nat
  due   : Option GuardState
deriving DecidableEq, Repr

/-! ## Board unit (09) -/

/-- Engine state (R161). -/
inductive EngineState where
  | stopped
  | running
  | quiescing
  | faulted
deriving DecidableEq, Repr

/-- Reset kind of the reset record (R163). -/
inductive ResetKind where
  | powerOn
  | command
  | link
deriving DecidableEq, Repr

/-- A slip in the set of TAKEN slips, with the tag read at the take; `foreground` is the extent of a READ, WRITE or
RESYNC that has been dispatched and is not yet answered (R152, R157, R16). -/
structure TakenSlip where
  slip       : SlipId
  tag        : BitVec 64
  foreground : Option ExtentId
deriving DecidableEq, Repr

/-- The board access that a sweep has in progress (R156, R157). -/
inductive SweepAccess where
  | holderRead
  | takenWrite
  | slipRead
deriving DecidableEq, Repr

/-- A sweep in progress: the slip it is at, the visits left with this one, the access in progress, and whether the
engine has left RUNNING during it (R156). -/
structure SweepRun where
  slip     : SlipId
  left     : Nat
  access   : SweepAccess
  stopping : Bool
deriving DecidableEq, Repr

/-- A field of the status page: offset, width and value (R155). -/
structure PageField where
  offset : Nat
  width  : Nat
  value  : Nat
deriving DecidableEq, Repr

/-- What the engine has written into a slip (R152, R158). -/
structure SlipImage where
  holder : Byte
  status : Byte
  reason : Byte
  stamp  : BitVec 32
  tag    : BitVec 64
  body   : List Byte
deriving DecidableEq, Repr

/-- Nothing written (the bytes are the host's). -/
def SlipImage.blank : SlipImage := { holder := 0, status := 0, reason := 0, stamp := 0, tag := 0, body := [] }

/-- The board unit (09). `publishAsked` is set by a cause of R159 within a step and acted on at the step's end;
`slipsWritten` and `pagesWritten` record what the engine has written to the board, by the byte address of the slip or
page, addresses rising (log 22); `cuts` counts the engine resets and board faults since power-on, each of which cuts the
writes in progress short (log 60). -/
structure Board where
  base         : BitVec 64
  roundPointer : SlipId
  taken        : List TakenSlip
  sweep        : Option SweepRun
  sweepPending : Bool
  deferred     : Bool
  answers      : List Answer
  writing      : Option AnswerWriting
  publishing   : Option (List PageField)
  owed         : Bool
  publishAsked : Bool
  generation   : BitVec 64
  engine       : EngineState
  quiesced     : Bool
  causes       : BitVec 3
  enables      : BitVec 3
  resetKind    : ResetKind
  clean        : Bool
  abandoned    : Nat
  cuts         : Nat
  slipsWritten : List (Nat × SlipImage)
  pagesWritten : List (Nat × List PageField)
deriving DecidableEq, Repr

/-- The board unit after power-on reset (R163). -/
def Board.powerOn : Board :=
  { base := 0, roundPointer := 0, taken := [], sweep := none, sweepPending := false, deferred := false, answers := [],
    writing := none, publishing := none, owed := false, publishAsked := false, generation := 0,
    engine := .stopped, quiesced := false, causes := 0, enables := 0, resetKind := .powerOn, clean := false,
    abandoned := 0, cuts := 0, slipsWritten := [], pagesWritten := [] }

/-! ## The engine -/

/-- The engine's state, and the queue of commands waiting, first in, first out. -/
structure State where
  ports    : Vector Port 16
  extents  : Vector Extent 16
  rows     : RowEngine
  solver   : Solver
  holds    : HoldTable
  requests : List ForegroundRequest
  jobs     : Vector Job 4
  losses   : LossList
  settings : Settings
  time     : TimeBase
  guard    : LoadGuard
  board    : Board
  pending  : List Instr
deriving DecidableEq, Repr

/-- Why the engine stops with a fault: nothing does. The spec turns every error into an answer, an attention cause, a
member state or the engine state FAULTED (R162), all of them next states, so this type has no constructor. -/
inductive Fault
deriving DecidableEq, Repr

/-- Why a command is refused. -/
inductive Refusal where
  /-- Raised by exec's arm of a command that has no meaning yet, with its mnemonic. Safe: the model stops where the
  engine goes on. -/
  | notModelled (mnemonic : String)
deriving DecidableEq, Repr

/-- The engine after power-on reset (R3, R24, R57, R84, R86, R109, R126, R137, R149, R163), with no command
waiting. -/
def State.reset : State :=
  { ports := Vector.replicate 16 Port.powerOn
    extents := Vector.replicate 16 Extent.empty
    rows := { contexts := Vector.replicate 24 none, contextWait := [], frameWait := [], unsettled := [] }
    solver := { busy := none, queue := [] }
    holds := { entries := [], granted := [] }
    requests := []
    jobs := Vector.replicate 4 Job.free
    losses := { entries := [], coarsenings := 0, kept := 0, transfers := [] }
    settings := Settings.powerOn
    time := { tick := 0, sweepTimer := 0, periodCounter := 0, restartDue := false }
    guard := { state := .cool, sense := 0, hold := 0, due := none }
    board := Board.powerOn
    pending := [] }

end Sys2Proof.Machine
end

