-- ==== Sys2Proof/Machine/Codes.lean ====
section
/-! DEFINITION. Machine/Codes.lean: the codes of R153 and R154, and the bytes they are written in. -/

namespace Sys2Proof.Machine

def Status.code : Status → Nat
  | .none => 0 | .good => 1 | .adjusted => 2 | .recovered => 3 | .lostData => 4 | .lossKept => 5 | .refused => 6
  | .failed => 7

def Reason.code : Reason → Nat
  | .none => 0 | .badKind => 1 | .badField => 2 | .outOfRange => 3 | .noExtent => 4 | .extentLost => 5
  | .busyExtent => 6 | .overlap => 7 | .memberConflict => 8 | .notPresent => 9 | .noJobSlot => 0x0A
  | .wrongState => 0x0B | .bufferFault => 0x0C

def EngineState.code : EngineState → Nat
  | .stopped => 0 | .running => 1 | .quiescing => 2 | .faulted => 3

def MemberState.code : MemberState → Nat
  | .absent => 0 | .spare => 1 | .online => 2 | .target => 3 | .failed => 4 | .released => 5

def Condition.code : Condition → Nat
  | .unused => 0 | .whole => 1 | .degraded => 2 | .exposed => 3 | .lost => 4

def ExtentKind.code : ExtentKind → Nat
  | .mirror => 0 | .single => 1 | .double => 2

def Rotation.code : Rotation → Nat
  | .fixed => 0 | .descending => 1 | .ascending => 2

def JobState.code : JobState → Nat
  | .free => 0 | .starting => 1 | .running => 2 | .pausing => 3 | .paused => 4 | .aborting => 5 | .ended => 6

def JobMode.code : JobMode → Nat
  | .reconstruct => 0 | .copy => 1

/-- End and drain causes; absent is 00h. -/
def causeCode : Option EndCause → Nat
  | none => 0 | some .complete => 1 | some .aborted => 2 | some .targetLost => 3 | some .extentLost => 4

def GuardState.code : GuardState → Nat
  | .cool => 0 | .hot => 1

def LinkState.code : LinkState → Nat
  | .down => 0 | .up => 1

def ResetKind.code : ResetKind → Nat
  | .powerOn => 0 | .command => 1 | .link => 2

def LossOrigin.code : LossOrigin → Nat
  | .rebuild => 0 | .foreground => 1 | .imported => 2

/-- The holder codes (R153). -/
def holderPosted : Byte := 1
def holderTaken : Byte := 2
def holderAnswered : Byte := 3

/-- The nine kinds of slip (R153). -/
inductive SlipKind where
  | settings
  | member
  | extent
  | rebuild
  | jobctl
  | read
  | write
  | resync
  | losses
deriving DecidableEq, Repr

def SlipKind.code : SlipKind → Nat
  | .settings => 1 | .member => 2 | .extent => 3 | .rebuild => 4 | .jobctl => 5 | .read => 6 | .write => 7
  | .resync => 8 | .losses => 9

/-! ## From codes -/

def SlipKind.ofCode : Nat → Option SlipKind
  | 1 => some .settings | 2 => some .member | 3 => some .extent | 4 => some .rebuild | 5 => some .jobctl
  | 6 => some .read | 7 => some .write | 8 => some .resync | 9 => some .losses | _ => none


def ExtentKind.ofCode : Nat → Option ExtentKind
  | 0 => some .mirror | 1 => some .single | 2 => some .double | _ => none

def Rotation.ofCode : Nat → Option Rotation
  | 0 => some .fixed | 1 => some .descending | 2 => some .ascending | _ => none

def JobMode.ofCode : Nat → Option JobMode
  | 0 => some .reconstruct | 1 => some .copy | _ => none

/-- The requested states of a MEMBER slip (R37). -/
def MemberState.ofRequestCode : Nat → Option MemberState
  | 0 => some .absent | 1 => some .spare | 2 => some .online | 4 => some .failed | _ => none

/-- The reach of an entry record: COUNTED or TO_END. -/
def reachOfCode : Nat → Option Bool
  | 0 => some false | 1 => some true | _ => none

/-! ## Bytes -/

/-- A value as `width` bytes, least significant first (R151). -/
def bytesOf : Nat → Nat → List Byte
  | 0, _ => []
  | width + 1, n => BitVec.ofNat 8 n :: bytesOf width (n / 256)

/-- The value of bytes, least significant first (R151). -/
def valueOf : List Byte → Nat
  | [] => 0
  | b :: rest => b.toNat + 256 * valueOf rest

/-- The value of the `size` bytes at `offset` of a record; bytes past its end read as zero. -/
def bytesAt (bytes : List Byte) (offset size : Nat) : Nat := valueOf ((bytes.drop offset).take size)

/-- The bytes of an answer-body field; an absent value is FFh in every byte (R154). -/
def BodyField.bytes (f : BodyField) : List Byte :=
  match f.value with
  | some n => bytesOf f.width n
  | none => List.replicate f.width 0xFF

/-- Fields placed one after another from `offset`, each at the first multiple of its width (R154). -/
def layFields : Nat → List BodyField → List Byte
  | _, [] => []
  | offset, f :: rest =>
    let pad := (f.width - offset % f.width) % f.width
    List.replicate pad 0 ++ f.bytes ++ layFields (offset + pad + f.width) rest

/-- Bytes in an answer body, 90h to FFh (R152). -/
def answerBodyBytes : Nat := 112

/-- The answer body (R154): the fields from 90h, which is a multiple of every width, and zeros up to FFh. -/
def answerBody (fields : List BodyField) : List Byte :=
  let laid := layFields 0 fields
  (laid ++ List.replicate (answerBodyBytes - laid.length) 0).take answerBodyBytes

end Sys2Proof.Machine
end

