-- ==== Sys2Proof/Machine/Blocks.lean ====
section
/-! DEFINITION. Machine/Blocks.lean: the contents of blocks, and the field of R42 and R43 that parity works in. -/

namespace Sys2Proof

/-- The canonical form of block contents: places strictly rising from `low`, below 4096, and no byte 00h. -/
def Block.wfFrom : Nat → Block → Bool
  | _, [] => true
  | low, (place, value) :: rest =>
    decide (low ≤ place) && decide (place < Config.blockBytes) && decide (value ≠ 0) && Block.wfFrom (place + 1) rest

def Block.wf (b : Block) : Bool := Block.wfFrom 0 b

/-- The void pattern: 4096 zero bytes (R50). -/
def Block.void : Block := []

/-- The byte at one place; a place not listed reads 00h. -/
def Block.byteAt : Block → Nat → Byte
  | [], _ => 0
  | (place, value) :: rest, i => if place = i then value else Block.byteAt rest i

/-- The merge of a block whose head is `p` with another, `f` merging the first block's tail. -/
def Block.xorHead (p : Host.Cell) (tail : Block) (f : Block → Block) : Block → Block
  | [] => p :: tail
  | q :: rest =>
    if p.1 < q.1 then p :: f (q :: rest)
    else if q.1 < p.1 then q :: Block.xorHead p tail f rest
    else if p.2 ^^^ q.2 = 0 then f rest
    else (p.1, p.2 ^^^ q.2) :: f rest

/-- The sum of two blocks, byte by byte (R42). -/
def Block.xor : Block → Block → Block
  | [] => fun b => b
  | p :: a => Block.xorHead p a (Block.xor a)

/-- The sum of a list of blocks. -/
def Block.sum (bs : List Block) : Block := bs.foldl Block.xor Block.void

/-- A block with `f` applied to every byte that is not 00h; `f` is a product or quotient by a constant, which
keeps 00h. -/
def Block.map (f : Byte → Byte) : Block → Block
  | [] => []
  | (place, value) :: rest =>
    if f value = 0 then Block.map f rest else (place, f value) :: Block.map f rest

/-- The product g·x (R42). -/
def gDouble (x : Byte) : Byte := if x.msb then (x <<< 1) ^^^ 0x1D else x <<< 1

/-- The power g^i (R42). -/
def gPow : Nat → Byte
  | 0 => 1
  | i + 1 => gDouble (gPow i)

/-- The walk along the powers of g that the log table of R43 lists. -/
def gLogFrom : Nat → Nat → Byte → Byte → Nat
  | 0, i, _, _ => i
  | fuel + 1, i, power, v => if power = v then i else gLogFrom fuel (i + 1) (gDouble power) v

/-- The log table of R43, for a byte that is not 00h. -/
def gLog (v : Byte) : Nat := gLogFrom 255 0 1 v

/-- Product (R43). -/
def gMul (x y : Byte) : Byte := if x = 0 ∨ y = 0 then 0 else gPow ((gLog x + gLog y) % 255)

/-- Quotient by a divisor that is not 00h (R43). -/
def gDiv (x y : Byte) : Byte := if x = 0 then 0 else gPow ((gLog x + 255 - gLog y) % 255)

/-- The negative power g^(-i), for i from 0 to 254 (R43). -/
def gPowNeg (i : Nat) : Byte := gPow ((255 - i) % 255)

/-- A block weighted by a constant. -/
def Block.scale (c : Byte) (b : Block) : Block := Block.map (gMul c) b

/-- A block divided by a constant that is not 00h. -/
def Block.divide (b : Block) (c : Byte) : Block := Block.map (fun x => gDiv x c) b

end Sys2Proof
end

