-- ==== Sys2Proof/Machine/Geometry.lean ====
section
/-! DEFINITION. Machine/Geometry.lean: the layout map's address arithmetic and parity placement (R2, R4 to R8). -/

namespace Sys2Proof.Machine

/-- The entry describes an extent (R1). -/
def Extent.inUse (e : Extent) : Bool := e.condition != .unused

/-- Parity count: 1 for MIRROR and SINGLE, 2 for DOUBLE (R1). -/
def Extent.parityCount (e : Extent) : Nat :=
  match e.kind with
  | .mirror => 1
  | .single => 1
  | .double => 2

/-- Data count k (R1). -/
def Extent.dataCount (e : Extent) : Nat := e.memberCount - e.parityCount

/-- Rows per stripe (R2). -/
def Extent.rowsPerStripe (e : Extent) : Nat := e.stripSize / 16

/-- Extent rows (R2). -/
def Extent.rows (e : Extent) : Nat := e.stripeCount * e.rowsPerStripe

/-- Data blocks per stripe (R2). -/
def Extent.stripeBlocks (e : Extent) : Nat := e.dataCount * e.stripSize

/-- Array limit (R2). -/
def Extent.arrayLimit (e : Extent) : Nat := e.arrayStart + e.stripeCount * e.stripeBlocks - 1

/-- The last member block of the extent on each of its ports (R2). -/
def Extent.memberLimit (e : Extent) : Nat := e.memberBase + e.stripeCount * e.stripSize - 1

/-- The stripe of a row (R5). -/
def Extent.stripeOf (e : Extent) (row : Nat) : Nat := row / e.rowsPerStripe

/-- The row offset of a row within its stripe (R5). -/
def Extent.rowOffset (e : Extent) (row : Nat) : Nat := row % e.rowsPerStripe

/-- The P position in stripe `s` (R6). -/
def Extent.pPosition (e : Extent) (s : Nat) : Nat :=
  let base := e.memberCount - e.parityCount
  match e.rotation with
  | .fixed => base
  | .descending => (base + e.memberCount - s % e.memberCount) % e.memberCount
  | .ascending => (base + s) % e.memberCount

/-- The Q position in stripe `s`; Q exists on DOUBLE only (R6). -/
def Extent.qPosition (e : Extent) (s : Nat) : Option Nat :=
  match e.kind with
  | .double => some ((e.pPosition s + 1) % e.memberCount)
  | .mirror => none
  | .single => none

/-- The last parity position of stripe `s` (R6). -/
def Extent.lastParity (e : Extent) (s : Nat) : Nat := (e.qPosition s).getD (e.pPosition s)

/-- The position of data strip `j` in stripe `s` (R6). -/
def Extent.dataPosition (e : Extent) (s j : Nat) : Nat := (e.lastParity s + 1 + j) % e.memberCount

/-- The position holds P or Q in stripe `s`. -/
def Extent.isParity (e : Extent) (s p : Nat) : Bool := p == e.pPosition s || some p == e.qPosition s

/-- The data index of a position in stripe `s`, if it holds data (R8 step 5). -/
def Extent.dataIndex (e : Extent) (s p : Nat) : Option Nat :=
  if e.isParity s p then none else some ((p + e.memberCount - e.lastParity s - 1) % e.memberCount)

/-- The result of forward translation (R4). -/
structure Translation where
  stripe       : Nat
  dataIndex    : Nat
  blockInStrip : Nat
  row          : Nat
  blockOffset  : Nat
  position     : Nat
  port         : Option PortId
  memberBlock  : Nat
deriving DecidableEq, Repr

/-- Forward translation of array block `a` (R4); none where it fails. -/
def Extent.translate (e : Extent) (a : Nat) : Option Translation :=
  if a < e.arrayStart ∨ e.arrayLimit < a then none
  else
    let o := a - e.arrayStart
    let s := o / e.stripeBlocks
    let w := o % e.stripeBlocks
    let j := w / e.stripSize
    let b := w % e.stripSize
    some
      { stripe := s, dataIndex := j, blockInStrip := b, row := s * e.rowsPerStripe + b / 16, blockOffset := b % 16,
        position := e.dataPosition s j, port := e.targets[e.dataPosition s j]?,
        memberBlock := e.memberBase + s * e.stripSize + b }

/-- The member block of block offset `t` of a row's slice, the same on every position (R5). -/
def Extent.memberBlock (e : Extent) (row t : Nat) : Nat :=
  e.memberBase + e.stripeOf row * e.stripSize + 16 * e.rowOffset row + t

/-- The array block that data strip `j` carries at block offset `t` of a row (R5). -/
def Extent.arrayBlock (e : Extent) (row j t : Nat) : Nat :=
  e.arrayStart + e.stripeOf row * e.stripeBlocks + j * e.stripSize + 16 * e.rowOffset row + t

/-- The array block at block offset `t` of a row on position `p`, if the position holds data. -/
def Extent.arrayBlockAt (e : Extent) (row p t : Nat) : Option Nat :=
  (e.dataIndex (e.stripeOf row) p).map fun j => e.arrayBlock row j t

/-- Reverse translation from a position and a member block (R8 steps 2 to 5). -/
def Extent.reverse (e : Extent) (position memberBlock : Nat) : Option Nat :=
  if memberBlock < e.memberBase ∨ e.memberLimit < memberBlock then none
  else
    let u := memberBlock - e.memberBase
    let s := u / e.stripSize
    let b := u % e.stripSize
    (e.dataIndex s position).map fun j => e.arrayStart + s * e.stripeBlocks + j * e.stripSize + b

/-- The place of a port in the target list. -/
def Extent.positionOf (e : Extent) (p : PortId) : Option Nat := e.targets.findIdx? (· == p)

/-- The positions of the extent. -/
def Extent.positions (e : Extent) : List Nat := List.range e.memberCount

/-- The positions that hold data in a row's stripe, in order of data index. -/
def Extent.dataPositions (e : Extent) (row : Nat) : List Nat :=
  (List.range e.dataCount).map (e.dataPosition (e.stripeOf row))

/-- The positions that hold parity in a row's stripe, P first. -/
def Extent.parityPositions (e : Extent) (row : Nat) : List Nat :=
  e.pPosition (e.stripeOf row) :: (e.qPosition (e.stripeOf row)).toList

/-- The sixteen block offsets of a row. -/
def rowOffsets : List Nat := List.range 16

/-- The run of requested blocks that the blocks `first` to `last` of the array have on data strip `j` of a row (R117). -/
def Extent.requestedRun (e : Extent) (row first last j : Nat) : Option RequestedRun :=
  let low := max first (e.arrayBlock row j 0)
  let high := min last (e.arrayBlock row j 15)
  if low ≤ high then some { strip := j, first := low - e.arrayBlock row j 0, count := high + 1 - low } else none

/-- The row pieces of a READ or WRITE of the array blocks `first` to `last` (R117): the rows that hold one of them, in
ascending order, each with its runs. -/
def Extent.rowPieces (e : Extent) (first last : Nat) : List Piece :=
  let s0 := (first - e.arrayStart) / e.stripeBlocks
  let s1 := (last - e.arrayStart) / e.stripeBlocks
  (List.range ((s1 + 1 - s0) * e.rowsPerStripe)).filterMap fun i =>
    let row := s0 * e.rowsPerStripe + i
    let runs := (List.range e.dataCount).filterMap (e.requestedRun row first last)
    if runs.isEmpty then none else some { row := row, runs := runs }

/-- The row pieces of a RESYNC (R117). -/
def resyncPieces (firstRow rowCount : Nat) : List Piece :=
  (List.range rowCount).map fun i => { row := firstRow + i, runs := [] }

end Sys2Proof.Machine
end

