-- ==== Sys2Proof/Machine/Ranges.lean ====
section
/-! DEFINITION. Machine/Ranges.lean: the two lists of ranges as pure lists, the loss list (R128, R130 to R132) and the
published unsettled-row list (R82, R83). -/

namespace Sys2Proof.Machine

/-! ## Loss entries -/

/-- The last block of an entry, `limit` being the array limit of its extent (R128). -/
def LossEntry.last (limit : Nat) (e : LossEntry) : Nat := if e.toEnd then limit else e.first + e.count - 1

/-- The number of blocks an entry lists. -/
def LossEntry.size (limit : Nat) (e : LossEntry) : Nat := e.last limit + 1 - e.first

/-- The age of an entry, modulo 2^32 (R128). -/
def LossEntry.age (now : Stamp) (e : LossEntry) : BitVec 32 := now - e.stamp

/-- The older of two parts (R128): the greater age, or of equal ages the lower first block. Of two that agree in both, the
first given, which in an insertion is the entry in the list (log 55). -/
def LossEntry.older (now : Stamp) (a b : LossEntry) : LossEntry :=
  if a.age now = b.age now then (if a.first ≤ b.first then a else b)
  else if (b.age now).toNat < (a.age now).toNat then a else b

/-- The order of the list: by extent, then by first array block (R128). -/
def LossEntry.before (a b : LossEntry) : Bool :=
  decide (a.extent.val < b.extent.val) || (a.extent == b.extent && decide (a.first < b.first))

/-- An entry put in its sorted place. -/
def insertLossSorted (e : LossEntry) : List LossEntry → List LossEntry
  | [] => [e]
  | x :: rest => if e.before x then e :: x :: rest else x :: insertLossSorted e rest

/-- Two ranges of one extent overlap or touch (R128). -/
def LossEntry.meets (limit : Nat) (a b : LossEntry) : Bool :=
  a.extent == b.extent && decide (a.first ≤ b.last limit + 1) && decide (b.first ≤ a.last limit + 1)

/-- The range of `a` lies wholly within `b`. -/
def LossEntry.within (limit : Nat) (a b : LossEntry) : Bool :=
  a.extent == b.extent && decide (b.first ≤ a.first) && decide (a.last limit ≤ b.last limit)

/-- Two parts made one entry: from the lower first block to the higher last block, TO_END where a part is or where the
count would pass 2^32 - 1, with the origin and stamp of the older (R130 step 2). -/
def LossEntry.merge (now : Stamp) (limit : Nat) (a b : LossEntry) : LossEntry :=
  let low := min a.first b.first
  let high := max (a.last limit) (b.last limit)
  let old := a.older now b
  if a.toEnd || b.toEnd || decide (Config.maxCount < high + 1 - low) then
    { extent := a.extent, first := low, toEnd := true, count := 0, origin := old.origin, stamp := old.stamp }
  else
    { extent := a.extent, first := low, toEnd := false, count := high + 1 - low, origin := old.origin,
      stamp := old.stamp }

/-- The entry `e` put into the list with every entry that it meets merged into it, one after another in list order. Where a
merge reaches TO_END the entries above that it then covers are parts of it like the others (R130; log 56). -/
def absorbLoss (now : Stamp) (limit : Nat) (e : LossEntry) (l : List LossEntry) : List LossEntry :=
  let merged := l.foldl (fun acc x => if x.meets limit acc then x.merge now limit acc else acc) e
  insertLossSorted merged (l.filter fun x => !(x.meets limit merged))

/-- Steps 1 and 2 of R130; none where the range needs an entry of its own. -/
def joinLoss (now : Stamp) (limit : Nat) (e : LossEntry) (l : List LossEntry) : Option (List LossEntry) :=
  if l.any (fun x => e.within limit x) then some l
  else if l.any (fun x => x.meets limit e) then some (absorbLoss now limit e l)
  else none

/-- The neighbouring pair of one extent with the smallest gap, the first of those in list order, with the gap (R131). -/
def closestLosses (limits : ExtentId → Nat) : List LossEntry → Option (Nat × LossEntry × LossEntry)
  | [] => none
  | a :: rest =>
    let best := closestLosses limits rest
    match rest with
    | [] => none
    | b :: _ =>
      if a.extent = b.extent then
        let gap := b.first - a.last (limits a.extent) - 1
        match best with
        | none => some (gap, a, b)
        | some (g, p) => if gap ≤ g then some (gap, a, b) else some (g, p)
      else best

/-- Coarsening (R131): the closest pair becomes one entry that covers both and the gap. -/
def coarsenLosses (now : Stamp) (limits : ExtentId → Nat) (l : List LossEntry) : List LossEntry :=
  match closestLosses limits l with
  | none => l
  | some (_, a, b) => absorbLoss now (limits a.extent) (a.merge now (limits a.extent) b) l

/-- Insertion (R130), with the number of coarsenings it made. -/
def insertLoss (now : Stamp) (limits : ExtentId → Nat) (e : LossEntry) (l : List LossEntry) : List LossEntry × Nat :=
  match joinLoss now (limits e.extent) e l with
  | some l' => (l', 0)
  | none =>
    if l.length < Config.lossEntries then (insertLossSorted e l, 0)
    else
      let l1 := coarsenLosses now limits l
      match joinLoss now (limits e.extent) e l1 with
      | some l' => (l', 1)
      | none => (insertLossSorted e l1, 1)

/-- What a removal did (R132). -/
structure LossRemoval where
  entries   : List LossEntry
  deleted   : Nat
  shortened : Nat
  split     : Nat
  kept      : Nat
deriving DecidableEq, Repr

/-- Removal of the blocks `low` to `high` of one extent (R132), entry by entry in ascending order; `held` is the number
of entries the list holds as the walk goes. An entry that cannot be cut because the part kept would exceed 2^32 - 1
blocks while COUNTED is left whole and counted as kept (log 32). -/
def removeLosses (limit : Nat) (extent : ExtentId) (low high : Nat) : Nat → List LossEntry → LossRemoval
  | _, [] => { entries := [], deleted := 0, shortened := 0, split := 0, kept := 0 }
  | held, e :: rest =>
    let last := e.last limit
    if e.extent ≠ extent ∨ last < low ∨ high < e.first then
      let r := removeLosses limit extent low high held rest
      { r with entries := e :: r.entries }
    else if low ≤ e.first ∧ last ≤ high then
      let r := removeLosses limit extent low high (held - 1) rest
      { r with deleted := r.deleted + 1 }
    else if low ≤ e.first then
      let r := removeLosses limit extent low high held rest
      { r with entries := { e with first := high + 1, count := if e.toEnd then e.count else last - high } :: r.entries,
               shortened := r.shortened + 1 }
    else if Config.maxCount < low - e.first then
      let r := removeLosses limit extent low high held rest
      { r with entries := e :: r.entries, kept := r.kept + 1 }
    else if last ≤ high then
      let r := removeLosses limit extent low high held rest
      { r with entries := { e with toEnd := false, count := low - e.first } :: r.entries,
               shortened := r.shortened + 1 }
    else if held < Config.lossEntries then
      let r := removeLosses limit extent low high (held + 1) rest
      { r with entries := { e with toEnd := false, count := low - e.first } ::
                 { e with first := high + 1, count := if e.toEnd then e.count else last - high } :: r.entries,
               split := r.split + 1 }
    else
      let r := removeLosses limit extent low high held rest
      { r with entries := e :: r.entries, kept := r.kept + 1 }

/-- The blocks a list of entries lists. -/
def lossBlocks (limits : ExtentId → Nat) (l : List LossEntry) : Nat :=
  l.foldl (fun n e => n + e.size (limits e.extent)) 0

/-- An array block of an extent is listed (R128). -/
def isListed (limit : Nat) (extent : ExtentId) (block : Nat) (l : List LossEntry) : Bool :=
  l.any fun e => e.extent == extent && decide (e.first ≤ block) && decide (block ≤ e.last limit)

/-! ## Unsettled rows -/

/-- The last row of an entry, `limit` being the last row of its extent (R82). -/
def UnsettledEntry.last (limit : Nat) (e : UnsettledEntry) : Nat := if e.toEnd then limit else e.first + e.count - 1

/-- The rows of an entry. -/
def UnsettledEntry.size (limit : Nat) (e : UnsettledEntry) : Nat := e.last limit + 1 - e.first

def UnsettledEntry.before (a b : UnsettledEntry) : Bool :=
  decide (a.extent.val < b.extent.val) || (a.extent == b.extent && decide (a.first < b.first))

def insertUnsettledSorted (e : UnsettledEntry) : List UnsettledEntry → List UnsettledEntry
  | [] => [e]
  | x :: rest => if e.before x then e :: x :: rest else x :: insertUnsettledSorted e rest

def UnsettledEntry.meets (limit : Nat) (a b : UnsettledEntry) : Bool :=
  a.extent == b.extent && decide (a.first ≤ b.last limit + 1) && decide (b.first ≤ a.last limit + 1)

def UnsettledEntry.within (limit : Nat) (a b : UnsettledEntry) : Bool :=
  a.extent == b.extent && decide (b.first ≤ a.first) && decide (a.last limit ≤ b.last limit)

/-- A merge; one that would pass 2^32 - 1 rows reaches to the last row of the extent (R82). -/
def UnsettledEntry.merge (limit : Nat) (a b : UnsettledEntry) : UnsettledEntry :=
  let low := min a.first b.first
  let high := max (a.last limit) (b.last limit)
  if a.toEnd || b.toEnd || decide (Config.maxCount < high + 1 - low) then
    { extent := a.extent, first := low, count := 0, toEnd := true }
  else { extent := a.extent, first := low, count := high + 1 - low, toEnd := false }

def absorbUnsettled (limit : Nat) (e : UnsettledEntry) (l : List UnsettledEntry) : List UnsettledEntry :=
  let merged := l.foldl (fun acc x => if x.meets limit acc then x.merge limit acc else acc) e
  insertUnsettledSorted merged (l.filter fun x => !(x.meets limit merged))

def joinUnsettled (limit : Nat) (e : UnsettledEntry) (l : List UnsettledEntry) : Option (List UnsettledEntry) :=
  if l.any (fun x => e.within limit x) then some l
  else if l.any (fun x => x.meets limit e) then some (absorbUnsettled limit e l)
  else none

def closestUnsettled (limits : ExtentId → Nat) :
    List UnsettledEntry → Option (Nat × UnsettledEntry × UnsettledEntry)
  | [] => none
  | a :: rest =>
    let best := closestUnsettled limits rest
    match rest with
    | [] => none
    | b :: _ =>
      if a.extent = b.extent then
        let gap := b.first - a.last (limits a.extent) - 1
        match best with
        | none => some (gap, a, b)
        | some (g, p) => if gap ≤ g then some (gap, a, b) else some (g, p)
      else best

def coarsenUnsettled (limits : ExtentId → Nat) (l : List UnsettledEntry) : List UnsettledEntry :=
  match closestUnsettled limits l with
  | none => l
  | some (_, a, b) => absorbUnsettled (limits a.extent) (a.merge (limits a.extent) b) l

/-- Insertion of one row (R82). -/
def insertUnsettled (limits : ExtentId → Nat) (extent : ExtentId) (row : Nat) (l : List UnsettledEntry) :
    List UnsettledEntry :=
  let e : UnsettledEntry := { extent := extent, first := row, count := 1, toEnd := false }
  match joinUnsettled (limits extent) e l with
  | some l' => l'
  | none =>
    if l.length < Config.unsettledEntries then insertUnsettledSorted e l
    else
      let l1 := coarsenUnsettled limits l
      match joinUnsettled (limits extent) e l1 with
      | some l' => l'
      | none => insertUnsettledSorted e l1

/-- An entry with the rows `first` to `last`: COUNTED where that fits, none where it exceeds 2^32 - 1 rows. -/
def UnsettledEntry.counted (extent : ExtentId) (first last : Nat) : Option UnsettledEntry :=
  if last + 1 - first ≤ Config.maxCount then
    some { extent := extent, first := first, count := last + 1 - first, toEnd := false }
  else none

/-- The entries that take the place of entry `e` when row `row` of it is resynced (R83); none where it is left as it
was. `full` says that the list holds 64 entries. The upper part of a split entry that reached to the last row is COUNTED
where its rows fit a count, and reaches to the last row where they do not (log 70). -/
def UnsettledEntry.without (limit : Nat) (full : Bool) (row : Nat) (e : UnsettledEntry) : Option (List UnsettledEntry) :=
  let last := e.last limit
  if e.first = row ∧ last = row then some []
  else if e.first = row then (UnsettledEntry.counted e.extent (row + 1) last).map fun x => [x]
  else if last = row then (UnsettledEntry.counted e.extent e.first (row - 1)).map fun x => [x]
  else if full then none
  else
    (UnsettledEntry.counted e.extent e.first (row - 1)).map fun low =>
      [low, (UnsettledEntry.counted e.extent (row + 1) last).getD
        { extent := e.extent, first := row + 1, count := 0, toEnd := true }]

/-- A RESYNC_ROW that ended DONE takes its row off the list (R83); none where the list stays as it was. -/
def removeUnsettled (limit : Nat) (full : Bool) (extent : ExtentId) (row : Nat) :
    List UnsettledEntry → Option (List UnsettledEntry)
  | [] => none
  | e :: rest =>
    if e.extent = extent ∧ e.first ≤ row ∧ row ≤ e.last limit then
      (e.without limit full row).map fun xs => xs ++ rest
    else (removeUnsettled limit full extent row rest).map fun xs => e :: xs

end Sys2Proof.Machine
end

