-- ==== Sys2Proof/Machine/Ops.lean ====
section
/-! DEFINITION. Machine/Ops.lean: the named reads and updates of State that every meaning is written with. -/

namespace Sys2Proof.Machine

/-! ## Numbered things -/

/-- One entry of a numbered bank replaced by its image under `f`. -/
def bankModify {α : Type} {n : Nat} (v : Vector α n) (i : Fin n) (f : α → α) : Vector α n :=
  v.set i.val (f v[i.val]) i.isLt

/-- Every entry of a numbered bank replaced by its image under `f`. -/
def bankMap {α : Type} {n : Nat} (f : α → α) (v : Vector α n) : Vector α n :=
  ⟨⟨v.toArray.toList.map f⟩, by simp⟩

/-- The numbers 0 to n - 1, lowest first. -/
def bankIndices : (n : Nat) → List (Fin n)
  | 0 => []
  | n + 1 => 0 :: (bankIndices n).map Fin.succ

/-! ## Reads -/

def State.port (s : State) (p : PortId) : Port := s.ports[p.val]
def State.extent (s : State) (e : ExtentId) : Extent := s.extents[e.val]
def State.job (s : State) (j : JobId) : Job := s.jobs[j.val]
def State.context (s : State) (c : ContextId) : Option Operation := s.rows.contexts[c.val]

/-! ## Updates -/

def State.withPort (s : State) (p : PortId) (f : Port → Port) : State := { s with ports := bankModify s.ports p f }
def State.withExtent (s : State) (e : ExtentId) (f : Extent → Extent) : State :=
  { s with extents := bankModify s.extents e f }
def State.withJob (s : State) (j : JobId) (f : Job → Job) : State := { s with jobs := bankModify s.jobs j f }
def State.withRows (s : State) (f : RowEngine → RowEngine) : State := { s with rows := f s.rows }
def State.withSolver (s : State) (f : Solver → Solver) : State := { s with solver := f s.solver }
def State.withHolds (s : State) (f : HoldTable → HoldTable) : State := { s with holds := f s.holds }
def State.withRequests (s : State) (f : List ForegroundRequest → List ForegroundRequest) : State :=
  { s with requests := f s.requests }
def State.withLosses (s : State) (f : LossList → LossList) : State := { s with losses := f s.losses }
def State.withSettings (s : State) (f : Settings → Settings) : State := { s with settings := f s.settings }
def State.withTime (s : State) (f : TimeBase → TimeBase) : State := { s with time := f s.time }
def State.withGuard (s : State) (f : LoadGuard → LoadGuard) : State := { s with guard := f s.guard }
def State.withBoard (s : State) (f : Board → Board) : State := { s with board := f s.board }

/-- A context given a new content: an operation, or none when it is freed. -/
def State.setContext (s : State) (c : ContextId) (op : Option Operation) : State :=
  s.withRows fun r => { r with contexts := bankModify r.contexts c fun _ => op }

/-- The operation of a context changed by `f`, where the context holds one. -/
def State.withOperation (s : State) (c : ContextId) (f : Operation → Operation) : State :=
  s.withRows fun r => { r with contexts := bankModify r.contexts c fun op => op.map f }

/-! ## Time -/

/-- The tick counter as a stamp (R140). -/
def State.stamp (s : State) : Stamp := s.time.tick

/-! ## Publishing and answering -/

/-- A cause of R159 is taken; the board unit acts on it at the end of the step. -/
def State.askPublish (s : State) : State := s.withBoard fun b => { b with publishAsked := true }

/-- `askPublish` when `b` holds. -/
def State.askPublishIf (s : State) (b : Bool) : State := if b then s.askPublish else s

/-- An owner hands the board unit an answer; it joins the tail of the answer queue (R158). -/
def State.answer (s : State) (slip : SlipId) (status : Status) (reason : Reason) (body : List BodyField) : State :=
  s.withBoard fun b =>
    { b with answers := b.answers ++ [{ slip := slip, status := status, reason := reason, body := body }] }

/-- A slip answered REFUSED with a reason and a body of zeros (R154). -/
def State.refuse (s : State) (slip : SlipId) (reason : Reason) : State := s.answer slip .refused reason []

/-- A JOBCTL answered (R101): its values are taken when the answer is written. -/
def State.answerJob (s : State) (slip : SlipId) (status : Status) (c : ControlAnswer) : State :=
  s.withBoard fun b =>
    { b with answers := b.answers ++ [{ slip := slip, status := status, reason := .none, body := [], control := some c }] }

/-- `answer` to a slip that may be absent (R96). -/
def State.answerIf (s : State) (slip : Option SlipId) (status : Status) (reason : Reason) (body : List BodyField) :
    State :=
  match slip with
  | some i => s.answer i status reason body
  | none => s

/-! ## Fields of an answer body (R154) -/

def field1 (n : Nat) : BodyField := { width := 1, value := some n }
def field2 (n : Nat) : BodyField := { width := 2, value := some n }
def field4 (n : Nat) : BodyField := { width := 4, value := some n }
def field8 (n : Nat) : BodyField := { width := 8, value := some n }
def fieldOption (width : Nat) (v : Option Nat) : BodyField := { width := width, value := v }

/-- A flag as its code. -/
def flagCode (b : Bool) : Nat := if b then 1 else 0

/-! ## Row contexts -/

/-- The operations in contexts, with their context numbers. -/
def State.operations (s : State) : List (ContextId × Operation) :=
  (bankIndices 24).filterMap fun c => (s.context c).map fun op => (c, op)

/-- The class of an operation (R58). -/
def RowKind.isForeground (k : RowKind) : Bool := k != .rebuildRow

def RowKind.requestClass (k : RowKind) : RequestClass := if k.isForeground then .foreground else .rebuild

/-- Row contexts held by rebuild-class operations (R60). -/
def State.rebuildContextCount (s : State) : Nat :=
  (s.operations.filter fun x => !x.2.kind.isForeground).length

/-- Pressure: row contexts held by foreground-class operations (R147). -/
def State.pressure (s : State) : Nat := (s.operations.filter fun x => x.2.kind.isForeground).length

/-- Frames in use (R61). -/
def State.framesInUse (s : State) : Nat := s.operations.foldl (fun n x => n + x.2.frames.length) 0

/-- Frames free (R61). -/
def State.framesFree (s : State) : Nat := Config.frames - s.framesInUse

/-- Some row operation on an extent has been started and not ended (R16, R88). -/
def State.rowWorkOn (s : State) (e : ExtentId) (kinds : RowKind → Bool) : Bool :=
  s.operations.any (fun x => x.2.extent == e && kinds x.2.kind) ||
    s.rows.contextWait.any (fun r => r.extent == e && kinds r.kind)

/-- The number of those operations (R89). -/
def State.rowWorkCount (s : State) (e : ExtentId) : Nat :=
  (s.operations.filter fun x => x.2.extent == e).length +
    (s.rows.contextWait.filter fun r => r.extent == e).length

/-- A request of context `c` is pending on a port. -/
def Port.waitsFor (p : Port) (c : ContextId) : Bool := p.waiting.any fun r => r.owner == some c

/-- The request in a slot is one of context `c`. -/
def slotOwnedBy (c : ContextId) : Option Outstanding → Bool
  | some o => o.request.owner == some c
  | none => false

/-- A request of context `c` is outstanding on a port. -/
def Port.hasOutstanding (p : Port) (c : ContextId) : Bool := p.slots.toArray.toList.any (slotOwnedBy c)

/-- Context `c` has a request pending or outstanding somewhere. -/
def State.requestsOpen (s : State) (c : ContextId) : Bool :=
  s.ports.toArray.toList.any fun p => p.waitsFor c || p.hasOutstanding c

/-! ## Extents and jobs -/

/-- The array limit of each extent. -/
def State.arrayLimits (s : State) : ExtentId → Nat := fun e => (s.extent e).arrayLimit

/-- The last row of each extent. -/
def State.lastRows (s : State) : ExtentId → Nat := fun e => (s.extent e).rows - 1

/-- A job is on its extent in every state other than FREE and ENDED (R87). -/
def Job.isOn (j : Job) : Bool := j.state != .free && j.state != .ended

/-- The job on an extent, if there is one. -/
def State.jobOn (s : State) (e : ExtentId) : Option JobId :=
  (bankIndices 4).find? fun j => (s.job j).isOn && (s.job j).extent == e

/-- A row is rebuilt for a job when it lies below F or in the completion window (R11, R86). -/
def Job.isRebuilt (j : Job) (row : Nat) : Bool := decide (row < j.frontier) || j.window.contains row

/-- The targets that a job has: those of its record, and none once it has lost its last one (R99), though the record then
still names that port (R96; log 71). -/
def Job.ownTargets (j : Job) : List PortId := if j.targetless then [] else j.sources.map Source.target

/-- The target that a job has for a position (log 71). -/
def Job.targetOf (j : Job) (position : Nat) : Option PortId :=
  if j.targetless then none else (j.sources.find? fun x => x.position == position).map Source.target

/-- The port's member is ONLINE and not stalled (R11 case 1). -/
def Port.serves (p : Port) : Bool := p.memberState == .online && !p.stalled

/-- The port's member is a TARGET and not stalled (R11 case 2). -/
def Port.servesAsTarget (p : Port) : Bool := p.memberState == .target && !p.stalled

/-- The port of the target list at a position. -/
def State.listedPort (s : State) (e : ExtentId) (position : Nat) : Option PortId := (s.extent e).targets[position]?

/-- The target that serves a position for a rebuilt row (R11 case 2). -/
def State.rebuiltTarget (s : State) (e : ExtentId) (position row : Nat) : Option PortId :=
  match s.jobOn e with
  | none => none
  | some j =>
    match (s.job j).targetOf position with
    | none => none
    | some t => if (s.port t).servesAsTarget && (s.job j).isRebuilt row then some t else none

/-- The port that serves reads of a position for a row; none where the position is unavailable (R11, R12). -/
def State.servingPort (s : State) (e : ExtentId) (position row : Nat) : Option PortId :=
  match s.listedPort e position with
  | none => none
  | some p => if (s.port p).serves then some p else s.rebuiltTarget e position row

/-- A position is available for a row (R11). -/
def State.available (s : State) (e : ExtentId) (position row : Nat) : Bool := (s.servingPort e position row).isSome

/-- Reverse translation (R8): the position is the port's place in the target list, or the source position it is the
target of. -/
def State.reverseTranslate (s : State) (e : ExtentId) (p : PortId) (memberBlock : Nat) : Option Nat :=
  let asTarget := (s.jobOn e).bind fun j =>
    ((s.job j).sources.find? fun x => x.target == p).map Source.position
  match ((s.extent e).positionOf p).or asTarget with
  | none => none
  | some position => (s.extent e).reverse position memberBlock

/-- A job whose last row has ended while it was RUNNING or PAUSING completes (R92 step 5, R95): its JOB_COMPLETION is due,
and nothing that is taken before it changes that (R108; log 1). -/
def Job.completes (j : Job) : Bool := (j.state == .running || j.state == .pausing) && j.frontier == j.endRow

/-- The job on an extent completes, with the port among its targets. -/
def State.completesOnto (s : State) (e : ExtentId) (p : PortId) : Bool :=
  match s.jobOn e with
  | none => false
  | some j => (s.job j).completes && (s.job j).sources.any fun x => x.target == p

/-- The extent whose target list holds a port, or takes it in at a completion that is due (R95, R108). -/
def State.extentOfPort (s : State) (p : PortId) : Option ExtentId :=
  (bankIndices 16).find? fun e => (s.extent e).inUse && ((s.extent e).targets.contains p || s.completesOnto e p)

/-- The number of lost positions of an extent (R9). -/
def State.lostPositions (s : State) (e : ExtentId) : Nat :=
  ((s.extent e).targets.filter fun p =>
    (s.port p).memberState == .failed || (s.port p).memberState == .absent).length

/-- The condition that R9 gives for an extent that is described. -/
def State.conditionOf (s : State) (e : ExtentId) : Condition :=
  let lost := s.lostPositions e
  let parity := (s.extent e).parityCount
  if lost = 0 then .whole
  else if lost < parity then .degraded
  else if lost = parity then .exposed
  else .lost

/-! ## Losses and unsettled rows in the state -/

/-- Ranges inserted into the loss list one after another in one event (R130). -/
def State.insertLosses (s : State) (ranges : List LossEntry) : State :=
  let step (acc : List LossEntry × Nat) (e : LossEntry) : List LossEntry × Nat :=
    let r := insertLoss s.stamp s.arrayLimits e acc.1
    (r.1, acc.2 + r.2)
  let r := ranges.foldl step (s.losses.entries, 0)
  (s.withLosses fun l =>
    { l with entries := r.1, coarsenings := l.coarsenings + BitVec.ofNat 32 r.2 }).askPublishIf
      (decide (r.1 ≠ s.losses.entries))

/-- One range removed from the loss list (R132), and what the removal did. -/
def State.removeLossRange (s : State) (e : ExtentId) (low high : Nat) : State × LossRemoval :=
  let r := removeLosses (s.arrayLimits e) e low high s.losses.entries.length s.losses.entries
  ((s.withLosses fun l => { l with entries := r.entries, kept := l.kept + BitVec.ofNat 32 r.kept }).askPublishIf
      (decide (0 < r.deleted + r.shortened + r.split + r.kept)), r)

/-- A row taken off the published unsettled-row list by a RESYNC_ROW that ended DONE (R83), and whether it left it. -/
def State.settleRow (s : State) (e : ExtentId) (row : Nat) : State × Bool :=
  match removeUnsettled (s.lastRows e) (decide (Config.unsettledEntries ≤ s.rows.unsettled.length)) e row
      s.rows.unsettled with
  | some l => ((s.withRows fun r => { r with unsettled := l }).askPublish, true)
  | none => (s, false)

end Sys2Proof.Machine
end

