-- ==== Sys2Proof/Machine/Flags.lean ====
section
/-! DEFINITION. Machine/Flags.lean: the attention causes and enables, and the line they drive (R160). -/

namespace Sys2Proof.Machine

/-- Bit 0 of ATTENTION: ANSWERED. -/
def causeAnswered : BitVec 3 := 1

/-- Bit 1 of ATTENTION: PUBLISHED. -/
def causePublished : BitVec 3 := 2

/-- Bit 2 of ATTENTION: FAULT. -/
def causeFault : BitVec 3 := 4

/-- A cause set (R158, R159, R162). -/
def Board.setCause (b : Board) (cause : BitVec 3) : Board := { b with causes := b.causes ||| cause }

/-- The bits of ATTENTION, ENABLE SET and ENABLE CLEAR in a value written. -/
def causeBits (value : BitVec 64) : BitVec 3 := value.truncate 3

/-- Each cause whose bit is 1 cleared, each other left (R160). -/
def Board.clearCauses (b : Board) (bits : BitVec 3) : Board := { b with causes := b.causes &&& ~~~bits }

/-- Each cause whose bit is 1 enabled (R160). -/
def Board.enableCauses (b : Board) (bits : BitVec 3) : Board := { b with enables := b.enables ||| bits }

/-- Each cause whose bit is 1 disabled (R160). -/
def Board.disableCauses (b : Board) (bits : BitVec 3) : Board := { b with enables := b.enables &&& ~~~bits }

/-- The attention line: asserted while some cause is both set and enabled (R160). -/
def Board.attentionLine (b : Board) : Bool := (b.causes &&& b.enables) != 0

end Sys2Proof.Machine
end

