-- ==== Sys2Proof/Machine/JobUnit.lean ====
section
/-! DEFINITION. Machine/JobUnit.lean: a job record's own account of its rows, credits and drains (R86 to R107). -/

namespace Sys2Proof.Machine

/-- The budget of a job under a guard state (R145). -/
def Job.budget (guard : GuardState) (j : Job) : Nat :=
  if j.expedite || j.exposed || guard == .cool then j.coolCredits else j.hotCredits

/-- A job is orphaned when it is on its extent and its answering slip is absent (R87). -/
def Job.orphaned (j : Job) : Bool := j.isOn && j.answering.isNone

/-- The six counters in the order of R86. -/
def Job.counters (j : Job) : List BodyField :=
  [field8 j.rowsDone.toNat, field8 j.rowsCopied.toNat, field8 j.rowsReconstructed.toNat,
   field8 j.blocksReconstructed.toNat, field8 j.blocksLost.toNat, field8 j.repairs.toNat]

/-- The cause that a JOBCTL answer gives: the drain cause, or once the job is ENDED its end cause (R95 step 6, R101;
log 46). -/
def Job.answerCause (j : Job) : Option EndCause := if j.state = .ended then j.endCause else j.drainCause

/-- A record as the answer to a superseded PAUSE shows it: in the state ABORTING with its drain cause (R98, R99, R104). -/
def Job.asDrained (cause : Option EndCause) (j : Job) : Job :=
  match cause with
  | none => j
  | some c => { j with state := .aborting, drainCause := some c }

/-- The answer body of a JOBCTL (R101). -/
def Job.controlBody (number : JobId) (j : Job) : List BodyField :=
  [field1 number.val, field1 j.state.code, field1 (causeCode j.answerCause), field1 j.mode.code,
   field8 j.frontier, field8 j.nextRow, field8 j.window.length, field8 j.inFlight.length,
   field1 j.laneCount, field1 j.lanesWanted, field2 j.coolCredits, field2 j.hotCredits, field2 j.creditsLeft,
   field1 (flagCode j.expedite), field1 (flagCode j.exposed), field1 (flagCode j.orphaned)] ++ j.counters

/-- A position and port pair of an answer body; an unused pair is absent (R154). -/
def sourceFields : Option Source → List BodyField
  | some x => [field1 x.position, field1 x.target.val]
  | none => [fieldOption 1 none, fieldOption 1 none]

/-- The answer body at a job's end (R96). -/
def Job.endBody (number : JobId) (j : Job) : List BodyField :=
  [field1 number.val, field1 (causeCode j.endCause), field1 j.mode.code, field1 j.extent.val] ++
    sourceFields j.sources[0]? ++ sourceFields j.sources[1]? ++
    [field8 j.startRow, field8 j.frontier] ++ j.counters ++
    [field4 j.startStamp.toNat, field4 j.endStamp.toNat]

/-- The status and reason of a job's answer (R96). -/
def Job.endStatus (j : Job) : Status × Reason :=
  match j.endCause with
  | some .complete =>
    if j.blocksLost = 0 then (if j.clampMark then .adjusted else .good, .none) else (.lostData, .none)
  | some .extentLost => (.failed, .extentLost)
  | some .aborted => (.failed, .none)
  | some .targetLost => (.failed, .none)
  | none => (.failed, .none)

/-- The frontier moved past the rows of the window that follow it without a gap, at most `fuel` of them, and the window
that is left (R92 step 4). -/
def advanceFrontier : Nat → Nat → List Nat → Nat × List Nat
  | 0, f, window => (f, window)
  | fuel + 1, f, window =>
    if window.contains f then advanceFrontier fuel (f + 1) (window.filter (· != f)) else (f, window)

/-- A row leaves the rows in flight, and the lane count follows (R92 step 1, R93). -/
def Job.rowLeaves (row : Nat) (j : Job) : Job :=
  let inFlight := j.inFlight.filter (· != row)
  { j with inFlight := inFlight, laneCount := max j.lanesWanted inFlight.length }

/-- A completed row taken by the record (R92 steps 1 to 4). -/
def Job.takeCompletion (row : Nat) (copied : Bool) (t : RowTallies) (j : Job) : Job :=
  let j := j.rowLeaves row
  let j :=
    { j with
      rowsDone := j.rowsDone + 1
      rowsCopied := if copied then j.rowsCopied + 1 else j.rowsCopied
      rowsReconstructed := if copied then j.rowsReconstructed else j.rowsReconstructed + 1
      blocksReconstructed := j.blocksReconstructed + BitVec.ofNat 64 t.reconstructed
      blocksLost := j.blocksLost + BitVec.ofNat 64 t.lost
      repairs := j.repairs + BitVec.ofNat 64 t.repairs }
  if row = j.frontier then
    let moved := advanceFrontier j.window.length (row + 1) j.window
    { j with frontier := moved.1, window := moved.2 }
  else if j.frontier < row ∧ !j.window.contains row then { j with window := j.window ++ [row] }
  else j

/-- A row that ended without completing (R93). -/
def Job.takeFailure (row : Nat) (t : RowTallies) (j : Job) : Job :=
  let j := j.rowLeaves row
  { j with blocksLost := j.blocksLost + BitVec.ofNat 64 t.lost }

/-- A checkpoint is called for (R92 steps 5 and 6, R94). -/
def Job.wantsCheckpoint (j : Job) : Bool :=
  (j.frontier != j.endRow || j.state == .aborting) &&
    decide (Config.checkpointRows ≤ j.frontier - j.publishedFrontier)

/-- The job unit takes the end of a REBUILD_ROW of job `j` (R92, R93). Only a row in flight is taken. -/
def State.jobTakesRow (s : State) (j : JobId) (row : Nat) (outcome : RowOutcome) (copied : Bool) (t : RowTallies) :
    State :=
  if (s.job j).inFlight.contains row then
    match outcome with
    | .done | .doneWithLoss | .recovered =>
      let s := s.withJob j (Job.takeCompletion row copied t)
      s.askPublishIf (s.job j).wantsCheckpoint
    | .extentLost | .targetLost | .bufferFault | .skipped => s.withJob j (Job.takeFailure row t)
  else s

/-- The states from which a job can be set draining (R98, R99, R104). -/
def JobState.drainable (st : JobState) : Bool :=
  st == .starting || st == .running || st == .pausing || st == .paused

/-- A job can be set draining, aborted or changed: its state admits it, and its last row has not ended (R98, R99, R104,
R105, R108). -/
def Job.drainable (j : Job) : Bool := j.state.drainable && !j.completes

/-- The PAUSE of a PAUSING job answered FAILED, with the state ABORTING and the drain cause in its body (R98, R99,
R104). -/
def State.supersedePause (s : State) (j : JobId) (cause : EndCause) : State :=
  match (s.job j).state, (s.job j).control with
  | .pausing, some slip => s.answerJob slip .failed { job := j, drained := some cause }
  | _, _ => s

/-- A job set draining (R98, R99, R104): the state becomes ABORTING with the drain cause, and a PAUSE that is awaiting
its answer is answered FAILED. A job already ABORTING keeps its own drain cause. -/
def State.drainJob (s : State) (j : JobId) (cause : EndCause) : State :=
  if (s.job j).drainable then
    ((s.supersedePause j cause).withJob j fun x =>
      { x with state := .aborting, drainCause := some cause, control := none }).askPublish
  else s

/-- One counted operation has ended: the drain count of the job that counts it falls (R90). -/
def State.drainCounted (s : State) (counted : Option JobId) (e : ExtentId) : State :=
  match counted with
  | none => s
  | some j =>
    if (s.job j).state = .starting ∧ (s.job j).extent = e then
      s.withJob j fun x => { x with drainCount := x.drainCount - 1 }
    else s

/-- A job's terms for starting row N hold (R91). -/
def State.canStartRow (s : State) (j : JobId) : Bool :=
  let x := s.job j
  x.state == .running && s.board.engine == .running && decide (1 ≤ x.creditsLeft) &&
    decide (x.inFlight.length < x.laneCount) && decide (x.nextRow < x.frontier + Config.windowRows) &&
    decide (x.nextRow < x.endRow)

/-- The job is draining after the loss of its last target (R63 test 2, R99), whatever its drain cause (log 27). -/
def State.drainsWithoutTarget (s : State) (j : JobId) : Bool := (s.job j).state == .aborting && (s.job j).targetless

end Sys2Proof.Machine
end

