-- ==== Sys2Proof/Machine/BoardUnit.lean ====
section
/-! DEFINITION. Machine/BoardUnit.lean: the board unit's shared operations: the status page and its publishes, the answer
queue, sweeps and the engine state (R152, R155 to R162). -/

namespace Sys2Proof.Machine

/-! ## The status page (R155) -/

def page1 (offset n : Nat) : PageField := { offset := offset, width := 1, value := n }
def page2 (offset n : Nat) : PageField := { offset := offset, width := 2, value := n }
def page4 (offset n : Nat) : PageField := { offset := offset, width := 4, value := n }
def page8 (offset n : Nat) : PageField := { offset := offset, width := 8, value := n }

/-- A one-byte number that may be absent: FFh for none. R155 says so of a member entry's extent and of the target list; a
job entry's outgoing port, slips and unused source pair show FFh as well (log 54). -/
def pageOption (offset : Nat) (v : Option Nat) : PageField := page1 offset (v.getD 0xFF)

/-- The member entry of a port. -/
def State.memberEntry (s : State) (p : PortId) : List PageField :=
  let x := s.port p
  let at_ := 0x40 + 32 * p.val
  [page1 at_ x.memberState.code, page1 (at_ + 1) (flagCode x.stalled), page1 (at_ + 2) x.lapseCount,
   page1 (at_ + 3) x.link.code, pageOption (at_ + 4) ((s.extentOfPort p).map Fin.val),
   page1 (at_ + 5) (x.slots.toArray.toList.countP fun o => (o.map fun y => y.request.cls) == some .foreground),
   page1 (at_ + 6) (x.slots.toArray.toList.countP fun o => (o.map fun y => y.request.cls) == some .rebuild),
   page1 (at_ + 7) (x.slots.toArray.toList.countP fun o => (o.map fun y => y.request.cls) == some .probe),
   page4 (at_ + 8) x.lapses.toNat, page4 (at_ + 0xC) x.lateReplies.toNat, page4 (at_ + 0x10) x.unreadableBlocks.toNat,
   page4 (at_ + 0x14) x.repairs.toNat, page4 (at_ + 0x18) x.probes.toNat]

/-- The extent entry of an extent. -/
def State.extentEntry (s : State) (i : ExtentId) : List PageField :=
  let e := s.extent i
  let at_ := 0x240 + 48 * i.val
  [page1 at_ e.condition.code, page1 (at_ + 1) e.kind.code, page1 (at_ + 2) e.memberCount,
   page1 (at_ + 3) e.stripSize, page1 (at_ + 4) e.rotation.code, page8 (at_ + 8) e.arrayStart,
   page8 (at_ + 0x10) e.memberBase, page4 (at_ + 0x18) e.stripeCount] ++
    (List.range 16).map fun k => pageOption (at_ + 0x20 + k) (e.targets[k]?.map Fin.val)

/-- The job entry of a record. -/
def State.jobEntry (s : State) (j : JobId) : List PageField :=
  let x := s.job j
  let at_ := 0x540 + 128 * j.val
  [page1 at_ x.state.code, page1 (at_ + 1) (causeCode x.drainCause), page1 (at_ + 2) x.mode.code,
   page1 (at_ + 3) x.extent.val, page1 (at_ + 4) x.sources.length,
   pageOption (at_ + 5) (x.sources[0]?.map Source.position), pageOption (at_ + 6) (x.sources[0]?.map fun y => y.target.val),
   pageOption (at_ + 7) (x.sources[1]?.map Source.position), pageOption (at_ + 8) (x.sources[1]?.map fun y => y.target.val),
   pageOption (at_ + 9) (x.outgoing.map Fin.val), page1 (at_ + 0xA) x.laneCount, page1 (at_ + 0xB) x.lanesWanted,
   page1 (at_ + 0xC) x.inFlight.length, page1 (at_ + 0xD) x.window.length, page1 (at_ + 0xE) (flagCode x.expedite),
   page1 (at_ + 0xF) (flagCode x.exposed), page1 (at_ + 0x10) (flagCode x.orphaned),
   page1 (at_ + 0x11) (flagCode x.clampMark), page1 (at_ + 0x12) (causeCode x.endCause),
   pageOption (at_ + 0x13) (x.answering.map Fin.val), pageOption (at_ + 0x14) (x.control.map Fin.val),
   page1 (at_ + 0x15) x.drainCount, page2 (at_ + 0x16) x.coolCredits, page2 (at_ + 0x18) x.hotCredits,
   page2 (at_ + 0x1A) x.creditsLeft, page4 (at_ + 0x1C) x.startStamp.toNat, page8 (at_ + 0x20) x.startRow,
   page8 (at_ + 0x28) x.endRow, page8 (at_ + 0x30) x.frontier, page8 (at_ + 0x38) x.nextRow,
   page8 (at_ + 0x40) x.publishedFrontier, page4 (at_ + 0x48) x.endStamp.toNat, page8 (at_ + 0x50) x.rowsDone.toNat,
   page8 (at_ + 0x58) x.rowsCopied.toNat, page8 (at_ + 0x60) x.rowsReconstructed.toNat,
   page8 (at_ + 0x68) x.blocksReconstructed.toNat, page8 (at_ + 0x70) x.blocksLost.toNat,
   page8 (at_ + 0x78) x.repairs.toNat]

/-- The unsettled entries, in list order; one that reaches the last row of its extent shows row count 0 (R82). -/
def unsettledPage : Nat → List UnsettledEntry → List PageField
  | _, [] => []
  | at_, e :: rest =>
    [page1 at_ e.extent.val, page4 (at_ + 4) (if e.toEnd then 0 else e.count), page8 (at_ + 8) e.first] ++
      unsettledPage (at_ + 16) rest

/-- The fields of the page but the generation, as the state stands. -/
def State.pageFields (s : State) : List PageField :=
  [page4 0x008 s.time.tick.toNat, page1 0x00C s.settings.tickTap, page1 0x00D s.board.engine.code,
   page1 0x00E s.guard.state.code, page1 0x00F s.pressure, page2 0x010 s.guard.sense, page2 0x012 s.guard.hold,
   page1 0x014 s.pressure, page1 0x015 s.rebuildContextCount, page2 0x016 s.framesFree,
   page2 0x018 s.settings.memberTimeout, page2 0x01A s.settings.sweepInterval, page2 0x01C s.settings.pacingPeriod,
   page2 0x01E s.settings.senseTicks, page2 0x020 s.settings.minimumHold, page1 0x022 s.settings.stallLimit,
   page1 0x023 s.settings.guardThreshold, page2 0x024 s.losses.entries.length, page1 0x026 s.board.resetKind.code,
   page1 0x027 (flagCode s.board.clean), page4 0x028 s.losses.coarsenings.toNat, page4 0x02C s.losses.kept.toNat,
   page1 0x030 s.board.abandoned, page1 0x031 s.rows.unsettled.length, page1 0x032 s.board.taken.length,
   page1 0x033 s.board.roundPointer.val] ++
    (bankIndices 16).flatMap s.memberEntry ++ (bankIndices 16).flatMap s.extentEntry ++
    (bankIndices 4).flatMap s.jobEntry ++ unsettledPage 0x740 s.rows.unsettled

/-- The byte of a page at an offset; bytes not listed are zero. -/
def pageByte (fields : List PageField) (offset : Nat) : Byte :=
  match fields.find? fun f => decide (f.offset ≤ offset) && decide (offset < f.offset + f.width) with
  | some f => ((bytesOf f.width f.value)[offset - f.offset]?).getD 0
  | none => 0

/-! ## What the engine writes on the board (R151, R152) -/

/-- The byte address of the status page. Addresses past 2^64 - 1, of a board whose base is less than 20 KiB below it, do not
wrap (log 66). -/
def Board.pageAddress (b : Board) : Nat := b.base.toNat

/-- The byte address of slip `i` (log 66). -/
def Board.slipAddress (b : Board) (i : SlipId) : Nat := b.base.toNat + 0x1000 + i.val * 0x100

/-- What a record of things written holds at an address. -/
def writtenAt {α : Type} (address : Nat) (l : List (Nat × α)) : Option α :=
  (l.find? fun x => x.1 == address).map Prod.snd

/-- A thing written at an address, over what stood there; addresses rise. -/
def putWritten {α : Type} (address : Nat) (a : α) : List (Nat × α) → List (Nat × α)
  | [] => [(address, a)]
  | x :: rest =>
    if address < x.1 then (address, a) :: x :: rest
    else if x.1 = address then (address, a) :: rest
    else x :: putWritten address a rest

/-- What the engine has written to slip `i` of the board at the base in force; nothing, where it has written none. -/
def Board.slipImage (b : Board) (i : SlipId) : SlipImage :=
  (writtenAt (b.slipAddress i) b.slipsWritten).getD SlipImage.blank

/-- What the engine has written to the status page at the base in force. -/
def Board.pageImage (b : Board) : Option (List PageField) := writtenAt b.pageAddress b.pagesWritten

/-- What the engine has written to a slip changed (log 22). -/
def Board.writeSlip (b : Board) (i : SlipId) (f : SlipImage → SlipImage) : Board :=
  { b with slipsWritten := putWritten (b.slipAddress i) (f (b.slipImage i)) b.slipsWritten }

/-- The status page written (log 22). -/
def Board.writePage (b : Board) (page : List PageField) : Board :=
  { b with pagesWritten := putWritten b.pageAddress page b.pagesWritten }

/-- The header fields that the engine writes (R152): holder, status, reason, answer stamp and tag. -/
def SlipImage.header (x : SlipImage) : List PageField :=
  [page1 0x00 x.holder.toNat, page1 0x02 x.status.toNat, page1 0x03 x.reason.toNat, page4 0x04 x.stamp.toNat,
   page8 0x08 x.tag.toNat]

/-- The bytes of a slip that are the engine's (R152): the header fields it writes, and the answer body at 90h to FFh. The
kind at 01h, the bytes 10h to 1Fh and the request body at 20h to 8Fh are the host's. -/
def engineByte (offset : Nat) : Bool :=
  decide (offset < 0x10 ∧ offset ≠ 1) || decide (0x90 ≤ offset ∧ offset ≤ 0xFF)

/-- The byte at an offset of a slip, where it is one that the engine writes (R152). -/
def SlipImage.byteAt (x : SlipImage) (offset : Nat) : Option Byte :=
  if engineByte offset then
    some (if 0x90 ≤ offset then x.body.getD (offset - 0x90) 0 else pageByte x.header offset)
  else none

/-- The slip whose engine-written bytes are these. -/
def SlipImage.ofBytes (byte : Nat → Byte) : SlipImage :=
  { holder := byte 0, status := byte 2, reason := byte 3,
    stamp := BitVec.ofNat 32 (valueOf ((List.range 4).map fun i => byte (0x04 + i))),
    tag := BitVec.ofNat 64 (valueOf ((List.range 8).map fun i => byte (0x08 + i))),
    body := (List.range answerBodyBytes).map fun i => byte (0x90 + i) }

/-- A slip into which the bytes `written` of an answer have gone, its ANSWERED apart (R162, R166, R167). -/
def SlipImage.partly (written : List Nat) (old new : SlipImage) : SlipImage :=
  SlipImage.ofBytes fun o =>
    if written.contains o && o != 0 then (new.byteAt o).getD 0 else (old.byteAt o).getD 0

/-- A page into which the bytes `written` of another have gone, its generation apart (R162, R163). -/
def pagePartly (written : List Nat) (old new : List PageField) : List PageField :=
  ((written.filter (0x008 ≤ ·)).map fun o => page1 o (pageByte new o).toNat) ++ old

/-- The slip as the answer leaves it (R152, R158). -/
def answerImage (a : Answer) (tag : BitVec 64) (w : AnswerWriting) : SlipImage :=
  { holder := holderAnswered, status := BitVec.ofNat 8 a.status.code, reason := BitVec.ofNat 8 a.reason.code,
    stamp := w.stamp, tag := tag, body := answerBody w.body }

/-! ## Publishing (R159) -/

/-- A publish begins with its snapshot: each job's F is copied into its published frontier, and every field of R155 is
taken. -/
def State.beginPublish (s : State) : State :=
  let s := { s with jobs := bankMap (fun j => { j with publishedFrontier := j.frontier }) s.jobs }
  s.withBoard fun b => { b with publishing := some s.pageFields }

/-- The causes taken in a step acted on (R159; log 4): a publish begins when the publish state is IDLE, and is owed when
it is PUBLISHING, or in STOPPED without the quiesced mark. In FAULTED causes are not acted on. -/
def State.actOnPublish (s : State) : State :=
  if s.board.publishAsked then
    let s := s.withBoard fun b => { b with publishAsked := false }
    if s.board.engine = .faulted then s
    else if s.board.engine = .stopped ∧ s.board.quiesced = false then s.withBoard fun b => { b with owed := true }
    else if s.board.publishing.isSome then s.withBoard fun b => { b with owed := true }
    else s.beginPublish
  else s

/-! ## Answers (R158) -/

/-- Answers are written in RUNNING, in QUIESCING, and in STOPPED with the quiesced mark. -/
def Board.writesAnswers (b : Board) : Bool :=
  b.engine == .running || b.engine == .quiescing || (b.engine == .stopped && b.quiesced)

/-- The body of an answer as it is written now: that of a JOBCTL gives its job as it stands (R101; log 15), and where a new
REBUILD has taken the record meanwhile, the new job (log 64). -/
def State.answerFields (s : State) (a : Answer) : List BodyField :=
  match a.control with
  | none => a.body
  | some c => ((s.job c.job).asDrained c.drained).controlBody c.job

/-- The writing of the head answer, if there is one: its stamp is the tick counter when the writing begins (R158). -/
def State.nextWriting (s : State) : Option AnswerWriting :=
  s.board.answers.head?.map fun a => { stamp := s.stamp, body := s.answerFields a }

/-- The writing of the head answer begins where answers are written and none is being written. -/
def State.beginAnswer (s : State) : State :=
  if s.board.writesAnswers && s.board.writing.isNone then s.withBoard fun b => { b with writing := s.nextWriting } else s

/-- What the board unit does at the end of every step: it acts on the publish causes, and begins an answer. -/
def State.settle (s : State) : State := s.actOnPublish.beginAnswer

/-- The outcome of a command that was due. -/
def State.done (s : State) : Host.Outcome State Fault Refusal := .next s.settle

/-! ## Sweeps (R156) -/

/-- The slip is in the set of TAKEN slips. -/
def Board.isTaken (b : Board) (i : SlipId) : Bool := b.taken.any fun t => t.slip == i

/-- The slip after another, around the board. -/
def nextSlip (i : SlipId) : SlipId := Fin.ofNat 64 (i.val + 1)

/-- The first of `left` slips from slip `i` on that is not TAKEN, with the visits left counting it. -/
def Board.nextVisit (b : Board) : Nat → SlipId → Option (SlipId × Nat)
  | 0, _ => none
  | left + 1, i => if b.isTaken i then b.nextVisit left (nextSlip i) else some (i, left + 1)

/-- A sweep set to its next visit from slip `i` on; none where no slip is left. -/
def Board.visit (b : Board) (left : Nat) (i : SlipId) : Option SweepRun :=
  (b.nextVisit left i).map fun x => { slip := x.1, left := x.2, access := .holderRead, stopping := false }

/-- A sweep begins at the slip after the round pointer. -/
def Board.beginSweep (b : Board) : Board := { b with sweep := b.visit Config.slips (nextSlip b.roundPointer) }

/-- A sweep ends; in RUNNING with the pending flag set a new one begins. -/
def Board.endSweep (b : Board) : Board :=
  if b.engine = .running ∧ b.sweepPending = true then
    Board.beginSweep { b with sweep := none, sweepPending := false }
  else { b with sweep := none }

/-- A sweep goes on to its next slip, or ends: after its 64th slip, and when the engine has left RUNNING. -/
def Board.advanceSweep (b : Board) (run : SweepRun) : Board :=
  if run.stopping then b.endSweep
  else match b.visit (run.left - 1) (nextSlip run.slip) with
    | some next => { b with sweep := some next }
    | none => b.endSweep

/-- A sweep request. -/
def Board.requestSweep (b : Board) : Board :=
  if b.engine = .running ∧ b.sweep = none then b.beginSweep else { b with sweepPending := true }

/-- The engine leaves RUNNING: a sweep in progress ends after its access in progress (R156; log 18). -/
def Board.stopSweep (b : Board) : Board :=
  { b with sweep := b.sweep.map fun run => { run with stopping := true } }

/-- A deferred wake when the admission count has fallen below 48 with the deferred mark set. -/
def Board.deferredWake (b : Board) : Board :=
  if b.deferred = true ∧ b.taken.length < Config.slipCap then Board.requestSweep { b with deferred := false } else b

/-- The sweep has an access in progress of one sort, at a slip. -/
def State.sweepAt (s : State) (access : SweepAccess) : Option SweepRun :=
  match s.board.sweep with
  | some run => if run.access = access then some run else none
  | none => none

/-- The read of a taken slip completes (R157): its tag is kept, the sweep goes on, and the slip is to be dispatched.
None where no slip read is in progress. -/
def State.takeSlip (s : State) (tag : BitVec 64) : Option (SlipId × State) :=
  match s.sweepAt .slipRead with
  | none => none
  | some run =>
    some (run.slip, s.withBoard fun b =>
      Board.advanceSweep { b with taken := b.taken.map fun t => if t.slip = run.slip then { t with tag := tag } else t }
        run)

/-- A dispatched READ, WRITE or RESYNC marked in the set of TAKEN slips until it is answered (R16 check 3). -/
def State.markForeground (s : State) (i : SlipId) (e : ExtentId) : State :=
  s.withBoard fun b =>
    { b with taken := b.taken.map fun t => if t.slip = i then { t with foreground := some e } else t }

/-- The tag read at the take of a slip. -/
def Board.tagOf (b : Board) (i : SlipId) : BitVec 64 :=
  match b.taken.find? fun t => t.slip == i with
  | some t => t.tag
  | none => 0

/-! ## Engine state (R161, R162) -/

/-- A quiesce may complete (R161). -/
def State.isQuiet (s : State) : Bool :=
  s.operations.isEmpty && s.rows.contextWait.isEmpty && s.requests.isEmpty && s.losses.transfers.isEmpty &&
    s.board.answers.isEmpty

/-- A board access is in progress (R162). -/
def State.accessInProgress (s : State) : BoardAccess → Bool
  | .holderRead => (s.sweepAt .holderRead).isSome
  | .takenWrite => (s.sweepAt .takenWrite).isSome
  | .slipRead => (s.sweepAt .slipRead).isSome
  | .answerWrite => s.board.writing.isSome
  | .pageWrite => s.board.publishing.isSome

/-! ## Writes cut short (R162, R163, R166; log 60) -/

/-- The TAKEN write in progress has reached the board, or has not. -/
def Board.cutTaken (reached : Bool) (b : Board) : Board :=
  match b.sweep with
  | some run =>
    if run.access = .takenWrite ∧ reached = true then b.writeSlip run.slip fun x => { x with holder := holderTaken }
    else b
  | none => b

/-- The bytes of a slip that an answer cut short has written, `reached` being those that had reached the board: the body
is written before the status, reason, answer stamp and tag (R158). -/
def answerPart (reached : List Nat) : List Nat :=
  if (List.range answerBodyBytes).all fun i => reached.contains (0x90 + i) then reached
  else reached.filter (0x90 ≤ ·)

/-- The answer in progress has reached the board: whole, with its ANSWERED write, or in part. -/
def Board.cutAnswer (whole : Bool) (reached : List Nat) (b : Board) : Board :=
  match b.writing, b.answers with
  | some w, a :: _ =>
    let new := answerImage a (b.tagOf a.slip) w
    if whole then b.writeSlip a.slip fun _ => new
    else if answerPart reached = [] then b
    else b.writeSlip a.slip fun x => x.partly (answerPart reached) new
  | _, _ => b

/-- Part of the page in progress has reached the board. -/
def Board.cutPage (reached : List Nat) (b : Board) : Board :=
  match b.publishing with
  | some fields =>
    if reached = [] then b else b.writePage (pagePartly reached (b.pageImage.getD []) fields)
  | none => b

/-- The writes in progress are cut short by an engine reset, or by a board fault, at which no ANSWERED write reaches the
board (R162): what had reached the board stands there. -/
def Board.cutShort (fault : Bool) (b : Board) : Board :=
  { ((b.cutTaken (Config.takenReached b.cuts)).cutAnswer (!fault && Config.answeredReached b.cuts)
      (Config.answerReached b.cuts)).cutPage (Config.pageReached b.cuts) with cuts := b.cuts + 1 }

end Sys2Proof.Machine
end

