-- ==== Sys2Proof/Machine/Endings.lean ====
section
/-! DEFINITION. Machine/Endings.lean: how the ending of a READ or WRITE reaches the operation that submitted it (R20, R25,
R26, R65, R70). -/

namespace Sys2Proof.Machine

/-- The blocks of a reply put into a frame, the first at block offset `offset`; the offsets in `skip` carry nothing. -/
def fillFrame (offset : Nat) (skip : List Nat) : List Block → Vector Block 16 → Vector Block 16
  | [], v => v
  | b :: rest, v =>
    let v := if h : offset < 16 then (if skip.contains offset then v else v.set offset b h) else v
    fillFrame (offset + 1) skip rest v

/-- The frame of a position changed by `f`. -/
def Operation.withFrame (op : Operation) (position : Nat) (f : Vector Block 16 → Vector Block 16) : Operation :=
  { op with frames := op.frames.map fun x => if x.position = position then { x with blocks := f x.blocks } else x }

/-- The offsets of a row that an ending reports unreadable. -/
def Ending.unreadable? : Ending → List Nat
  | .unreadable offsets => offsets
  | .good | .notReady | .writeFault | .lapsed | .linkLost | .withdrawn => []

/-- The read ended GOOD or UNREADABLE; any other ending erases the position at every offset (R45, R65). -/
def Ending.answered : Ending → Bool
  | .good => true
  | .unreadable _ => true
  | .notReady | .writeFault | .lapsed | .linkLost | .withdrawn => false

/-- The ending of a READ at port `p` recorded by its owner, with the contents placed in the frame (R20, R65). R20 has a
reply carry every block of its request; where one brings fewer the rest of the run is left as it was, and blocks past
the run are dropped (log 50). -/
def Operation.takeRead (p : PortId) (r : Request) (ending : Ending) (contents : List Block) (op : Operation) :
    Operation :=
  let op := op.withFrame r.position (fillFrame r.offset ending.unreadable? (contents.take r.count))
  { op with results := op.results ++
      [{ position := r.position, port := p, first := r.offset, count := r.count, ending := ending }] }

/-- The runs still to be written to a port are not submitted (R70). -/
def Operation.dropRuns (p : PortId) (op : Operation) : Operation :=
  { op with writesLeft := op.writesLeft.filter fun w => w.port != p }

/-- A request of port `p` that ended otherwise than by a reply with contents reaches its owner with its ending (R25, R29,
R30). -/
def State.deliverFailure (s : State) (p : PortId) (r : Request) (ending : Ending) : State :=
  match r.owner with
  | none => s
  | some c =>
    match r.kind with
    | .read => s.withOperation c (Operation.takeRead p r ending [])
    | .write => s.withOperation c (Operation.dropRuns p)
    | .probe => s

/-- The requests that a context has pending on port `p` are withdrawn: they leave the list and end WITHDRAWN (R26). -/
def State.withdrawAt (s : State) (c : ContextId) (p : PortId) : State :=
  let gone := (s.port p).waiting.filter fun r => r.owner == some c
  let s := s.withPort p fun x => { x with waiting := x.waiting.filter fun r => r.owner != some c }
  gone.foldl (fun s r => s.deliverFailure p r .withdrawn) s

/-- Every request that a context has pending on some port is withdrawn (R26, R63). -/
def State.withdraw (s : State) (c : ContextId) : State := (bankIndices 16).foldl (fun s p => s.withdrawAt c p) s

end Sys2Proof.Machine
end

