-- ==== Sys2Proof/Machine/Foreground.lean ====
section
/-! DEFINITION. Machine/Foreground.lean: a request record's account of its rows, and its answer (R116 to R123). -/

namespace Sys2Proof.Machine

/-- The ranking of row statuses, best first (R121). -/
def Status.rank : Status → Nat
  | .good => 0
  | .recovered => 1
  | .lossKept => 2
  | .lostData => 3
  | .failed => 4
  | .none => 0
  | .adjusted => 0
  | .refused => 4

/-- The worse of two statuses (R121). -/
def Status.worse (a b : Status) : Status := if a.rank < b.rank then b else a

/-- The row status of an outcome (R121). -/
def rowStatus (kept : Bool) : RowOutcome → Status
  | .done => if kept then .lossKept else .good
  | .recovered => if kept then .lossKept else .recovered
  | .doneWithLoss => .lostData
  | .extentLost => .failed
  | .bufferFault => .failed
  | .targetLost => .failed
  | .skipped => .good

/-- Completed means DONE, RECOVERED or DONE_WITH_LOSS (R120). -/
def RowOutcome.completed : RowOutcome → Bool
  | .done => true
  | .recovered => true
  | .doneWithLoss => true
  | .extentLost => false
  | .targetLost => false
  | .bufferFault => false
  | .skipped => false

/-- The lower of two blocks or rows that may be absent. -/
def lowerOf : Option Nat → Option Nat → Option Nat
  | none, b => b
  | a, none => a
  | some a, some b => some (min a b)

/-- A row's tallies entered into a READ's or WRITE's (R120). -/
def RequestTallies.addRow (isWrite : Bool) (outcome : RowOutcome) (kept : Bool) (t : RowTallies)
    (r : RequestTallies) : RequestTallies :=
  let r := { r with
    sideLosses := r.sideLosses + t.sideLosses
    firstLost := if outcome.completed || isWrite then lowerOf r.firstLost t.firstLost else r.firstLost }
  if outcome.completed then
    { r with
      served := r.served + t.served
      reconstructed := r.reconstructed + t.reconstructed
      lost := r.lost + t.lost
      kept := r.kept || kept
      completed := r.completed + 1 }
  else r

/-- A RESYNC_ROW's ending entered into its request's tallies (R120). -/
def RequestTallies.addResync (outcome : RowOutcome) (row : Nat) (settled : Bool) (r : RequestTallies) : RequestTallies :=
  match outcome with
  | .done => { r with done := r.done + 1, settled := r.settled + flagCode settled }
  | .skipped => { r with skipped := r.skipped + 1, firstSkipped := lowerOf r.firstSkipped (some row) }
  | .recovered | .doneWithLoss | .extentLost | .targetLost | .bufferFault => r

/-- The stop cause that an outcome sets (R119 step 3). -/
def RowOutcome.stopCause : RowOutcome → Option StopCause
  | .extentLost => some .extentLost
  | .bufferFault => some .bufferFault
  | .done | .recovered | .doneWithLoss | .targetLost | .skipped => none

/-- Row pieces are started in RUNNING and QUIESCING (R118, R161). -/
def EngineState.startsPieces (e : EngineState) : Bool := e == .running || e == .quiescing

/-- The test of R118: with no stop cause, and in an engine state that starts pieces, the request may start pieces until
four of its rows are in flight or none is left. What an earlier test has let start stands (R127; log 23). -/
def ForegroundRequest.testPieces (engine : EngineState) (r : ForegroundRequest) : ForegroundRequest :=
  if r.stop.isNone && engine.startsPieces then
    { r with granted := min (Config.requestRows - r.inFlight.length) (r.pieces.length - r.nextPiece) }
  else r

/-- A request takes the end of one of its rows (R119 steps 1 to 3). -/
def ForegroundRequest.takeRow (row : Nat) (outcome : RowOutcome) (t : RowTallies) (kept settled : Bool)
    (r : ForegroundRequest) : ForegroundRequest :=
  { r with
    inFlight := r.inFlight.filter (· != row)
    tallies :=
      match r.kind with
      | .read => r.tallies.addRow false outcome false t
      | .write => r.tallies.addRow true outcome kept t
      | .resync => r.tallies.addResync outcome row settled
    worst := r.worst.worse (rowStatus kept outcome)
    stop := r.stop.or outcome.stopCause }

/-- Foreground service takes the end of a row of the request of slip `i`, and tests its start condition (R119 steps 1 to
4). -/
def State.requestTakesRow (s : State) (i : SlipId) (row : Nat) (outcome : RowOutcome) (t : RowTallies)
    (kept settled : Bool) : State :=
  s.withRequests fun rs =>
    rs.map fun r =>
      if r.slip = i then (r.takeRow row outcome t kept settled).testPieces s.board.engine else r

/-- The request record of a slip. -/
def State.requestOf (s : State) (i : SlipId) : Option ForegroundRequest := s.requests.find? fun r => r.slip == i

/-- The piece at next piece is to be started (R118): a test has let it start, the terms on the request's rows, stop cause
and pieces hold, and the engine is not STOPPED (R161). A piece that a test let start is started although the engine has
become FAULTED since (R127). -/
def State.canStartPiece (s : State) (r : ForegroundRequest) : Bool :=
  decide (0 < r.granted) && decide (r.inFlight.length < Config.requestRows) && r.stop.isNone &&
    s.board.engine != .stopped && decide (r.nextPiece < r.pieces.length)

/-- A request is finished (R119 step 5); in FAULTED also with pieces that no test let start (R118, R127; log 24). -/
def State.isFinished (s : State) (r : ForegroundRequest) : Bool :=
  r.inFlight.isEmpty &&
    (decide (r.pieces.length ≤ r.nextPiece) || r.stop.isSome || (s.board.engine == .faulted && r.granted == 0))

/-- The reason that a stop cause gives (R122). -/
def StopCause.reason : StopCause → Reason
  | .extentLost => .extentLost
  | .bufferFault => .bufferFault

/-- Status and reason of a request's answer (R122, R123). -/
def ForegroundRequest.status (r : ForegroundRequest) : Status × Reason :=
  match r.stop with
  | some c => (.failed, c.reason)
  | none => (r.worst, .none)

/-- Row pieces not started. -/
def ForegroundRequest.notStarted (r : ForegroundRequest) : Nat := r.pieces.length - r.nextPiece

/-- The answer body of a request (R122, R123). -/
def ForegroundRequest.body (r : ForegroundRequest) : List BodyField :=
  let t := r.tallies
  match r.kind with
  | .resync =>
    [field1 r.extent.val, field8 r.firstRow, field8 r.rowCount, field8 t.done, field8 t.skipped,
     fieldOption 8 t.firstSkipped, field8 t.settled, field8 r.notStarted]
  | .read =>
    [field1 r.extent.val, field8 r.firstBlock, field8 r.blockCount, field8 t.served, field8 t.reconstructed,
     field8 t.lost, fieldOption 8 t.firstLost, field8 t.sideLosses, field8 t.completed, field8 r.notStarted]
  | .write =>
    [field1 r.extent.val, field8 r.firstBlock, field8 r.blockCount, field8 t.served, field8 t.reconstructed,
     field8 t.lost, fieldOption 8 t.firstLost, field8 t.sideLosses, field1 (flagCode t.kept), field8 t.completed,
     field8 r.notStarted]

end Sys2Proof.Machine
end

