-- ==== Sys2Proof/Machine/Holds.lean ====
section
/-! DEFINITION. Machine/Holds.lean: the hold table (R109 to R113). -/

namespace Sys2Proof.Machine

/-- The mode an operation wants (R109). -/
def RowKind.wantedHold (k : RowKind) : HoldMode := if k = .readRow then .shared else .sole

/-- An entry's modes, holders and waiters after waiters are granted from the head for as long as the head is
compatible with the holders left (R111 step 2), with the contexts granted, in order. -/
def grantHeads : HoldMode → List ContextId → List (ContextId × HoldMode) →
    HoldMode × List ContextId × List (ContextId × HoldMode) × List ContextId
  | mode, holders, [] => (mode, holders, [], [])
  | mode, holders, (c, want) :: rest =>
    if holders = [] then
      let r := grantHeads want [c] rest
      (r.1, r.2.1, r.2.2.1, c :: r.2.2.2)
    else if mode = .shared ∧ want = .shared then
      let r := grantHeads mode (holders ++ [c]) rest
      (r.1, r.2.1, r.2.2.1, c :: r.2.2.2)
    else (mode, holders, (c, want) :: rest, [])

/-- An entry after its waiters are granted, with the contexts granted. -/
def HoldEntry.grant (h : HoldEntry) : HoldEntry × List ContextId :=
  let r := grantHeads h.mode h.holders h.waiters
  ({ h with mode := r.1, holders := r.2.1, waiters := r.2.2.1 }, r.2.2.2)

/-- The entry is for a row. -/
def HoldEntry.isFor (h : HoldEntry) (e : ExtentId) (row : Nat) : Bool := h.extent == e && h.row == row

/-- A request for a hold (R110): granted on a free entry, or on an entry without waiters that it is compatible with;
otherwise it joins the tail of the waiter list. -/
def HoldTable.request (t : HoldTable) (e : ExtentId) (row : Nat) (c : ContextId) (want : HoldMode) : HoldTable :=
  match t.entries.find? (·.isFor e row) with
  | none =>
    { entries := t.entries ++ [{ extent := e, row := row, mode := want, holders := [c], waiters := [] }],
      granted := t.granted ++ [c] }
  | some h =>
    if h.waiters = [] ∧ h.mode = .shared ∧ want = .shared then
      { entries := t.entries.map fun x => if x.isFor e row then { x with holders := x.holders ++ [c] } else x,
        granted := t.granted ++ [c] }
    else
      { t with entries := t.entries.map fun x =>
          if x.isFor e row then { x with waiters := x.waiters ++ [(c, want)] } else x }

/-- An entry after context `c` has released its hold, or left the waiter list (R111, R112); a waiter that was not the
head leaves the others waiting. -/
def HoldEntry.leave (h : HoldEntry) (c : ContextId) : HoldEntry × List ContextId :=
  if h.holders.contains c then HoldEntry.grant { h with holders := h.holders.filter (· != c) }
  else if (h.waiters.head?.map Prod.fst) = some c then HoldEntry.grant { h with waiters := h.waiters.tail }
  else ({ h with waiters := h.waiters.filter fun w => w.1 != c }, [])

/-- Context `c` leaves the hold table: it releases its hold, or leaves the waiter list. An entry left with no holder and
no waiter leaves use, and the contexts granted join the list of those whose plan is to be made (R111, R112). -/
def HoldTable.leave (t : HoldTable) (c : ContextId) : HoldTable :=
  { entries := (t.entries.map fun h => (h.leave c).1).filter fun h => !(h.holders.isEmpty && h.waiters.isEmpty),
    granted := (t.granted.filter (· != c)) ++ (t.entries.map fun h => (h.leave c).2).flatten }

end Sys2Proof.Machine
end

