-- ==== Sys2Proof/Machine/RowEnd.lean ====
section
/-! DEFINITION. Machine/RowEnd.lean: the end of a row operation, in any phase and with any outcome (R71), and the
boundary tests (R63). -/

namespace Sys2Proof.Machine

/-- A row's ending handed to its owner (R71, R92, R93, R119). `copied` says that the plan was a copy plan; `kept` and
`settled` are a WRITE_ROW's kept mark and whether R83 removed a RESYNC_ROW's row. -/
def State.handOver (s : State) (owner : RowOwner) (row : Nat) (outcome : RowOutcome) (copied : Bool) (t : RowTallies)
    (kept settled : Bool) : State :=
  match owner with
  | .job j => s.jobTakesRow j row outcome copied t
  | .slip i _ => s.requestTakesRow i row outcome t kept settled

/-- Context `c` taken off every list it is on, its hold released, and the context freed with its frames (R71, R111,
R112). -/
def State.freeContext (s : State) (c : ContextId) : State :=
  ((s.withRows fun r =>
      { r with contexts := bankModify r.contexts c fun _ => none, frameWait := r.frameWait.filter (· != c) }).withSolver
    fun v => { busy := if v.busy = some c then none else v.busy, queue := v.queue.filter (· != c) }).withHolds
    fun t => t.leave c

/-- The operation of context `c` ends with an outcome (R71): the drain count, the owner, then frames, hold and
context. -/
def State.endOperationWith (s : State) (c : ContextId) (outcome : RowOutcome) (kept settled : Bool) : State :=
  match s.context c with
  | none => s
  | some op =>
    (((s.drainCounted op.countedBy op.extent).handOver op.owner op.row outcome op.plan.copy op.tallies kept
      settled)).freeContext c

def State.endOperation (s : State) (c : ContextId) (outcome : RowOutcome) : State :=
  s.endOperationWith c outcome false false

/-- A request of the context wait list ends there (R63). -/
def State.endWaiting (s : State) (r : RowRequest) (outcome : RowOutcome) : State :=
  ((s.drainCounted r.countedBy r.extent).handOver r.owner r.row outcome false RowTallies.zero false false).withRows
    fun x => { x with contextWait := x.contextWait.filter (· != r) }

/-- The phases in which an operation that holds a context has nothing running (R63). -/
def Phase.idle : Phase → Bool
  | .holdWait => true
  | .frameWait => true
  | .awaitMember => true
  | .gather => false
  | .supplement => false
  | .solveWait => false
  | .solving => false
  | .place => false

/-- The phases in which an operation goes on until what it has running has ended, and then ends at its boundary if its
extent became LOST meanwhile: GATHER, SUPPLEMENT and PLACE by R63, SOLVING by R56. In SOLVE_WAIT the test is made at the
head of the queue alone (R54). -/
def Phase.running : Phase → Bool
  | .gather => true
  | .supplement => true
  | .solving => true
  | .place => true
  | .holdWait => false
  | .frameWait => false
  | .awaitMember => false
  | .solveWait => false

/-- Every operation, in a context or waiting for one, that `which` picks and that has nothing running ends at once with
an outcome (R63). That those waiting for a context end first and the others in ascending context number, and so the order
in which their holds let waiters in (R111), is the model's choice (log 73). -/
def State.endIdle (s : State) (which : RowOwner → ExtentId → Bool) (outcome : RowOutcome) : State :=
  let s := (s.rows.contextWait.filter fun r => which r.owner r.extent).foldl (fun s r => s.endWaiting r outcome) s
  (s.operations.filter fun x => x.2.phase.idle && which x.2.owner x.2.extent).foldl
    (fun s x => s.endOperation x.1 outcome) s

/-- What an extent's becoming LOST does to its row operations (R63, R112): the idle ones end EXTENT_LOST; those that run
withdraw what is pending and submit nothing more, and remember the loss, which ends them at their boundary (R10, R56;
log 26). -/
def State.loseRows (s : State) (e : ExtentId) : State :=
  let s := s.endIdle (fun _ x => x == e) .extentLost
  (s.operations.filter fun x => x.2.phase.running && x.2.extent == e).foldl
    (fun s x => (s.withdraw x.1).withOperation x.1 fun op => { op with lostSeen := true, writesLeft := [] }) s

/-- A job that drains after the loss of its last target: its rows that have nothing running end TARGET_LOST (R63). -/
def State.endTargetless (s : State) (j : JobId) : State :=
  if s.drainsWithoutTarget j then s.endIdle (fun o _ => o == .job j) .targetLost else s

/-- The boundary tests (R63) for an operation. -/
def State.boundary (s : State) (op : Operation) : Option RowOutcome :=
  if (s.extent op.extent).condition = .lost ∨ op.lostSeen = true then some .extentLost
  else
    match op.owner with
    | .job j => if s.drainsWithoutTarget j then some .targetLost else none
    | .slip _ _ => none

end Sys2Proof.Machine
end

