-- ==== Sys2Proof/Machine/Members.lean ====
section
/-! DEFINITION. Machine/Members.lean: the member ports' shared operations: submission, endings, the issue arbiter, stalls
and probes, changes of member state and what they set off (R10, R22, R23, R26 to R36, R97 to R99). -/

namespace Sys2Proof.Machine

/-! ## Submission and issue -/

/-- A request submitted to a port (R22, R26): it joins the pending list of an ONLINE or TARGET port, and elsewhere ends
at once in link loss. -/
def State.submit (s : State) (p : PortId) (r : Request) : State :=
  if (s.port p).memberState = .online ∨ (s.port p).memberState = .target then
    s.withPort p fun x => { x with waiting := x.waiting ++ [r] }
  else s.deliverFailure p r .linkLost

/-- The lowest-numbered free slot (R27). -/
def Port.freeSlot (p : Port) : Option Tag := (bankIndices 8).find? fun i => p.slots[i.val].isNone

/-- The number of outstanding requests of a class. -/
def Port.outstandingOf (p : Port) (cls : RequestClass) : Nat :=
  (p.slots.toArray.toList.filter fun x => match x with
    | some o => o.request.cls == cls
    | none => false).length

/-- The request that the arbiter would issue next (R27 steps 1 to 4). -/
def Port.nextToIssue (p : Port) : Option Request :=
  if p.stalled then none
  else match p.waiting.find? fun r => r.cls == .foreground with
    | some r => some r
    | none =>
      if p.outstandingOf .rebuild < Config.rebuildSlots then p.waiting.find? fun r => r.cls == .rebuild else none

/-- What a WRITE carries: the blocks of its run from the frame it names (R19). -/
def State.contentsOf (s : State) (r : Request) : List Block :=
  match r.kind, r.owner with
  | .write, some c =>
    match s.context c with
    | none => []
    | some op =>
      match op.frames.find? fun x => x.position == r.position with
      | none => []
      | some f => ((List.range r.count).map fun i => (f.blocks.toArray.toList[r.offset + i]?).getD Block.void)
  | _, _ => []

/-- A request placed in a slot: stamped with the issue number, its ticks left loaded from the member timeout (R27,
R28). -/
def Port.place (slot : Tag) (timeout : Nat) (r : Request) (contents : List Block) (p : Port) : Port :=
  { p with
    slots := p.slots.set slot.val
      (some { request := r, issue := p.issueNumber, ticksLeft := timeout, contents := contents }) slot.isLt
    issueNumber := p.issueNumber + 1 }

/-- One issue by the arbiter of a port (R27); none where it issues nothing. -/
def State.issueOne (s : State) (p : PortId) : Option State :=
  match (s.port p).freeSlot, (s.port p).nextToIssue with
  | some slot, some r =>
    some (s.withPort p fun x =>
      ({ x with waiting := x.waiting.erase r }).place slot s.settings.memberTimeout r (s.contentsOf r))
  | _, _ => none

/-- The arbiter repeats until no slot is free or nothing may be issued, at most `fuel` times (R27). -/
def State.runArbiter : Nat → State → PortId → State
  | 0, s, _ => s
  | fuel + 1, s, p =>
    match s.issueOne p with
    | some s' => State.runArbiter fuel s' p
    | none => s

/-! ## The owner's next run -/

/-- The WRITE of one run of an operation to a port (R70). -/
def State.writeRequest (s : State) (c : ContextId) (op : Operation) (w : WriteRun) : Request :=
  { kind := .write, cls := op.kind.requestClass, owner := some c, position := w.position, offset := w.first,
    memberBlock := (s.extent op.extent).memberBlock op.row w.first, count := w.count, repair := w.repair }

/-- A WRITE that ended GOOD reaches its owner: repaired blocks are counted, and the next run for the port is submitted,
unless the operation submits nothing more (R63, R70, R74). -/
def State.deliverWritten (s : State) (p : PortId) (r : Request) : State :=
  match r.owner with
  | none => s
  | some c =>
    let s := s.withOperation c fun op =>
      if r.repair then { op with tallies := { op.tallies with repairs := op.tallies.repairs + r.count } } else op
    match s.context c with
    | none => s
    | some op =>
      match op.writesLeft.find? fun w => w.port == p with
      | none => s
      | some w =>
        match w.runs with
        | [] => s.withOperation c (Operation.dropRuns p)
        | run :: rest =>
          let s := s.withOperation c fun op => { op with writesLeft := op.writesLeft.map fun x =>
            if x.port = p then { x with runs := rest } else x }
          s.submit p (s.writeRequest c op run)

/-! ## Changes of member state and what they set off -/

/-- Operations that wait for a port wake (R68). -/
def State.wake (s : State) (p : PortId) : State :=
  s.withRows fun r =>
    { r with contexts := bankMap (fun op => op.map fun x =>
        if x.phase = .awaitMember ∧ x.waitSet.contains p then { x with woken := true } else x) r.contexts }

/-- The job unit acts on a new condition of its extent (R98). -/
def State.jobSeesCondition (s : State) (e : ExtentId) (c : Condition) : State :=
  match s.jobOn e with
  | none => s
  | some j =>
    let s := s.withJob j fun x => { x with exposed := c == .exposed }
    if c = .lost then s.drainJob j .extentLost else s

/-- The map recomputes an extent's condition and reports a change (R10). -/
def State.recompute (s : State) (e : ExtentId) : State :=
  if (s.extent e).inUse then
    let new := s.conditionOf e
    if new = (s.extent e).condition then s
    else
      let s := (s.withExtent e fun x => { x with condition := new }).askPublish
      let s := s.jobSeesCondition e new
      if new = .lost then s.loseRows e else s
  else s

/-- Job `j` acts on the failure of its target `p` (R99): a dual job whose other target is still TARGET drops the failed
one; otherwise the job has lost its last target and drains. -/
def State.loseTarget (p : PortId) (s : State) (j : JobId) : State :=
  if (s.job j).sources.any fun x => x.target != p && (s.port x.target).memberState == .target then
    (s.withJob j fun x => { x with sources := x.sources.filter fun y => y.target != p }).askPublish
  else ((s.drainJob j .targetLost).withJob j fun x => { x with targetless := true }).endTargetless j

/-- The failure of a port reaches the job that has it as a target (R35, R99). A job whose last row has ended completes with
the target in place (R108), and one that lost its last target before has no other to lose (log 71), so that the failure
reaches a later job onto the same port. -/
def State.targetLost (s : State) (p : PortId) : State :=
  ((bankIndices 4).filter fun j =>
      (s.job j).isOn && !(s.job j).completes && (s.job j).ownTargets.contains p).foldl (State.loseTarget p) s

/-- A COPY job whose outgoing member has failed turns to RECONSTRUCT for good (R97), unless its last row has ended (R108). -/
def State.copyToReconstruct (s : State) (p : PortId) : State :=
  match (bankIndices 4).find? fun j =>
      (s.job j).isOn && !(s.job j).completes && (s.job j).mode == .copy && (s.job j).outgoing == some p with
  | none => s
  | some j => (s.withJob j fun x => { x with mode := .reconstruct, outgoing := none }).askPublish

/-- A change of member state reported (R22). R22 names the layout map first and fixes no order in which the blocks act;
here the board unit acts first, then the row engine, the job unit and the layout map, so that a PAUSING COPY job whose
outgoing member's failure makes its extent LOST is answered with mode RECONSTRUCT (log 49). -/
def State.reportMember (s : State) (p : PortId) : State :=
  let s := s.askPublish.wake p
  let s := if (s.port p).memberState = .failed then (s.copyToReconstruct p).targetLost p else s
  match s.extentOfPort p with
  | some e => s.recompute e
  | none => s

/-- The stall cleared of a port's record (R23). -/
def Port.clearFlags (p : Port) : Port := { p with stalled := false, lapseCount := 0 }

/-- Every request of a port, the outstanding ones in slot order and then the pending ones. -/
def Port.allRequests (p : Port) : List Request :=
  (p.slots.toArray.toList.filterMap fun x => x.map Outstanding.request) ++ p.waiting

/-- Every request outstanding or pending on a port ends in link loss (R35, R36). -/
def State.loseRequests (s : State) (p : PortId) : State :=
  let lost := (s.port p).allRequests
  let s := s.withPort p fun x => { x with slots := Vector.replicate 8 none, waiting := [] }
  lost.foldl (fun s r => s.deliverFailure p r .linkLost) s

/-- A member becomes FAILED (R35). -/
def State.failMember (s : State) (p : PortId) : State :=
  let s := s.withPort p fun x => { x.clearFlags with memberState := .failed }
  (s.loseRequests p).reportMember p

/-- A member state that carries a stalled flag and a lapse count (R23). -/
def MemberState.carries (m : MemberState) : Bool := m == .online || m == .target

/-- A change of member state to one other than FAILED (R22, R23): a state that carries no flag clears it, and a change
from ONLINE or TARGET to SPARE or RELEASED ends the pending requests in link loss. -/
def State.changeMember (s : State) (p : PortId) (new : MemberState) : State :=
  let old := (s.port p).memberState
  let s := s.withPort p fun x =>
    if new.carries then { x with memberState := new } else { x.clearFlags with memberState := new }
  let s :=
    if old.carries && (new == .spare || new == .released) then
      let lost := (s.port p).waiting
      lost.foldl (fun s r => s.deliverFailure p r .linkLost) (s.withPort p fun x => { x with waiting := [] })
    else s
  s.reportMember p

/-! ## Stall and probe -/

/-- A probe is outstanding on the port (R31 step 4). -/
def Port.hasProbe (p : Port) : Bool :=
  p.slots.toArray.toList.any fun x => match x with
    | some o => o.request.kind == .probe
    | none => false

/-- The probe of one block (R32). -/
def probeRequest (memberBlock : Nat) : Request :=
  { kind := .probe, cls := .probe, owner := none, position := 0, offset := 0, memberBlock := memberBlock, count := 1,
    repair := false }

/-- A probe issued into a slot just freed, of the block of the request that began the stall (R32). -/
def State.issueProbe (s : State) (p : PortId) (slot : Tag) : State :=
  s.withPort p fun x =>
    { (x.place slot s.settings.memberTimeout (probeRequest x.stallBlock) []) with probes := x.probes + 1 }

/-- A READ or PROBE that ended LAPSED or NOT_READY on an ONLINE or TARGET member (R31). -/
def State.stallEvidence (s : State) (p : PortId) (slot : Tag) (memberBlock : Nat) : State :=
  let count := (s.port p).lapseCount + 1
  if s.settings.stallLimit ≤ count then (s.withPort p fun x => { x with lapseCount := count }).failMember p
  else
    let fresh := !(s.port p).stalled
    let s := s.withPort p fun x =>
      { x with lapseCount := count, stalled := true, stallBlock := if fresh then memberBlock else x.stallBlock }
    let s := s.askPublishIf fresh
    if (s.port p).hasProbe then s else s.issueProbe p slot

/-- A clearing reply on an ONLINE or TARGET member (R33): a stall clears, is reported, and the arbiter runs; without a
stall the lapse count becomes 0. -/
def State.clearStall (s : State) (p : PortId) : State :=
  if (s.port p).memberState.carries then
    if (s.port p).stalled then
      State.runArbiter 8 (((s.withPort p Port.clearFlags).askPublish).wake p) p
    else s.withPort p fun x => { x with lapseCount := 0 }
  else s

/-- A WRITE that did not end GOOD fails an ONLINE or TARGET member (R30). -/
def State.writeFailure (s : State) (p : PortId) : State :=
  if (s.port p).memberState.carries then s.failMember p else s

end Sys2Proof.Machine
end

