-- ==== Sys2Proof/Machine/Operands.lean ====
section
/-! DEFINITION. Machine/Operands.lean: the operand forms of the commands: the fields of each slip kind's request body
(R153), the entry record of LOSSES (R154), and a drive's reply as the port takes it (R20). -/

namespace Sys2Proof.Machine

/-- The value of a field of a request body, `offset` counted from the start of the slip (R153). -/
def slipField (body : SlipBody) (offset size : Nat) : Nat := bytesAt body (offset - 0x20) size

/-- A number below `n`, if the value is one. -/
def numberOf (n : Nat) (v : Nat) : Option (Fin n) := if h : v < n then some ⟨v, h⟩ else none

/-- A value clamped into a range (R142, R89, R105). -/
def clamp (low high v : Nat) : Nat := max low (min high v)

/-! ## The slip (R152, R153, R157) -/

/-- The command that the one read of a slip's 256 bytes brings: its kind at 01h picks the owner, the operation code at
20h the operation of an EXTENT, JOBCTL or LOSSES slip (log 30), and it carries the tag at 08h and the request body at
20h to 8Fh. -/
def slipCommand (bytes : List Byte) : Instr :=
  let tag := BitVec.ofNat 64 (bytesAt bytes 0x08 8)
  let body := (bytes.drop 0x20).take 112
  match SlipKind.ofCode (bytesAt bytes 0x01 1), bytesAt bytes 0x20 1 with
  | some .settings, _ => .settings tag body
  | some .member, _ => .member tag body
  | some .extent, 1 => .extentClear tag body
  | some .extent, _ => .extentDefine tag body
  | some .rebuild, _ => .rebuild tag body
  | some .jobctl, 1 => .jobctlResume tag body
  | some .jobctl, 2 => .jobctlAbort tag body
  | some .jobctl, 3 => .jobctlChange tag body
  | some .jobctl, _ => .jobctlPause tag body
  | some .read, _ => .read tag body
  | some .write, _ => .write tag body
  | some .resync, _ => .resync tag body
  | some .losses, 1 => .lossesImport tag body
  | some .losses, 2 => .lossesRemove tag body
  | some .losses, _ => .lossesExport tag body
  | none, _ => .badKind (bytes.getD 0x01 0) tag

/-! ## SETTINGS -/

/-- The fields of a SETTINGS slip (R153). -/
structure SettingsFields where
  mask   : Nat
  values : Settings
deriving DecidableEq, Repr

def settingsFields (body : SlipBody) : SettingsFields :=
  { mask := slipField body 0x20 2
    values :=
      { tickTap := slipField body 0x22 1, stallLimit := slipField body 0x23 1, guardThreshold := slipField body 0x24 1,
        memberTimeout := slipField body 0x26 2, sweepInterval := slipField body 0x28 2,
        pacingPeriod := slipField body 0x2A 2, senseTicks := slipField body 0x2C 2,
        minimumHold := slipField body 0x2E 2 } }

/-- A tick tap: the least of 1, 4, 16 and 64 that is not below the value, and 64 above it (R142). -/
def clampTap (v : Nat) : Nat := if v ≤ 1 then 1 else if v ≤ 4 then 4 else if v ≤ 16 then 16 else 64

/-- Each setting clamped into its range (R141, R142). -/
def Settings.clamped (v : Settings) : Settings :=
  { tickTap := clampTap v.tickTap, memberTimeout := clamp 1 65535 v.memberTimeout,
    stallLimit := clamp 1 15 v.stallLimit, sweepInterval := clamp 0 65535 v.sweepInterval,
    pacingPeriod := clamp 1 65535 v.pacingPeriod, guardThreshold := clamp 1 24 v.guardThreshold,
    senseTicks := clamp 1 65535 v.senseTicks, minimumHold := clamp 1 65535 v.minimumHold }

/-- A flag of a mask. -/
def maskBit (mask i : Nat) : Bool := mask / 2 ^ i % 2 == 1

/-- The settings in force after a slip: those whose flag is set take the new value (R142). -/
def Settings.choose (mask : Nat) (new old : Settings) : Settings :=
  { tickTap := if maskBit mask 0 then new.tickTap else old.tickTap
    memberTimeout := if maskBit mask 1 then new.memberTimeout else old.memberTimeout
    stallLimit := if maskBit mask 2 then new.stallLimit else old.stallLimit
    sweepInterval := if maskBit mask 3 then new.sweepInterval else old.sweepInterval
    pacingPeriod := if maskBit mask 4 then new.pacingPeriod else old.pacingPeriod
    guardThreshold := if maskBit mask 5 then new.guardThreshold else old.guardThreshold
    senseTicks := if maskBit mask 6 then new.senseTicks else old.senseTicks
    minimumHold := if maskBit mask 7 then new.minimumHold else old.minimumHold }

/-- The settings as numbers, in the order of R141. -/
def Settings.toList (v : Settings) : List Nat :=
  [v.tickTap, v.memberTimeout, v.stallLimit, v.sweepInterval, v.pacingPeriod, v.guardThreshold, v.senseTicks,
   v.minimumHold]

/-- The clamp mask: a flag for each setting whose flag is set and whose value was clamped, in the order of R141. -/
def clampMask (f : SettingsFields) : Nat :=
  ((f.values.toList.zip f.values.clamped.toList).zipIdx.map fun x =>
    if maskBit f.mask x.2 && x.1.1 != x.1.2 then 2 ^ x.2 else 0).sum

/-- The answer body of a SETTINGS slip (R142, R154). -/
def settingsBody (v : Settings) (clamped : Nat) : List BodyField :=
  [field1 v.tickTap, field2 v.memberTimeout, field1 v.stallLimit, field2 v.sweepInterval, field2 v.pacingPeriod,
   field1 v.guardThreshold, field2 v.senseTicks, field2 v.minimumHold, field1 clamped]

/-! ## MEMBER and EXTENT -/

/-- The fields of a MEMBER slip: the port and the requested state; none where one is outside its list (R37). -/
def memberFields (body : SlipBody) : Option (PortId × MemberState) :=
  match numberOf 16 (slipField body 0x20 1), MemberState.ofRequestCode (slipField body 0x21 1) with
  | some p, some m => some (p, m)
  | _, _ => none

/-- The fields of an EXTENT DEFINE as they stand in the body (R153). -/
structure DefineFields where
  kind        : Nat
  memberCount : Nat
  stripSize   : Nat
  rotation    : Nat
  arrayStart  : Nat
  memberBase  : Nat
  stripeCount : Nat
  ports       : List Nat
deriving DecidableEq, Repr

def defineFields (body : SlipBody) : DefineFields :=
  { kind := slipField body 0x22 1, memberCount := slipField body 0x23 1, stripSize := slipField body 0x24 1,
    rotation := slipField body 0x25 1, arrayStart := slipField body 0x28 8, memberBase := slipField body 0x30 8,
    stripeCount := slipField body 0x38 4, ports := (List.range 16).map fun p => slipField body (0x3C + p) 1 }

/-- The member count suits the kind (R1). -/
def ExtentKind.suits (n : Nat) : ExtentKind → Bool
  | .mirror => n == 2
  | .single => decide (3 ≤ n) && decide (n ≤ 16)
  | .double => decide (4 ≤ n) && decide (n ≤ 16)

/-- The entry that a DEFINE asks for, its condition still to be computed; none where a field is outside the ranges of R1
(R14 check 2). -/
def DefineFields.entry (f : DefineFields) : Option Extent :=
  match ExtentKind.ofCode f.kind, Rotation.ofCode f.rotation, (f.ports.take f.memberCount).mapM (numberOf 16) with
  | some kind, some rotation, some targets =>
    let e : Extent :=
      { condition := .unused, kind := kind, memberCount := f.memberCount, stripSize := f.stripSize,
        arrayStart := f.arrayStart, stripeCount := f.stripeCount, memberBase := f.memberBase, rotation := rotation,
        targets := targets }
    if kind.suits f.memberCount && (f.stripSize == 16 || f.stripSize == 32 || f.stripSize == 64) &&
        decide (1 ≤ f.stripeCount) && decide (f.stripeCount ≤ Config.maxCount) &&
        decide (e.arrayLimit < Config.blockSpace) && decide (e.memberLimit < Config.blockSpace) &&
        (kind != .mirror || rotation == .fixed) && decide targets.Nodup
    then some e else none
  | _, _, _ => none

/-! ## REBUILD and JOBCTL -/

/-- The fields of a REBUILD slip (R153). -/
structure RebuildFields where
  mode        : Nat
  extent      : Nat
  sourceCount : Nat
  positions   : List Nat
  targets     : List Nat
  lanes       : Nat
  coolCredits : Nat
  hotCredits  : Nat
  expedite    : Bool
  startRow    : Nat
deriving DecidableEq, Repr

/-- Only the source fields in use are kept: the second of each is read when the count is 2. -/
def rebuildFields (body : SlipBody) : RebuildFields :=
  let count := slipField body 0x22 1
  { mode := slipField body 0x20 1, extent := slipField body 0x21 1, sourceCount := count,
    positions := [slipField body 0x23 1, slipField body 0x24 1].take count,
    targets := [slipField body 0x25 1, slipField body 0x26 1].take count, lanes := slipField body 0x27 1,
    coolCredits := slipField body 0x28 2, hotCredits := slipField body 0x2A 2,
    expedite := decide (slipField body 0x2C 1 ≠ 0), startRow := slipField body 0x30 8 }

/-- A field of lanes or credits was clamped (R88). -/
def RebuildFields.clampedAny (f : RebuildFields) : Bool :=
  clamp 1 4 f.lanes != f.lanes || clamp 1 1023 f.coolCredits != f.coolCredits ||
    clamp 1 1023 f.hotCredits != f.hotCredits

/-- What a JOBCTL asks of the expedite flag. -/
inductive Expedite where
  | keep
  | set
  | clear
deriving DecidableEq, Repr

def Expedite.ofCode : Nat → Option Expedite
  | 0 => some .keep
  | 1 => some .set
  | 2 => some .clear
  | _ => none

/-- The fields of a JOBCTL slip. -/
structure ControlFields where
  job         : JobId
  lanes       : Nat
  expedite    : Expedite
  coolCredits : Nat
  hotCredits  : Nat
deriving DecidableEq, Repr

/-- The fields of a JOBCTL slip of one operation; none where the operation, the job number or the expedite field is
outside its list (R101). -/
def controlFields (operation : Nat) (body : SlipBody) : Option ControlFields :=
  match numberOf 4 (slipField body 0x21 1), Expedite.ofCode (slipField body 0x23 1) with
  | some j, some x =>
    if slipField body 0x20 1 = operation then
      some { job := j, lanes := slipField body 0x22 1, expedite := x, coolCredits := slipField body 0x24 2,
             hotCredits := slipField body 0x26 2 }
    else none
  | _, _ => none

/-! ## READ, WRITE, RESYNC -/

/-- The fields of a READ or WRITE slip. -/
structure TransferFields where
  extent     : Nat
  blockCount : Nat
  firstBlock : Nat
  buffer     : Nat
deriving DecidableEq, Repr

def transferFields (body : SlipBody) : TransferFields :=
  { extent := slipField body 0x20 1, blockCount := slipField body 0x22 2, firstBlock := slipField body 0x28 8,
    buffer := slipField body 0x30 8 }

/-- The fields of a RESYNC slip. -/
structure ResyncFields where
  extent   : Nat
  rowCount : Nat
  firstRow : Nat
deriving DecidableEq, Repr

def resyncFields (body : SlipBody) : ResyncFields :=
  { extent := slipField body 0x20 1, rowCount := slipField body 0x24 4, firstRow := slipField body 0x28 8 }

/-! ## LOSSES -/

/-- The fields of a LOSSES slip. -/
structure LossFields where
  operation   : Nat
  extent      : Nat
  startExtent : Nat
  recordCount : Nat
  startBlock  : Nat
  buffer      : Nat
  firstBlock  : Nat
  blockCount  : Nat
deriving DecidableEq, Repr

def lossFields (body : SlipBody) : LossFields :=
  { operation := slipField body 0x20 1, extent := slipField body 0x21 1, startExtent := slipField body 0x22 1,
    recordCount := slipField body 0x24 2, startBlock := slipField body 0x28 8, buffer := slipField body 0x30 8,
    firstBlock := slipField body 0x38 8, blockCount := slipField body 0x40 4 }

/-- The bytes of an entry record (R154). -/
def recordBytes (e : LossEntry) : RecordBytes :=
  bytesOf 5 e.first ++ bytesOf 1 e.extent.val ++ bytesOf 1 (if e.toEnd then 1 else 0) ++ bytesOf 1 e.origin.code ++
    bytesOf 4 (if e.toEnd then 0 else e.count) ++ bytesOf 4 e.stamp.toNat

/-- What IMPORT takes of an entry record: extent, first array block, reach and block count; the origin and stamp are not
used (R136). -/
structure RecordFields where
  extent : Nat
  first  : Nat
  reach  : Nat
  count  : Nat
deriving DecidableEq, Repr

def recordFields (r : RecordBytes) : RecordFields :=
  { first := bytesAt r 0 5, extent := bytesAt r 5 1, reach := bytesAt r 6 1, count := bytesAt r 8 4 }

/-! ## Replies -/

/-- A reply to an outstanding request, normalised (R20), the bullets of R20 taken in their order (log 20). -/
def normalise (kind : RequestKind) (count : Nat) (outcome : ReplyOutcome) : ReplyOutcome :=
  let first : ReplyOutcome := match outcome with
    | .unreadable offsets contents =>
      let kept := (offsets.filter (· < count)).dedup
      if kept.isEmpty then .good contents else .unreadable kept contents
    | .good contents => .good contents
    | .notReady => .notReady
    | .writeFault => .writeFault
  match kind, first with
  | .write, .unreadable _ _ => .writeFault
  | .read, .writeFault => .notReady
  | .probe, .writeFault => .notReady
  | _, other => other

end Sys2Proof.Machine
end

