-- ==== Sys2Proof/Machine/Jobs.lean ====
section
/-! DEFINITION. Machine/Jobs.lean: the REBUILD and JOBCTL slips, and the steps of a job (R88 to R91, R95, R100 to
R105). -/

namespace Sys2Proof.Machine

/-! ## REBUILD -/

/-- What a REBUILD asks for once its fields are judged: mode, extent and source positions with their targets. -/
structure RebuildPlan where
  mode    : JobMode
  extent  : ExtentId
  sources : List Source
deriving DecidableEq, Repr

/-- Positions and ports paired, each 0 to 15. -/
def pairSources (positions targets : List Nat) : Option (List Source) :=
  (positions.zip targets).mapM fun x =>
    match numberOf 16 x.1, numberOf 16 x.2 with
    | some p, some t => some { position := p.val, target := t }
    | _, _ => none

/-- Check 1 of R88. -/
def RebuildFields.plan (f : RebuildFields) : Option RebuildPlan :=
  match JobMode.ofCode f.mode, numberOf 16 f.extent, pairSources f.positions f.targets with
  | some mode, some e, some sources =>
    if (f.sourceCount = 1 ∨ f.sourceCount = 2) ∧ (mode = .copy → f.sourceCount = 1) then
      some { mode := mode, extent := e, sources := sources }
    else none
  | _, _, _ => none

/-- The record that an accepted REBUILD takes: the lowest-numbered FREE one, or else the lowest-numbered ENDED one
(R89). -/
def State.freeRecord (s : State) : Option JobId :=
  ((bankIndices 4).find? fun j => (s.job j).state == .free).or
    ((bankIndices 4).find? fun j => (s.job j).state == .ended)

/-- A source position suits the mode (R88 check 7): lost in RECONSTRUCT, ONLINE in COPY. -/
def State.sourceSuits (s : State) (plan : RebuildPlan) (x : Source) : Bool :=
  match s.listedPort plan.extent x.position with
  | none => false
  | some q =>
    match plan.mode with
    | .reconstruct => (s.port q).memberState == .failed || (s.port q).memberState == .absent
    | .copy => (s.port q).memberState == .online

/-- A target port is SPARE with its link UP (R88 check 8). -/
def State.targetSuits (s : State) (x : Source) : Bool :=
  (s.port x.target).memberState == .spare && (s.port x.target).link == .up

/-- The checks of R88 in their order: the plan and the record, or the refusal. -/
def State.checkRebuild (s : State) (f : RebuildFields) : Except Reason (RebuildPlan × JobId) :=
  match f.plan with
  | none => .error .badField
  | some plan =>
    let e := s.extent plan.extent
    if !e.inUse then .error .noExtent
    else if e.condition = .lost then .error .extentLost
    else if !(plan.sources.all fun x => decide (x.position < e.memberCount)) ||
        !(plan.sources.map Source.position).Nodup || (plan.sources.length == 2 && e.kind != .double) then
      .error .badField
    else if (s.jobOn plan.extent).isSome then .error .busyExtent
    else match s.freeRecord with
      | none => .error .noJobSlot
      | some j =>
        if !plan.sources.all (s.sourceSuits plan) then .error .wrongState
        else if !plan.sources.all s.targetSuits || !(plan.sources.map Source.target).Nodup then
          .error .memberConflict
        else if e.rows ≤ f.startRow then .error .outOfRange
        else if 0 < f.startRow ∧ s.rowWorkOn plan.extent (fun k => k == .writeRow || k == .resyncRow) = true then
          .error .busyExtent
        else .ok (plan, j)

/-- The record that an accepted REBUILD fills (R89 step 1), with the drain count of step 3. Step 1 lists no end stamp; it
is 0 until the job ends (log 52). -/
def State.newJob (s : State) (slip : SlipId) (f : RebuildFields) (plan : RebuildPlan) : Job :=
  let e := s.extent plan.extent
  let drain := s.rowWorkCount plan.extent
  let lanes := clamp 1 4 f.lanes
  { state := if drain = 0 then .running else .starting, drainCause := none, mode := plan.mode, extent := plan.extent,
    sources := plan.sources,
    outgoing := match plan.mode, plan.sources with
      | .copy, x :: _ => s.listedPort plan.extent x.position
      | _, _ => none,
    startRow := f.startRow, endRow := e.rows, frontier := f.startRow, nextRow := f.startRow, window := [],
    inFlight := [], lanesWanted := lanes, laneCount := lanes, coolCredits := clamp 1 1023 f.coolCredits,
    hotCredits := clamp 1 1023 f.hotCredits, creditsLeft := 0, expedite := f.expedite,
    exposed := e.condition == .exposed, drainCount := drain, publishedFrontier := f.startRow, answering := some slip,
    control := none, rowsDone := 0, rowsCopied := 0, rowsReconstructed := 0, blocksReconstructed := 0, blocksLost := 0,
    repairs := 0, clampMark := f.clampedAny, endCause := none, startStamp := s.stamp, endStamp := 0,
    targetless := false }

/-- Every row operation on an extent marked as counted by a job (R89 step 3, R90). -/
def State.markCounted (s : State) (e : ExtentId) (j : JobId) : State :=
  s.withRows fun r =>
    { r with
      contexts := bankMap (Option.map fun op => if op.extent = e then { op with countedBy := some j } else op) r.contexts
      contextWait := r.contextWait.map fun x => if x.extent = e then { x with countedBy := some j } else x }

/-- An accepted REBUILD (R89): the record is filled, the targets become TARGET, and the row operations on the extent are
counted. -/
def State.acceptRebuild (s : State) (slip : SlipId) (f : RebuildFields) (plan : RebuildPlan) (j : JobId) : State :=
  let job := s.newJob slip f plan
  let s := (s.withJob j fun _ => job).markCounted plan.extent j
  (plan.sources.foldl (fun s x => s.changeMember x.target .target) s).askPublish

/-- REBUILD (R88, R89): refused at once, or accepted without an answer. -/
def execRebuild (tag : BitVec 64) (body : SlipBody) (s : State) : Host.Outcome State Fault Refusal :=
  match s.takeSlip tag with
  | none => .next s
  | some (slip, s) =>
    let f := rebuildFields body
    match s.checkRebuild f with
    | .error reason => (s.refuse slip reason).done
    | .ok (plan, j) => (s.acceptRebuild slip f plan j).done

/-! ## JOBCTL -/

/-- A JOBCTL answered with the job as it will stand when the answer is written (R101). -/
def State.answerControl (s : State) (slip : SlipId) (status : Status) (j : JobId) : State :=
  s.answerJob slip status { job := j, drained := none }

/-- The job's control slip, where it has one, awaits nothing more. -/
def State.dropControl (s : State) (j : JobId) : State := s.withJob j fun x => { x with control := none }

/-- The control slip of a job that has ended answered with the record as it ended (R95 step 6, R100 step 4). -/
def State.answerEndedControl (s : State) (j : JobId) (status : Status) : State :=
  (s.answerIf (s.job j).control status .none ((s.job j).controlBody j)).dropControl j

/-- An accepted PAUSE (R102): PAUSED at once with no rows in flight, PAUSING otherwise. -/
def State.pauseJob (s : State) (slip : SlipId) (j : JobId) : State :=
  if (s.job j).inFlight = [] then
    (((s.withJob j fun x => { x with state := .paused }).answerControl slip .good j)).askPublish
  else (s.withJob j fun x => { x with state := .pausing, control := some slip }).askPublish

/-- JOBCTL_PAUSE (R101, R102). The refusal WRONG_STATE of a JOBCTL carries a body of zeros (R154; log 58). A job whose last
row has ended is past its completion (R108). -/
def execJobctlPause (tag : BitVec 64) (body : SlipBody) (s : State) : Host.Outcome State Fault Refusal :=
  match s.takeSlip tag with
  | none => .next s
  | some (slip, s) =>
    match controlFields 0 body with
    | none => (s.refuse slip .badField).done
    | some f =>
      if (s.job f.job).state = .running ∧ (s.job f.job).completes = false then (s.pauseJob slip f.job).done
      else (s.refuse slip .wrongState).done

/-- An accepted RESUME (R103): RUNNING; answered at once, or adopted by an orphan as its answering slip. -/
def State.resumeJob (s : State) (slip : SlipId) (j : JobId) : State :=
  if (s.job j).orphaned then (s.withJob j fun x => { x with state := .running, answering := some slip }).askPublish
  else ((s.withJob j fun x => { x with state := .running }).answerControl slip .good j).askPublish

/-- JOBCTL_RESUME (R101, R103). -/
def execJobctlResume (tag : BitVec 64) (body : SlipBody) (s : State) : Host.Outcome State Fault Refusal :=
  match s.takeSlip tag with
  | none => .next s
  | some (slip, s) =>
    match controlFields 1 body with
    | none => (s.refuse slip .badField).done
    | some f =>
      if (s.job f.job).state = .paused then (s.resumeJob slip f.job).done else (s.refuse slip .wrongState).done

/-- JOBCTL_ABORT (R101, R104): the job is set draining with cause ABORTED, and keeps the slip as its control slip. -/
def execJobctlAbort (tag : BitVec 64) (body : SlipBody) (s : State) : Host.Outcome State Fault Refusal :=
  match s.takeSlip tag with
  | none => .next s
  | some (slip, s) =>
    match controlFields 2 body with
    | none => (s.refuse slip .badField).done
    | some f =>
      if (s.job f.job).drainable then
        ((s.drainJob f.job .aborted).withJob f.job fun x => { x with control := some slip }).done
      else (s.refuse slip .wrongState).done

/-- A budget field: 0 keeps the present value, any other is clamped to 1 to 1023 (R105). -/
def changedBudget (field old : Nat) : Nat := if field = 0 then old else clamp 1 1023 field

/-- Every field of a CHANGE keeps its value (R105). -/
def ControlFields.keepsAll (f : ControlFields) : Bool :=
  f.lanes == 0 && f.coolCredits == 0 && f.hotCredits == 0 && f.expedite == .keep

/-- A CHANGE of a job record (R105 steps 1 to 3): credits left is cut to the budget that the pacing unit would choose now,
whichever field the slip gives (R146); a slip whose every field keeps its value changes nothing (log 43). -/
def Job.change (guard : GuardState) (f : ControlFields) (j : Job) : Job :=
  let lanes := if f.lanes = 0 then j.lanesWanted else clamp 1 4 f.lanes
  let j :=
    { j with
      lanesWanted := lanes
      laneCount := if f.lanes = 0 then j.laneCount else max lanes j.inFlight.length
      coolCredits := changedBudget f.coolCredits j.coolCredits
      hotCredits := changedBudget f.hotCredits j.hotCredits
      expedite := match f.expedite with
        | .keep => j.expedite
        | .set => true
        | .clear => false }
  if f.keepsAll then j else { j with creditsLeft := min j.creditsLeft (j.budget guard) }

/-- A lanes or credits field of a CHANGE was clamped (R105). -/
def ControlFields.clampedAny (f : ControlFields) : Bool :=
  decide (4 < f.lanes) || decide (1023 < f.coolCredits) || decide (1023 < f.hotCredits)

/-- JOBCTL_CHANGE (R101, R105). -/
def execJobctlChange (tag : BitVec 64) (body : SlipBody) (s : State) : Host.Outcome State Fault Refusal :=
  match s.takeSlip tag with
  | none => .next s
  | some (slip, s) =>
    match controlFields 3 body with
    | none => (s.refuse slip .badField).done
    | some f =>
      if (s.job f.job).drainable then
        let old := s.job f.job
        let s := s.withJob f.job (Job.change s.guard.state f)
        ((s.answerControl slip (if f.clampedAny then .adjusted else .good) f.job).askPublishIf
          (decide (s.job f.job ≠ old))).done
      else (s.refuse slip .wrongState).done

/-! ## The steps of a job -/

/-- A job starts row N (R91): a credit is spent, N joins the rows in flight and moves on, and a REBUILD_ROW request joins
the context wait list. -/
def State.startRow (s : State) (j : JobId) : State :=
  let row := (s.job j).nextRow
  let e := (s.job j).extent
  (s.withJob j fun x =>
      { x with creditsLeft := x.creditsLeft - 1, inFlight := x.inFlight ++ [row], nextRow := row + 1 }).withRows
    fun r => { r with contextWait := r.contextWait ++
      [{ kind := .rebuildRow, owner := .job j, extent := e, row := row, requested := [], countedBy := none }] }

/-- JOB_ROW_START (R91): a job whose terms hold starts row N; jobs start in ascending job number. -/
def execJobRowStart (j : JobId) (s : State) : Host.Outcome State Fault Refusal :=
  if s.canStartRow j = true ∧ ((bankIndices 4).all fun k => decide (j ≤ k) || !s.canStartRow k) = true then
    (s.startRow j).done
  else .next s

/-- STARTING_DRAIN_END (R90): the drain count has reached 0, and the job enters RUNNING. -/
def execStartingDrainEnd (j : JobId) (s : State) : Host.Outcome State Fault Refusal :=
  if (s.job j).state = .starting ∧ (s.job j).drainCount = 0 then
    (s.withJob j fun x => { x with state := .running }).askPublish.done
  else .next s

/-- The PAUSE that a job holds as its control slip answered (R102). -/
def State.answerPause (s : State) (j : JobId) : State :=
  match (s.job j).control with
  | some slip => (s.answerControl slip .good j).dropControl j
  | none => s

/-- PAUSING_DRAIN_END (R102): the last row in flight has ended; the job becomes PAUSED and the PAUSE is answered. -/
def execPausingDrainEnd (j : JobId) (s : State) : Host.Outcome State Fault Refusal :=
  if (s.job j).state = .pausing ∧ (s.job j).inFlight = [] ∧ (s.job j).frontier ≠ (s.job j).endRow then
    (((s.withJob j fun x => { x with state := .paused }).answerPause j).askPublish).done
  else .next s

/-- The record of a job that ends (R95 step 5, R100 step 2). -/
def State.endJob (s : State) (j : JobId) (cause : Option EndCause) : State :=
  s.withJob j fun x => { x with state := .ended, endCause := cause, endStamp := s.stamp, exposed := false }

/-- The answering slip of a job that has ended, answered by R96. -/
def State.answerEnd (s : State) (j : JobId) : State :=
  s.answerIf (s.job j).answering (s.job j).endStatus.1 (s.job j).endStatus.2 ((s.job j).endBody j)

/-- A port's member state changed from one state to another, where it is in the first. -/
def State.turnMember (s : State) (p : PortId) (old new : MemberState) : State :=
  if (s.port p).memberState = old then s.changeMember p new else s

/-- ABORTING_DRAIN_END (R100): the targets that the job has, still TARGET, become SPARE, the job is ENDED with its drain
cause, and its slips are answered. A target that the job has lost is left as it is (log 71). -/
def execAbortingDrainEnd (j : JobId) (s : State) : Host.Outcome State Fault Refusal :=
  if (s.job j).state = .aborting ∧ (s.job j).inFlight = [] then
    let s := (s.job j).ownTargets.foldl (fun s t => s.turnMember t .target .spare) s
    ((((s.endJob j (s.job j).drainCause).answerEnd j).answerEndedControl j .good).askPublish).done
  else .next s

/-- A port in the place of another position's port in a target list (R95 step 2). -/
def replaceTarget (x : Source) (targets : List PortId) : List PortId := targets.set x.position x.target

/-- The targets put in place (R95 steps 1 to 4). A port that has failed since the last row ended keeps its state (R108). -/
def State.placeTargets (s : State) (j : JobId) : State :=
  let job := s.job j
  let s := job.sources.foldl (fun s x => s.turnMember x.target .target .online) s
  let s := s.withExtent job.extent fun e => { e with targets := job.sources.foldl (fun l x => replaceTarget x l) e.targets }
  let s := match job.mode, job.outgoing with
    | .copy, some q => s.turnMember q .online .released
    | _, _ => s
  s.askPublish.recompute job.extent

/-- The completion of a job (R95): the targets put in place, the record ENDED with COMPLETE, and its slips answered. -/
def State.completeJob (s : State) (j : JobId) : State :=
  ((((s.placeTargets j).endJob j (some .complete)).answerEnd j).answerEndedControl j .failed).askPublish

/-- JOB_COMPLETION (R95): the frontier has reached the end row. -/
def execJobCompletion (j : JobId) (s : State) : Host.Outcome State Fault Refusal :=
  if (s.job j).completes then (s.completeJob j).done else .next s

end Sys2Proof.Machine
end

