-- ==== Sys2Proof/Machine/LayoutMap.lean ====
section
/-! DEFINITION. Machine/LayoutMap.lean: the EXTENT slip (R13 to R17). -/

namespace Sys2Proof.Machine

/-! ## DEFINE -/

/-- Two extents' array ranges share a block (R14 check 3). -/
def Extent.overlaps (a b : Extent) : Bool :=
  decide (a.arrayStart ≤ b.arrayLimit) && decide (b.arrayStart ≤ a.arrayLimit)

/-- Some other entry in use shares an array block with the new one. -/
def State.overlapsOther (s : State) (i : ExtentId) (e : Extent) : Bool :=
  (bankIndices 16).any fun k => k != i && (s.extent k).inUse && (s.extent k).overlaps e

/-- A port that a new target list may not hold (R14 check 4). -/
def State.conflicts (s : State) (p : PortId) : Bool :=
  (s.extentOfPort p).isSome || (s.port p).memberState == .target || (s.port p).memberState == .released

/-- The checks of a DEFINE in their order (R14): the entry, or the refusal. -/
def State.checkDefine (s : State) (i : ExtentId) (f : DefineFields) : Except Reason Extent :=
  if (s.extent i).inUse then .error .wrongState
  else match f.entry with
    | none => .error .badField
    | some e =>
      if s.overlapsOther i e then .error .overlap
      else if e.targets.any s.conflicts then .error .memberConflict
      else .ok e

/-- The SPARE ports of a new target list become ONLINE (R15). -/
def State.joinPorts (s : State) (targets : List PortId) : State :=
  targets.foldl (fun s p => if (s.port p).memberState = .spare then s.changeMember p .online else s) s

/-- An accepted DEFINE (R15): listed SPARE ports become ONLINE, the entry is filled, and the condition is computed by
R9 and reported (R10). -/
def State.defineExtent (s : State) (i : ExtentId) (e : Extent) : State :=
  let s := (s.joinPorts e.targets).withExtent i fun _ => e
  (s.withExtent i fun x => { x with condition := s.conditionOf i }).askPublish

/-- The answer body of an accepted DEFINE (R13). -/
def defineBody (e : Extent) : List BodyField := [field1 e.condition.code, field8 e.rows, field8 e.arrayLimit]

/-- EXTENT_DEFINE (R13, R14, R15). -/
def execExtentDefine (tag : BitVec 64) (body : SlipBody) (s : State) : Host.Outcome State Fault Refusal :=
  match s.takeSlip tag with
  | none => .next s
  | some (slip, s) =>
    match numberOf 16 (slipField body 0x21 1) with
    | none => (s.refuse slip .badField).done
    | some i =>
      if slipField body 0x20 1 ≠ 0 then (s.refuse slip .badField).done
      else match s.checkDefine i (defineFields body) with
        | .error reason => (s.refuse slip reason).done
        | .ok e =>
          let s := s.defineExtent i e
          (s.answer slip .good .none (defineBody (s.extent i))).done

/-! ## CLEAR -/

/-- A READ, WRITE or RESYNC on the extent has been dispatched and not yet answered: its slip is marked in the set of TAKEN
slips, and has a request record until its answer is composed (R16 check 3). -/
def State.serves (s : State) (i : ExtentId) : Bool :=
  (s.board.taken.any fun t => t.foreground == some i) || s.requests.any fun r => r.extent == i

/-- The checks of a CLEAR in their order (R16): the refusal, if there is one. -/
def State.checkClear (s : State) (i : ExtentId) : Option Reason :=
  if !(s.extent i).inUse then some .noExtent
  else if (s.jobOn i).isSome then some .busyExtent
  else if s.rowWorkOn i (fun _ => true) || s.serves i then some .busyExtent
  else none

/-- What an accepted CLEAR counts for its answer (R13). -/
structure ClearCounts where
  ports     : Nat
  losses    : Nat
  unsettled : Nat
deriving DecidableEq, Repr

/-- The counts of a CLEAR, taken before it: ONLINE ports, loss entries, and unsettled rows (log 34). -/
def State.clearCounts (s : State) (i : ExtentId) : ClearCounts :=
  { ports := ((s.extent i).targets.filter fun p => (s.port p).memberState == .online).length
    losses := (s.losses.entries.filter fun e => e.extent == i).length
    unsettled := ((s.rows.unsettled.filter fun e => e.extent == i).map fun e => e.size (s.lastRows i)).sum }

/-- An accepted CLEAR (R17), its changes in their order. -/
def State.clearExtent (s : State) (i : ExtentId) : State :=
  let s := ((s.extent i).targets.filter fun p => (s.port p).memberState == .online).foldl
    (fun s p => s.changeMember p .spare) s
  let s := s.withLosses fun l => { l with entries := l.entries.filter fun e => e.extent != i }
  let s := s.withRows fun r => { r with unsettled := r.unsettled.filter fun e => e.extent != i }
  (s.withExtent i fun _ => Extent.empty).askPublish

/-- EXTENT_CLEAR (R13, R16, R17). -/
def execExtentClear (tag : BitVec 64) (body : SlipBody) (s : State) : Host.Outcome State Fault Refusal :=
  match s.takeSlip tag with
  | none => .next s
  | some (slip, s) =>
    match numberOf 16 (slipField body 0x21 1) with
    | none => (s.refuse slip .badField).done
    | some i =>
      if slipField body 0x20 1 ≠ 1 then (s.refuse slip .badField).done
      else match s.checkClear i with
        | some reason => (s.refuse slip reason).done
        | none =>
          let n := s.clearCounts i
          ((s.clearExtent i).answer slip .good .none [field2 n.ports, field2 n.losses, field8 n.unsettled]).done

end Sys2Proof.Machine
end

