-- ==== Sys2Proof/Machine/Requests.lean ====
section
/-! DEFINITION. Machine/Requests.lean: the READ, WRITE and RESYNC slips, and the starting and finishing of their
requests (R115 to R119, R122, R123). -/

namespace Sys2Proof.Machine

/-! ## Checks (R115) -/

/-- The extent's own checks, 2 and 3 of R115. -/
def State.checkServing (s : State) (e : ExtentId) : Option Reason :=
  if !(s.extent e).inUse then some .noExtent
  else if (s.extent e).condition = .lost then some .extentLost
  else none

/-- A buffer of `size` bytes at a byte address: a multiple of 4096, ending within the address space. -/
def bufferOk (buffer size : Nat) : Bool :=
  decide (buffer % 4096 = 0) && decide (buffer + size - 1 < Config.addressSpace)

/-- The checks of a READ or WRITE in their order: its extent, or the refusal. -/
def State.checkTransfer (s : State) (f : TransferFields) : Except Reason ExtentId :=
  match numberOf 16 f.extent with
  | none => .error .badField
  | some e =>
    if f.blockCount < 1 ∨ 1024 < f.blockCount ∨ bufferOk f.buffer (f.blockCount * Config.blockBytes) = false then
      .error .badField
    else match s.checkServing e with
      | some reason => .error reason
      | none =>
        if f.firstBlock < (s.extent e).arrayStart ∨ (s.extent e).arrayLimit < f.firstBlock + f.blockCount - 1 then
          .error .outOfRange
        else .ok e

/-- The checks of a RESYNC in their order. -/
def State.checkResync (s : State) (f : ResyncFields) : Except Reason ExtentId :=
  match numberOf 16 f.extent with
  | none => .error .badField
  | some e =>
    if f.rowCount < 1 ∨ 65536 < f.rowCount then .error .badField
    else match s.checkServing e with
      | some reason => .error reason
      | none => if (s.extent e).rows < f.firstRow + f.rowCount then .error .outOfRange else .ok e

/-! ## Request records (R116) -/

/-- The record of an accepted READ or WRITE. -/
def transferRequest (e : Extent) (i : ExtentId) (slip : SlipId) (kind : ForegroundKind) (f : TransferFields) :
    ForegroundRequest :=
  { slip := slip, kind := kind, extent := i, firstBlock := f.firstBlock, blockCount := f.blockCount, buffer := f.buffer,
    firstRow := 0, rowCount := 0, pieces := e.rowPieces f.firstBlock (f.firstBlock + f.blockCount - 1), nextPiece := 0,
    granted := 0, inFlight := [], stop := none, tallies := RequestTallies.zero, worst := .good }

/-- The record of an accepted RESYNC. -/
def resyncRequest (i : ExtentId) (slip : SlipId) (f : ResyncFields) : ForegroundRequest :=
  { slip := slip, kind := .resync, extent := i, firstBlock := 0, blockCount := 0, buffer := 0, firstRow := f.firstRow,
    rowCount := f.rowCount, pieces := resyncPieces f.firstRow f.rowCount, nextPiece := 0, granted := 0, inFlight := [],
    stop := none, tallies := RequestTallies.zero, worst := .good }

/-- A request record created, and its start condition tested (R116, R118). -/
def State.addRequest (s : State) (r : ForegroundRequest) : State :=
  s.withRequests fun l => l ++ [r.testPieces s.board.engine]

/-- The slip marked as a foreground slip on the extent it names, where that is a number of an extent (R16 check 3). -/
def State.markNamed (s : State) (slip : SlipId) (extent : Nat) : State :=
  match numberOf 16 extent with
  | some e => s.markForeground slip e
  | none => s

/-- A READ or WRITE slip taken by foreground service (R115, R116). -/
def State.takeTransfer (s : State) (slip : SlipId) (kind : ForegroundKind) (f : TransferFields) : State :=
  let s := s.markNamed slip f.extent
  match s.checkTransfer f with
  | .error reason => s.refuse slip reason
  | .ok e => s.addRequest (transferRequest (s.extent e) e slip kind f)

/-- READ (R115). -/
def execRead (tag : BitVec 64) (body : SlipBody) (s : State) : Host.Outcome State Fault Refusal :=
  match s.takeSlip tag with
  | none => .next s
  | some (slip, s) => (s.takeTransfer slip .read (transferFields body)).done

/-- WRITE (R115). -/
def execWrite (tag : BitVec 64) (body : SlipBody) (s : State) : Host.Outcome State Fault Refusal :=
  match s.takeSlip tag with
  | none => .next s
  | some (slip, s) => (s.takeTransfer slip .write (transferFields body)).done

/-- RESYNC (R115). -/
def execResync (tag : BitVec 64) (body : SlipBody) (s : State) : Host.Outcome State Fault Refusal :=
  match s.takeSlip tag with
  | none => .next s
  | some (slip, s) =>
    let f := resyncFields body
    let s := s.markNamed slip f.extent
    match s.checkResync f with
    | .error reason => (s.refuse slip reason).done
    | .ok e => (s.addRequest (resyncRequest e slip f)).done

/-! ## Pieces and the finish -/

/-- The kind of row operation that a request starts (R118). -/
def ForegroundKind.rowKind : ForegroundKind → RowKind
  | .read => .readRow
  | .write => .writeRow
  | .resync => .resyncRow

/-- The request of a row piece on the context wait list (R118). -/
def ForegroundRequest.rowRequest (r : ForegroundRequest) (piece : Piece) : RowRequest :=
  { kind := r.kind.rowKind, owner := .slip r.slip r.nextPiece, extent := r.extent, row := piece.row,
    requested := piece.runs, countedBy := none }

/-- The record of one slip changed. -/
def State.withRequest (s : State) (slip : SlipId) (f : ForegroundRequest → ForegroundRequest) : State :=
  s.withRequests fun l => l.map fun r => if r.slip = slip then f r else r

/-- The piece at next piece started, or the stop cause set where the extent is LOST (R118). -/
def State.startPiece (s : State) (r : ForegroundRequest) (piece : Piece) : State :=
  if (s.extent r.extent).condition = .lost then s.withRequest r.slip fun x => { x with stop := some .extentLost }
  else
    (s.withRequest r.slip fun x =>
        { x with inFlight := x.inFlight ++ [piece.row], nextPiece := x.nextPiece + 1,
                 granted := x.granted - 1 }).withRows fun rows =>
      { rows with contextWait := rows.contextWait ++ [r.rowRequest piece] }

/-- PIECE_START (R118). -/
def execPieceStart (slip : SlipId) (s : State) : Host.Outcome State Fault Refusal :=
  match s.requestOf slip with
  | none => .next s
  | some r =>
    if s.canStartPiece r then
      match r.pieces[r.nextPiece]? with
      | some piece => (s.startPiece r piece).done
      | none => .next s
    else .next s

/-- REQUEST_FINISH (R119 step 5): the answer is composed and handed to the board unit, and the record is removed. -/
def execRequestFinish (slip : SlipId) (s : State) : Host.Outcome State Fault Refusal :=
  match s.requestOf slip with
  | none => .next s
  | some r =>
    if s.isFinished r then
      ((s.withRequests fun l => l.filter fun x => x.slip != slip).answer slip r.status.1 r.status.2 r.body).done
    else .next s

end Sys2Proof.Machine
end

