-- ==== Sys2Proof/Machine/Losses.lean ====
section
/-! DEFINITION. Machine/Losses.lean: the LOSSES slip and the ends of its buffer transfers (R134 to R136). -/

namespace Sys2Proof.Machine

/-- Bytes in an entry record (R154). -/
def recordSize : Nat := 16

/-- The record count and the buffer of an EXPORT or IMPORT lie in their ranges (R134). -/
def LossFields.transferOk (f : LossFields) : Bool :=
  decide (1 ≤ f.recordCount) && decide (f.recordCount ≤ Config.lossEntries) &&
    bufferOk f.buffer (f.recordCount * recordSize)

/-- The entries held, the coarsening count and the kept count, as answers give them (R154). -/
def LossList.summary (l : LossList) : List BodyField :=
  [field2 l.entries.length, field4 l.coarsenings.toNat, field4 l.kept.toNat]

/-! ## EXPORT -/

/-- The extent code of ALL (R153). -/
def allExtents : Nat := 0xFF

/-- An entry is among those that an EXPORT chooses (R135). -/
def LossFields.chooses (f : LossFields) (e : LossEntry) : Bool :=
  (f.extent == allExtents || f.extent == e.extent.val) &&
    (decide (f.startExtent < e.extent.val) || (f.startExtent == e.extent.val && decide (f.startBlock ≤ e.first)))

/-- The transfer of an accepted EXPORT, with its copy (R135). -/
def LossList.exportOf (l : LossList) (slip : SlipId) (f : LossFields) : Transfer :=
  let chosen := l.entries.filter f.chooses
  let rest := chosen.drop f.recordCount
  { slip := slip, buffer := f.buffer,
    work := .exporting (chosen.take f.recordCount) rest.length rest.head? l.entries.length l.coarsenings.toNat
      l.kept.toNat }

/-- A buffer transfer begins. -/
def State.addTransfer (s : State) (t : Transfer) : State :=
  s.withLosses fun l => { l with transfers := l.transfers ++ [t] }

/-- LOSSES_EXPORT (R134, R135): checked; the chosen entries are copied, and the records are written from the copy. -/
def execLossesExport (tag : BitVec 64) (body : SlipBody) (s : State) : Host.Outcome State Fault Refusal :=
  match s.takeSlip tag with
  | none => .next s
  | some (slip, s) =>
    let f := lossFields body
    if f.operation = 0 ∧ (f.extent < 16 ∨ f.extent = allExtents) ∧ f.transferOk = true then
      (s.addTransfer (s.losses.exportOf slip f)).done
    else (s.refuse slip .badField).done

/-- The running transfer of a slip. -/
def LossList.transferOf (l : LossList) (slip : SlipId) : Option Transfer := l.transfers.find? fun t => t.slip == slip

/-- The transfer of a slip ends. -/
def State.endTransfer (s : State) (slip : SlipId) : State :=
  s.withLosses fun l => { l with transfers := l.transfers.filter fun t => t.slip != slip }

/-- EXPORT_END (R135): the buffer writes end; answered GOOD, or refused with BUFFER_FAULT. -/
def execExportEnd (slip : SlipId) (fault : Bool) (s : State) : Host.Outcome State Fault Refusal :=
  match s.losses.transferOf slip with
  | none => .next s
  | some t =>
    match t.work with
    | .importing _ _ => .next s
    | .exporting copy unfit next held coarsenings kept =>
      let s := s.endTransfer slip
      if fault then (s.refuse slip .bufferFault).done
      else
        (s.answer slip .good .none
          [field2 copy.length, field2 unfit, fieldOption 1 (next.map fun e => e.extent.val),
           fieldOption 8 (next.map LossEntry.first), field2 held, field4 coarsenings, field4 kept]).done

/-! ## IMPORT -/

/-- LOSSES_IMPORT (R134, R136): checked; the reading of the records begins. -/
def execLossesImport (tag : BitVec 64) (body : SlipBody) (s : State) : Host.Outcome State Fault Refusal :=
  match s.takeSlip tag with
  | none => .next s
  | some (slip, s) =>
    let f := lossFields body
    match numberOf 16 f.extent with
    | none => (s.refuse slip .badField).done
    | some e =>
      if f.operation ≠ 1 ∨ f.transferOk = false then (s.refuse slip .badField).done
      else if !(s.extent e).inUse then (s.refuse slip .noExtent).done
      else (s.addTransfer { slip := slip, buffer := f.buffer, work := .importing e f.recordCount }).done

/-- Check 3 of R136 for one record. -/
def RecordFields.sound (e : ExtentId) (r : RecordFields) : Bool :=
  r.extent == e.val && (r.reach == 1 || (r.reach == 0 && decide (1 ≤ r.count) && decide (r.count ≤ Config.maxCount)))

/-- Check 4 of R136 for one record. -/
def RecordFields.inRange (x : Extent) (r : RecordFields) : Bool :=
  decide (x.arrayStart ≤ r.first) && decide (r.first ≤ x.arrayLimit) &&
    (r.reach == 1 || decide (r.first + r.count - 1 ≤ x.arrayLimit))

/-- The entry that a record inserts: origin IMPORT, and the tick counter as its stamp (R136). -/
def RecordFields.entry (e : ExtentId) (now : Stamp) (r : RecordFields) : LossEntry :=
  { extent := e, first := r.first, toEnd := r.reach == 1, count := if r.reach == 1 then 0 else r.count,
    origin := .imported, stamp := now }

/-- The checks 3 and 4 of R136 in their order: the refusal, with the number of the first record that failed. -/
def checkRecords (e : ExtentId) (x : Extent) (records : List RecordFields) : Option (Reason × Nat) :=
  match records.findIdx? fun r => !r.sound e with
  | some k => some (.badField, k)
  | none =>
    match records.findIdx? fun r => !r.inRange x with
    | some k => some (.outOfRange, k)
    | none => none

/-- The records of an import inserted, and the slip answered (R136). -/
def State.importRecords (s : State) (slip : SlipId) (e : ExtentId) (records : List RecordFields) : State :=
  let before := lossBlocks s.arrayLimits s.losses.entries
  let count := s.losses.coarsenings
  let s := s.insertLosses (records.map (RecordFields.entry e s.stamp))
  s.answer slip .good .none
    ([field2 records.length, field8 (lossBlocks s.arrayLimits s.losses.entries - before),
      field4 (s.losses.coarsenings - count).toNat] ++ s.losses.summary)

/-- IMPORT_COMPLETION (R136): the records are checked and inserted, or the slip is refused. The number of the record that
failed is written in 2 bytes (log 57). -/
def execImportCompletion (slip : SlipId) (records : Option (List RecordBytes)) (s : State) :
    Host.Outcome State Fault Refusal :=
  match s.losses.transferOf slip with
  | none => .next s
  | some t =>
    match t.work with
    | .exporting _ _ _ _ _ _ => .next s
    | .importing e count =>
      let s := s.endTransfer slip
      match records with
      | none => (s.refuse slip .bufferFault).done
      | some rs =>
        if !(s.extent e).inUse then (s.refuse slip .noExtent).done
        else
          let fields := (rs.take count).map recordFields
          match checkRecords e (s.extent e) fields with
          | some (reason, k) => (s.answer slip .refused reason [field2 k]).done
          | none => (s.importRecords slip e fields).done

/-! ## REMOVE -/

/-- The checks of a REMOVE in their order (R134): its extent, or the refusal. -/
def State.checkRemove (s : State) (f : LossFields) : Except Reason ExtentId :=
  match numberOf 16 f.extent with
  | none => .error .badField
  | some e =>
    if f.operation ≠ 2 ∨ f.blockCount = 0 then .error .badField
    else if !(s.extent e).inUse then .error .noExtent
    else if f.firstBlock < (s.extent e).arrayStart ∨ (s.extent e).arrayLimit < f.firstBlock + f.blockCount - 1 then
      .error .outOfRange
    else .ok e

/-- LOSSES_REMOVE (R134): the range is removed by R132, and the slip answered at once. -/
def execLossesRemove (tag : BitVec 64) (body : SlipBody) (s : State) : Host.Outcome State Fault Refusal :=
  match s.takeSlip tag with
  | none => .next s
  | some (slip, s) =>
    let f := lossFields body
    match s.checkRemove f with
    | .error reason => (s.refuse slip reason).done
    | .ok e =>
      let before := lossBlocks s.arrayLimits s.losses.entries
      let out := s.removeLossRange e f.firstBlock (f.firstBlock + f.blockCount - 1)
      (out.1.answer slip (if 0 < out.2.kept then .lossKept else .good) .none
        ([field8 (before - lossBlocks s.arrayLimits out.1.losses.entries), field2 out.2.deleted,
          field2 out.2.shortened, field2 out.2.split] ++ out.1.losses.summary)).done

end Sys2Proof.Machine
end

