-- ==== Sys2Proof/Machine/Pacing.lean ====
section
/-! DEFINITION. Machine/Pacing.lean: the SETTINGS slip, the tick, and the steps that a tick calls for (R139 to R148). -/

namespace Sys2Proof.Machine

/-! ## SETTINGS (R142, R143) -/

/-- The settings put in force, with what R143 gives for the sweep interval and the minimum hold. -/
def State.applySettings (s : State) (f : SettingsFields) : State :=
  let new := Settings.choose f.mask f.values.clamped s.settings
  { s with
    settings := new
    time := if maskBit f.mask 3 then { s.time with sweepTimer := 0 } else s.time
    guard := if s.guard.state = .hot then { s.guard with hold := min s.guard.hold new.minimumHold } else s.guard }

/-- Every stalled member whose lapse count is at or above the stall limit becomes FAILED (R34).
Neither R34 nor R143 gives an order among them; here they fail in port order (log 59). -/
def State.failStalled (s : State) : State :=
  (bankIndices 16).foldl (fun s p =>
    if (s.port p).memberState.carries && (s.port p).stalled && decide (s.settings.stallLimit ≤ (s.port p).lapseCount)
    then s.failMember p else s) s

/-- SETTINGS (R142): refused with BAD_FIELD for a flag outside the eight; otherwise applied and answered at once. Where a
lowered stall limit fails a member and that supersedes a PAUSE, the PAUSE is answered FAILED (R98, R99) before the SETTINGS
slip, which is the model's choice (log 72). -/
def execSettings (tag : BitVec 64) (body : SlipBody) (s : State) : Host.Outcome State Fault Refusal :=
  match s.takeSlip tag with
  | none => .next s
  | some (i, s) =>
    let f := settingsFields body
    if 256 ≤ f.mask then (s.refuse i .badField).done
    else
      let s := s.applySettings f
      let s := if maskBit f.mask 2 then s.failStalled else s
      (s.answer i (if clampMask f = 0 then .good else .adjusted) .none (settingsBody s.settings (clampMask f))).done

/-! ## The tick (R139) -/

/-- The ticks left of a request fall by one (R28). -/
def Outstanding.tick (o : Outstanding) : Outstanding := { o with ticksLeft := o.ticksLeft - 1 }

/-- A tick at a port. -/
def Port.tick (p : Port) : Port := { p with slots := bankMap (Option.map Outstanding.tick) p.slots }

/-- The most that a count of ticks holds. -/
def tickCap : Nat := 65535

/-- A sample of the load guard (R147); `due` says which entry it calls for (log 28). -/
def LoadGuard.sample (v : Settings) (pressure : Nat) (g : LoadGuard) : LoadGuard :=
  match g.state with
  | .cool =>
    let sense := if v.guardThreshold ≤ pressure then min (g.sense + 1) tickCap else 0
    { g with sense := sense, due := if v.senseTicks ≤ sense then some .hot else none }
  | .hot =>
    let hold := g.hold - 1
    { g with hold := hold, due := if hold = 0 ∧ pressure < v.guardThreshold then some .cool else none }

/-- A tick at the time base: the tick counter, the period counter and the sweep timer (R139, R144, R145). -/
def TimeBase.advance (v : Settings) (t : TimeBase) : TimeBase :=
  let period := min (t.periodCounter + 1) tickCap
  { tick := t.tick + 1
    sweepTimer := if v.sweepInterval = 0 then 0 else min (t.sweepTimer + 1) tickCap
    periodCounter := period
    restartDue := decide (v.pacingPeriod ≤ period) }

/-- TICK (R139): the counts of the outstanding requests fall, the guard samples the pressure, and the counters
advance. -/
def execTick (s : State) : Host.Outcome State Fault Refusal :=
  .next
    { s with
      ports := bankMap Port.tick s.ports
      time := s.time.advance s.settings
      guard := s.guard.sample s.settings s.pressure }

/-- SWEEP_TIMER_EXPIRY (R144): the timer has reached a non-zero interval; it returns to 0 and requests a sweep. -/
def execSweepTimerExpiry (s : State) : Host.Outcome State Fault Refusal :=
  if s.settings.sweepInterval ≠ 0 ∧ s.settings.sweepInterval ≤ s.time.sweepTimer then
    ((s.withTime fun t => { t with sweepTimer := 0 }).withBoard Board.requestSweep).done
  else .next s

/-- A job at a period restart (R145). -/
def Job.restart (guard : GuardState) (j : Job) : Job :=
  if j.state = .running then { j with creditsLeft := j.budget guard } else j

/-- PERIOD_RESTART (R145): the period counter returns to 0, and each RUNNING job's credits left is set to its budget.
The guard's entry that the same tick calls for comes first (R139; log 28). -/
def execPeriodRestart (s : State) : Host.Outcome State Fault Refusal :=
  if s.time.restartDue = true ∧ s.guard.due = none then
    .next
      { s with
        time := { s.time with periodCounter := 0, restartDue := false }
        jobs := bankMap (Job.restart s.guard.state) s.jobs }
  else .next s

/-! ## The load guard (R148) -/

/-- A job whose budget is its hot credits has its credits left cut to them, an ENDED record's too (R148; log 53). -/
def Job.cutHot (j : Job) : Job :=
  if j.expedite || j.exposed then j else { j with creditsLeft := min j.creditsLeft j.hotCredits }

/-- GUARD_HOT (R148): the hold count is loaded, the sense count cleared, credits are cut, and a publish is asked for. -/
def execGuardHot (s : State) : Host.Outcome State Fault Refusal :=
  if s.guard.due = some .hot then
    ({ s with
        guard := { state := .hot, sense := 0, hold := s.settings.minimumHold, due := none }
        jobs := bankMap Job.cutHot s.jobs } : State).askPublish.done
  else .next s

/-- GUARD_COOL (R148): both counts are cleared, and a publish is asked for. -/
def execGuardCool (s : State) : Host.Outcome State Fault Refusal :=
  if s.guard.due = some .cool then
    ({ s with guard := { state := .cool, sense := 0, hold := 0, due := none } } : State).askPublish.done
  else .next s

end Sys2Proof.Machine
end

