-- ==== Sys2Proof/Machine/Ports.lean ====
section
/-! DEFINITION. Machine/Ports.lean: the events of the member ports: replies, expiries, link events, issues, and the
MEMBER slip (R20, R21, R27 to R33, R36 to R39). -/

namespace Sys2Proof.Machine

/-! ## Endings -/

/-- A slot of a port emptied. -/
def State.freeSlot (s : State) (p : PortId) (slot : Tag) : State :=
  s.withPort p fun x => { x with slots := x.slots.set slot.val none slot.isLt }

/-- The owner of a READ receives a reply with contents; the offsets of `unreadable` are those of the row (R29). -/
def State.deliverRead (s : State) (p : PortId) (r : Request) (ending : Ending) (contents : List Block) : State :=
  match r.owner with
  | some c => s.withOperation c (Operation.takeRead p r ending contents)
  | none => s

/-- A reply GOOD to an outstanding request (R29, R30, R32, R33). Where one to a WRITE clears a stall, the owner's next run
joins the pending list before the arbiter of the clearing runs, which is the model's choice (log 61). -/
def State.replyGood (s : State) (p : PortId) (r : Request) (contents : List Block) : State :=
  match r.kind with
  | .read => (s.deliverRead p r .good contents).clearStall p
  | .probe => s.clearStall p
  | .write =>
    let s := if r.repair then s.withPort p fun x => { x with repairs := x.repairs + BitVec.ofNat 32 r.count } else s
    (s.deliverWritten p r).clearStall p

/-- A reply UNREADABLE to an outstanding READ or PROBE (R29, R32, R40). -/
def State.replyUnreadable (s : State) (p : PortId) (r : Request) (offsets : List Nat) (contents : List Block) : State :=
  let s := s.withPort p fun x => { x with unreadableBlocks := x.unreadableBlocks + BitVec.ofNat 32 offsets.length }
  match r.kind with
  | .read => (s.deliverRead p r (.unreadable (offsets.map fun o => r.offset + o)) contents).clearStall p
  | .probe => s.clearStall p
  | .write => s

/-- A request that ended without being carried out: a READ or PROBE is evidence of a stall, a WRITE a write failure
(R29 to R32). `slot` is the slot just freed. -/
def State.endUnanswered (s : State) (p : PortId) (slot : Tag) (r : Request) (ending : Ending) : State :=
  let s := s.deliverFailure p r ending
  match r.kind with
  | .write => s.writeFailure p
  | .read => if (s.port p).memberState.carries then s.stallEvidence p slot r.memberBlock else s
  | .probe => if (s.port p).memberState.carries then s.stallEvidence p slot r.memberBlock else s

/-- The outstanding request that a reply names (R21). -/
def Port.named (x : Port) (reply : Reply) : Option Outstanding :=
  match x.slots[reply.tag.val] with
  | some o => if o.issue = reply.issue then some o else none
  | none => none

/-- A late reply (R21, R33): it is counted, and clears a stall whatever it carries. -/
def State.lateReply (s : State) (p : PortId) : State :=
  (s.withPort p fun x => { x with lateReplies := x.lateReplies + 1 }).clearStall p

/-- DRIVE_REPLY (R21): the reply is normalised and ends the request it names, or is late. -/
def execDriveReply (p : PortId) (reply : Reply) (s : State) : Host.Outcome State Fault Refusal :=
  match (s.port p).named reply with
  | none => (s.lateReply p).done
  | some o =>
    let r := o.request
    let s := s.freeSlot p reply.tag
    match normalise r.kind r.count reply.outcome with
    | .good contents => (s.replyGood p r contents).done
    | .unreadable offsets contents => (s.replyUnreadable p r offsets contents).done
    | .notReady => (s.endUnanswered p reply.tag r .notReady).done
    | .writeFault => (s.endUnanswered p reply.tag r .writeFault).done

/-- LAPSE (R28): a request whose ticks left is 0 ends LAPSED, its slot is freed, and the lapses counter rises. -/
def execLapse (p : PortId) (slot : Tag) (s : State) : Host.Outcome State Fault Refusal :=
  match (s.port p).slots[slot.val] with
  | none => .next s
  | some o =>
    if o.ticksLeft = 0 then
      (((s.freeSlot p slot).withPort p fun x => { x with lapses := x.lapses + 1 }).endUnanswered p slot o.request
        .lapsed).done
    else .next s

/-- REQUEST_ISSUE (R27): the arbiter issues one pending request into the lowest free slot. -/
def execRequestIssue (p : PortId) (s : State) : Host.Outcome State Fault Refusal :=
  match s.issueOne p with
  | some s' => s'.done
  | none => .next s

/-! ## Link events (R36) -/

/-- LINK_UP: the link is recorded UP; no member state changes. -/
def execLinkUp (p : PortId) (s : State) : Host.Outcome State Fault Refusal :=
  (s.withPort p fun x => { x with link := .up }).askPublish.done

/-- LINK_DOWN: an ONLINE or TARGET member becomes FAILED, a SPARE or RELEASED one ABSENT, and every request on the port
ends in link loss. -/
def execLinkDown (p : PortId) (s : State) : Host.Outcome State Fault Refusal :=
  let s := (s.withPort p fun x => { x with link := .down }).askPublish
  match (s.port p).memberState with
  | .online | .target => (s.failMember p).done
  | .spare | .released => ((s.loseRequests p).changeMember p .absent).done
  | .absent | .failed => (s.loseRequests p).done

/-! ## MEMBER -/

/-- The port's position is a source position of a job on its extent (R39 check 2). -/
def State.isSource (s : State) (e : ExtentId) (p : PortId) : Bool :=
  match s.jobOn e, (s.extent e).positionOf p with
  | some j, some position => (s.job j).sources.any fun x => x.position == position
  | _, _ => false

/-- The refusal of a change of member state, if it is refused (R38, R39). -/
def State.memberRefusal (s : State) (p : PortId) (new : MemberState) : Option Reason :=
  let present : Option Reason := if (s.port p).link = .up then none else some .notPresent
  match (s.port p).memberState, new, s.extentOfPort p with
  | .absent, .spare, none => present
  | .absent, .spare, some _ => some .memberConflict
  | .spare, .absent, _ => none
  | .released, .spare, _ => present
  | .released, .absent, _ => none
  | .failed, .absent, none => none
  | .failed, .spare, none => present
  | .failed, .absent, some _ => some .memberConflict
  | .failed, .spare, some _ => some .memberConflict
  | .online, .failed, _ => none
  | .absent, .online, some e => present.or (if s.isSource e p then some .memberConflict else none)
  | .failed, .online, some e => present.or (if s.isSource e p then some .memberConflict else none)
  | _, _, _ => some .wrongState

/-- The answer body of a MEMBER slip (R37). -/
def State.memberBody (s : State) (p : PortId) (before : MemberState) : List BodyField :=
  let x := s.port p
  [field1 before.code, field1 x.memberState.code, field1 x.link.code, field1 (flagCode x.stalled), field1 x.lapseCount,
   fieldOption 1 ((s.extentOfPort p).map Fin.val), field4 x.lapses.toNat, field4 x.lateReplies.toNat,
   field4 x.unreadableBlocks.toNat, field4 x.repairs.toNat, field4 x.probes.toNat]

/-- MEMBER (R37): judged by R38 or R39, applied if accepted, and answered in the same step. Where a member made FAILED makes
an extent LOST under a PAUSING job, the PAUSE is answered FAILED (R98) before the MEMBER slip, which is the model's choice
(log 72). -/
def execMember (tag : BitVec 64) (body : SlipBody) (s : State) : Host.Outcome State Fault Refusal :=
  match s.takeSlip tag with
  | none => .next s
  | some (i, s) =>
    match memberFields body with
    | none => (s.refuse i .badField).done
    | some (p, new) =>
      let before := (s.port p).memberState
      if before = new then (s.answer i .good .none (s.memberBody p before)).done
      else match s.memberRefusal p new with
        | some reason => (s.refuse i reason).done
        | none =>
          let s := if new = .failed then s.failMember p else s.changeMember p new
          (s.answer i .good .none (s.memberBody p before)).done

end Sys2Proof.Machine
end

