-- ==== Sys2Proof/Machine/Registers.lean ====
section
/-! DEFINITION. Machine/Registers.lean: the register window: what its registers read, and the commands that its writes
are, the meaning of the resets apart (R151, R156, R160, R161). -/

namespace Sys2Proof.Machine

/-- What an 8-byte register reads, by its offset in the window (R160). -/
def State.registerAt (s : State) (offset : Nat) : BitVec 64 :=
  match offset with
  | 0x00 => BitVec.ofNat 64 (Config.partCode + Config.revision * 65536)
  | 0x08 => BitVec.ofNat 64 s.board.engine.code
  | 0x10 => s.board.base
  | 0x18 => if s.board.sweep.isSome || s.board.sweepPending then 1 else 0
  | 0x20 => s.board.causes.zeroExtend 64
  | 0x28 => s.board.enables.zeroExtend 64
  | 0x30 => s.board.enables.zeroExtend 64
  | _ => 0

/-- The byte of the register window at an offset, least significant byte of a register first (R151); an offset outside
00h to 37h reads zero. -/
def State.windowByte (s : State) (offset : Nat) : Byte :=
  ((bytesOf 8 (s.registerAt (offset / 8 * 8)).toNat)[offset % 8]?).getD 0

/-- What a read of `size` bytes, 4 or 8, at an offset of the register window returns (R160). A read that is not aligned to
its size, and so may reach two registers, returns the bytes of both, which is the model's choice (log 69). -/
def State.readRegister (s : State) (offset size : Nat) : Nat :=
  valueOf ((List.range size).map fun i => s.windowByte (offset + i))

/-- The value of BOARD BASE after an access (R151; log 19): the bytes reached take the value written, and the low 12
bits are taken as zero. -/
def boardBaseAfter (old value : BitVec 64) : RegisterAccess → BitVec 64
  | .whole => value &&& ~~~0xFFF
  | .lowHalf => ((old &&& ~~~0xFFFFFFFF) ||| (value &&& 0xFFFFFFFF)) &&& ~~~0xFFF
  | .highHalf => ((old &&& 0xFFFFFFFF) ||| (value <<< 32)) &&& ~~~0xFFF

/-- RUN (R161): with a base, STOPPED becomes RUNNING; the quiesced mark is cleared, the page published, and a pending
sweep begun. Where a sweep stopped before still has its access in progress, the flag stays, and the new sweep begins
when that one ends, which is the model's choice (log 68). The start condition of a request that was accepted in STOPPED is
tested (log 23). In every other state it is ignored. -/
def execRun (s : State) : Host.Outcome State Fault Refusal :=
  if s.board.engine = .stopped ∧ s.board.base ≠ 0 then
    ((s.withBoard fun b =>
      let b := { b with engine := .running, quiesced := false, owed := false, publishAsked := true }
      if b.sweepPending = true ∧ b.sweep = none then Board.beginSweep { b with sweepPending := false } else b).withRequests
        fun l => l.map (ForegroundRequest.testPieces .running)).done
  else .next s

/-- QUIESCE (R161): RUNNING becomes QUIESCING, and a sweep ends after its access in progress (R156). -/
def execQuiesce (s : State) : Host.Outcome State Fault Refusal :=
  if s.board.engine = .running then
    (s.withBoard fun b => Board.stopSweep { b with engine := .quiescing, publishAsked := true }).done
  else .next s

/-- BOARD_BASE (R151): taken only while the engine is STOPPED. -/
def execBoardBase (access : RegisterAccess) (value : BitVec 64) (s : State) : Host.Outcome State Fault Refusal :=
  if s.board.engine = .stopped then
    .next (s.withBoard fun b => { b with base := boardBaseAfter b.base value access })
  else .next s

/-- SWEEP (R156, R160): 1 in bit 0 is a sweep request. -/
def execSweep (value : BitVec 64) (s : State) : Host.Outcome State Fault Refusal :=
  if value.getLsbD 0 then (s.withBoard Board.requestSweep).done else .next s

/-- ATTENTION (R160): each 1 clears that cause. -/
def execAttention (value : BitVec 64) (s : State) : Host.Outcome State Fault Refusal :=
  .next (s.withBoard fun b => b.clearCauses (causeBits value))

/-- ENABLE_SET (R160): each 1 enables that cause. -/
def execEnableSet (value : BitVec 64) (s : State) : Host.Outcome State Fault Refusal :=
  .next (s.withBoard fun b => b.enableCauses (causeBits value))

/-- ENABLE_CLEAR (R160): each 1 disables that cause. -/
def execEnableClear (value : BitVec 64) (s : State) : Host.Outcome State Fault Refusal :=
  .next (s.withBoard fun b => b.disableCauses (causeBits value))

/-- The command that a write of `size` bytes, 4 or 8, at an offset of the register window is (R160). CONTROL acts by its
byte 0, and SWEEP, ATTENTION and the enables by bits of their lower half, so that a write of an upper half alone is ignored
but at BOARD BASE (log 19). That a write which is not aligned to its size is ignored is the model's choice (log 69). -/
def registerCommand (offset size : Nat) (value : BitVec 64) : Instr :=
  match offset with
  | 0x08 =>
    match value.toNat % 256 with
    | 1 => .run
    | 2 => .quiesce
    | 3 => .reset
    | _ => .registerWriteIgnored offset value
  | 0x10 => .boardBase (if size = 8 then .whole else .lowHalf) value
  | 0x14 => if size = 4 then .boardBase .highHalf value else .registerWriteIgnored offset value
  | 0x18 => .sweep value
  | 0x20 => .attention value
  | 0x28 => .enableSet value
  | 0x30 => .enableClear value
  | _ => .registerWriteIgnored offset value

/-- REGISTER_WRITE_IGNORED (R160): the write changes nothing, wherever it goes. -/
def execRegisterWriteIgnored (offset : Nat) (value : BitVec 64) (s : State) : Host.Outcome State Fault Refusal :=
  match offset, value with
  | _, _ => .next s

end Sys2Proof.Machine
end

