-- ==== Sys2Proof/Machine/Resets.lean ====
section
/-! DEFINITION. Machine/Resets.lean: power-on reset, and the engine reset that RESET and a link reset cause (R24, R57,
R82, R84, R107, R109, R126, R137, R149, R163). -/

namespace Sys2Proof.Machine

/-- POWER_ON_RESET (R163): every block goes to its initial state; the commands waiting stay. -/
def execPowerOnReset (s : State) : Host.Outcome State Fault Refusal :=
  .next { State.reset with pending := s.pending }

/-! ## Engine reset -/

/-- A port after an engine reset (R24). -/
def Port.engineReset (p : Port) : Port :=
  { p with stalled := false, lapseCount := 0, slots := Vector.replicate 8 none, waiting := [], stallBlock := 0 }

/-- A row put in ascending order of extent and row, once (R81, R82). -/
def insertLive (x : ExtentId × Nat) : List (ExtentId × Nat) → List (ExtentId × Nat)
  | [] => [x]
  | y :: rest =>
    if x = y then y :: rest
    else if x.1.val < y.1.val ∨ (x.1 = y.1 ∧ x.2 < y.2) then x :: y :: rest
    else y :: insertLive x rest

/-- The live set (R81): the rows of the contexts whose written mark is set, ascending, each once. -/
def State.liveSet (s : State) : List (ExtentId × Nat) :=
  (s.operations.filter fun x => x.2.written).foldl (fun l x => insertLive (x.2.extent, x.2.row) l) []

/-- The published list with the live rows inserted, one at a time (R82). -/
def State.unsettledAfterReset (s : State) : List UnsettledEntry :=
  s.liveSet.foldl (fun l x => insertUnsettled s.lastRows x.1 x.2 l) s.rows.unsettled

/-- A job record after an engine reset, its targets apart (R107). `now` is the tick counter before it returns to 0
(log 21). -/
def Job.engineReset (now : Stamp) (j : Job) : Job :=
  match j.state with
  | .free => j
  | .ended => j
  | .aborting =>
    { j with state := .ended, endCause := j.drainCause, endStamp := now, exposed := false, window := [], inFlight := [],
             answering := none, control := none }
  | .starting | .running | .pausing | .paused =>
    { j with state := .paused, nextRow := j.frontier, window := [], inFlight := [], laneCount := j.lanesWanted,
             creditsLeft := 0, drainCount := 0, answering := none, control := none }

/-- The targets of the jobs that an engine reset ends, still TARGET: they become SPARE (R107; log 71). -/
def State.resetTargets (s : State) : List PortId :=
  (s.jobs.toArray.toList.filter fun j => j.state == .aborting).flatMap fun j =>
    j.ownTargets.filter fun t => (s.port t).memberState == .target

/-- The board unit after an engine reset (R163): the writes in progress are cut short, and what had reached the board of
them stands there (R166, R167). -/
def Board.engineReset (kind : ResetKind) (b : Board) : Board :=
  { b.cutShort false with
    causes := 0, engine := .stopped, quiesced := false, roundPointer := 0, taken := [], sweep := none,
    sweepPending := false, deferred := false, answers := [], writing := none, publishing := none, owed := false,
    publishAsked := false, resetKind := kind, clean := b.engine == .stopped && b.quiesced,
    abandoned := b.taken.length }

/-- The completions that are due taken, in job order: the last row of such a job ended before the reset, and what was
taken before it stands (R108). -/
def State.completeDue (s : State) : State :=
  (bankIndices 4).foldl (fun s j => if (s.job j).completes then s.completeJob j else s) s

/-- An engine reset (R163): the live rows join the unsettled-row list, due completions stand, work in flight is
discarded, the other jobs are orphaned or ended, and the slips are forgotten. -/
def State.engineReset (kind : ResetKind) (s : State) : State :=
  let ended := s.completeDue
  let cleared : State :=
    { ended with
      rows := { contexts := Vector.replicate 24 none, contextWait := [], frameWait := [],
                unsettled := s.unsettledAfterReset }
      solver := { busy := none, queue := [] }
      holds := { entries := [], granted := [] }
      requests := []
      ports := bankMap Port.engineReset ended.ports
      losses := { s.losses with transfers := [] } }
  let spared := ended.resetTargets.foldl (fun s t => s.changeMember t .spare) cleared
  { spared with
    jobs := bankMap (Job.engineReset s.stamp) spared.jobs
    time := { tick := 0, sweepTimer := 0, periodCounter := 0, restartDue := false }
    guard := { state := .cool, sense := 0, hold := 0, due := none }
    board := s.board.engineReset kind }

/-- RESET (R161): an engine reset of kind COMMAND in every engine state. -/
def execReset (s : State) : Host.Outcome State Fault Refusal := .next (s.engineReset .command)

/-- LINK_RESET (R161): an engine reset of kind LINK in every engine state. -/
def execLinkReset (s : State) : Host.Outcome State Fault Refusal := .next (s.engineReset .link)

end Sys2Proof.Machine
end

