-- ==== Sys2Proof/Machine/Planning.lean ====
section
/-! DEFINITION. Machine/Planning.lean: where a row operation's outputs go, and how it plans (R61, R64, R72, R73, R75,
R77, R79). -/

namespace Sys2Proof.Machine

/-! ## What the operation knows of its row -/

/-- The job of a REBUILD_ROW. -/
def Operation.ownJob (op : Operation) : Option JobId :=
  match op.owner with
  | .job j => some j
  | .slip _ _ => none

/-- The offsets of a position that reads of the current plan reported unreadable (R65). -/
def Operation.unreadableAt (op : Operation) (p : Nat) : List Nat :=
  rowOffsets.filter fun t => op.results.any fun r => r.position == p && r.ending.unreadable?.contains t

/-- The offsets that a port's own reads reported unreadable: a write of one carries the repair mark (R70). -/
def Operation.repairAt (op : Operation) (port : PortId) (p : Nat) : List Nat :=
  rowOffsets.filter fun t => op.results.any fun r =>
    r.position == p && r.port == port && r.ending.unreadable?.contains t

/-- A read of the position failed in the current plan (R65). -/
def Operation.failedAt (op : Operation) (p : Nat) : Bool :=
  op.results.any fun r => r.position == p && !r.ending.answered

/-- The position is in the erasure set of offset `t` (R45). -/
def Operation.erased (op : Operation) (t p : Nat) : Bool :=
  op.plan.unavailable.contains p || op.failedAt p || (op.unreadableAt p).contains t

/-- The erasure set E(t), as positions (R45). -/
def Operation.erasures (e : Extent) (op : Operation) (t : Nat) : List Nat := e.positions.filter (op.erased t)

/-- The offset is unsolvable: more positions are erased there than the extent has parity (R45). -/
def Operation.unsolvable (e : Extent) (op : Operation) (t : Nat) : Bool :=
  decide (e.parityCount < (op.erasures e t).length)

/-- The covered, or requested, offsets of a position (R58). -/
def Operation.requestedAt (e : Extent) (op : Operation) (p : Nat) : List Nat :=
  match e.dataIndex (e.stripeOf op.row) p with
  | none => []
  | some j => rowOffsets.filter fun t => op.requested.any fun r =>
      r.strip == j && decide (r.first ≤ t) && decide (t < r.first + r.count)

/-- A position covered at all sixteen offsets (R77). -/
def Operation.whollyCovered (e : Extent) (op : Operation) (p : Nat) : Bool := (op.requestedAt e p).length == 16

/-- The target of the operation's own job for a position (R64). -/
def State.ownTarget (s : State) (op : Operation) (p : Nat) : Option PortId :=
  match op.ownJob with
  | none => none
  | some j => match (s.job j).targetOf p with
    | none => none
    | some t => if (s.port t).memberState = .target then some t else none

/-- The target that a WRITE_ROW or RESYNC_ROW decided to write for a position (R64). -/
def Operation.decided (op : Operation) (p : Nat) : Option PortId :=
  (((op.decision.getD []).find? fun x => x.1 == p)).map Prod.snd

/-- The decided target of a position as long as it is the TARGET of the job on the extent (R64). -/
def State.decidedTarget (s : State) (op : Operation) (p : Nat) : Option PortId :=
  match op.decided p, s.jobOn op.extent with
  | some t, some j =>
    if (s.port t).memberState = .target ∧ (s.job j).targetOf p = some t then some t else none
  | _, _ => none

/-- The port of the target list at a position when it is ONLINE, stalled or not (R64). -/
def State.onlinePort (s : State) (op : Operation) (p : Nat) : Option PortId :=
  match s.listedPort op.extent p with
  | none => none
  | some q => if (s.port q).memberState = .online then some q else none

/-- The offsets that the operation writes to the target-list port `q` of position `p`: the repairs and closed parity of
a REBUILD_ROW (R72, R73), the restored blocks of a READ_ROW (R76), the covered run, parity and repairs of a WRITE_ROW,
whole when `q` was decided on as a target (R77, R78, R85), and the parity of a RESYNC_ROW (R79). -/
def Operation.listedOffsets (e : Extent) (op : Operation) (q : PortId) (p : Nat) : List Nat :=
  let parity := e.isParity (e.stripeOf op.row) p
  match op.kind with
  | .rebuildRow => rowOffsets.filter fun t => (op.repairAt q p).contains t || (parity && op.closed.contains t)
  | .readRow => rowOffsets.filter fun t =>
      (op.repairAt q p).contains t &&
        op.record.any fun r => r.position == p && r.offset == t && r.origin == .solved
  | .writeRow =>
    if parity || op.decided p == some q then rowOffsets
    else rowOffsets.filter fun t => (op.requestedAt e p).contains t || (op.repairAt q p).contains t
  | .resyncRow => if parity then rowOffsets else []

/-- The offsets that the operation writes to the job's target for position `p`: its whole strip; a RESYNC_ROW writes
parity only (R72, R78, R79). -/
def Operation.targetOffsets (e : Extent) (op : Operation) (p : Nat) : List Nat :=
  match op.kind with
  | .rebuildRow => rowOffsets
  | .readRow => []
  | .writeRow => rowOffsets
  | .resyncRow => if e.isParity (e.stripeOf op.row) p then rowOffsets else []

/-- The job's target that receives position `p`, by the kind of operation (R64). -/
def State.targetPort (s : State) (op : Operation) (p : Nat) : Option PortId :=
  match op.kind with
  | .rebuildRow => s.ownTarget op p
  | .readRow => none
  | .writeRow => s.decidedTarget op p
  | .resyncRow => s.decidedTarget op p

/-- Where the operation's writes go as the member states stand: port, position and offsets (R64, R70). A write port that
receives no offset is none here: so the ONLINE port of a decided source position without covered blocks, though stalled,
sends no WRITE_ROW to AWAIT_MEMBER, which is the model's choice (log 62). -/
def State.destinations (s : State) (op : Operation) : List (PortId × Nat × List Nat) :=
  let e := s.extent op.extent
  (e.positions.flatMap fun p =>
    ((s.onlinePort op p).toList.map fun q => (q, p, op.listedOffsets e q p)) ++
      ((s.targetPort op p).toList.map fun t => (t, p, op.targetOffsets e p))).filter fun d => !d.2.2.isEmpty

/-! ## The target decision -/

/-- The source positions of the job on an extent whose row is rebuilt, with their targets (R64). -/
def State.targetDecision (s : State) (e : ExtentId) (row : Nat) : List (Nat × PortId) :=
  match s.jobOn e with
  | none => []
  | some j => if (s.job j).isRebuilt row then (s.job j).sources.map fun x => (x.position, x.target) else []

/-! ## Read sets -/

/-- The run of a list of offsets, from the lowest to the highest. -/
def spanOf (p : Nat) (offsets : List Nat) : List ReadWant :=
  match offsets with
  | [] => []
  | t :: rest =>
    let low := rest.foldl min t
    let high := rest.foldl max t
    [{ position := p, first := low, count := high + 1 - low }]

/-- A run of all sixteen offsets. -/
def wholeStrip (p : Nat) : ReadWant := { position := p, first := 0, count := 16 }

/-- Two runs of one position joined to the span of both (R75). -/
def ReadWant.join (a b : ReadWant) : ReadWant :=
  let low := min a.first b.first
  { position := a.position, first := low, count := max (a.first + a.count) (b.first + b.count) - low }

/-- A run added to a read set. -/
def addWant (w : ReadWant) : List ReadWant → List ReadWant
  | [] => [w]
  | x :: rest => if x.position = w.position then x.join w :: rest else x :: addWant w rest

/-- The union of two read sets. -/
def unionWants (a b : List ReadWant) : List ReadWant := b.foldl (fun l w => addWant w l) a

/-- The listed blocks among the requested ones of a READ_ROW, as position and offset (R75, R129). -/
def State.listedBlocks (s : State) (op : Operation) : List (Nat × Nat) :=
  let e := s.extent op.extent
  (e.dataPositions op.row).flatMap fun p => (op.requestedAt e p).filterMap fun t =>
    match e.arrayBlockAt op.row p t with
    | none => none
    | some a =>
      if isListed e.arrayLimit op.extent a s.losses.entries then some (p, t) else none

/-- The unlisted requested offsets of a position (R75). -/
def unlistedAt (e : Extent) (op : Operation) (listed : List (Nat × Nat)) (p : Nat) : List Nat :=
  (op.requestedAt e p).filter fun t => !listed.contains (p, t)

/-- The offsets that a READ_ROW must produce, those of its unlisted requested blocks (R75). -/
def servedOffsets (e : Extent) (op : Operation) (listed : List (Nat × Nat)) : List Nat :=
  rowOffsets.filter fun t => (e.dataPositions op.row).any fun p => (unlistedAt e op listed p).contains t

/-- Some unlisted requested block at offset `t` was found erased where the offset is solvable, so that its restoring calls
on the other blocks there (R46 to R48, R66). -/
def callsAt (e : Extent) (op : Operation) (listed : List (Nat × Nat)) (t : Nat) : Bool :=
  !op.unsolvable e t &&
    (e.dataPositions op.row).any fun p => op.erased t p && (unlistedAt e op listed p).contains t

/-- A READ_ROW keeps offset `t` of a position in the read set that it carries: nothing of a strip whose requested blocks
are all listed by now, and no listed block, unless a block to be restored there calls on it (R75, R129; log 11). -/
def keepsCarried (e : Extent) (op : Operation) (listed : List (Nat × Nat)) (p t : Nat) : Bool :=
  callsAt e op listed t ||
    (!listed.contains (p, t) && ((op.requestedAt e p).isEmpty || !(unlistedAt e op listed p).isEmpty))

/-- The read set that the operation carries from an earlier plan (R66; log 11). A READ_ROW consults the loss list anew at
each plan, and keeps of it only offsets that it still must produce, by `keepsCarried`. -/
def carriedReads (e : Extent) (op : Operation) (listed : List (Nat × Nat)) : List ReadWant :=
  if op.kind = .readRow then
    op.carried.flatMap fun w => spanOf w.position ((servedOffsets e op listed).filter fun t =>
      decide (w.first ≤ t ∧ t < w.first + w.count) && keepsCarried e op listed w.position t)
  else op.carried

/-- The reconstruct read set (R72): every available position holding data, P when available, and Q when two or more
positions are unavailable. -/
def reconstructReads (e : Extent) (row : Nat) (unavailable : List Nat) : List ReadWant :=
  let s := e.stripeOf row
  let free := fun p => !unavailable.contains p
  ((e.dataPositions row).filter free ++ [e.pPosition s].filter free ++
    (if 2 ≤ unavailable.length then (e.qPosition s).toList.filter free else [])).map wholeStrip

/-- The read set that R75 gives a READ_ROW. -/
def readReads (e : Extent) (op : Operation) (unavailable : List Nat) (listed : List (Nat × Nat)) : List ReadWant :=
  let s := e.stripeOf op.row
  let free := fun p => !unavailable.contains p
  let data := e.dataPositions op.row
  let own := (data.filter free).flatMap fun p => spanOf p (unlistedAt e op listed p)
  let reconstruct := (data.filter fun p => !free p).flatMap (unlistedAt e op listed)
  let others := data.filter free ++ [e.pPosition s].filter free ++
    (if 2 ≤ unavailable.length then (e.qPosition s).toList.filter free else [])
  unionWants own (others.flatMap fun p => spanOf p reconstruct)

/-- The read set that R77 gives a WRITE_ROW. -/
def writeReads (e : Extent) (op : Operation) (unavailable : List Nat) : List ReadWant :=
  let s := e.stripeOf op.row
  let free := fun p => !unavailable.contains p
  let partial_ := (e.dataPositions op.row).filter fun p => !op.whollyCovered e p
  let missing := (partial_.filter fun p => !free p).length
  (partial_.filter free ++ (if 1 ≤ missing then [e.pPosition s].filter free else []) ++
    (if 2 ≤ missing then (e.qPosition s).toList.filter free else [])).map wholeStrip

/-- The operation's job is in COPY mode and its outgoing member is ONLINE and not stalled: the row is planned as a copy
row, of this source position (R73). -/
def State.copySource (s : State) (op : Operation) : Option Nat :=
  match op.ownJob with
  | none => none
  | some j =>
    match (s.job j).mode, (s.job j).outgoing, (s.job j).sources with
    | .copy, some q, x :: _ => if (s.port q).serves then some x.position else none
    | _, _, _ => none

/-- The read set of R73: the outgoing strip, and after a re-plan the reconstruct read set with it. -/
def copyReads (e : Extent) (op : Operation) (source : Nat) (unavailable : List Nat) : List ReadWant :=
  if op.carried.any fun w => w.position != source then
    unionWants (reconstructReads e op.row unavailable) [wholeStrip source]
  else [wholeStrip source]

/-- The read set of the operation's kind (R64 step 6). -/
def State.kindReads (s : State) (op : Operation) (unavailable : List Nat) (listed : List (Nat × Nat)) :
    List ReadWant :=
  let e := s.extent op.extent
  match op.kind with
  | .rebuildRow => match s.copySource op with
    | some p => copyReads e op p unavailable
    | none => reconstructReads e op.row unavailable
  | .readRow => readReads e op unavailable listed
  | .writeRow => writeReads e op unavailable
  | .resyncRow => (e.dataPositions op.row).map wholeStrip

/-- The outputs of the operation's kind (R64 step 4). -/
def State.kindOutputs (s : State) (op : Operation) (unavailable : List Nat) (listed : List (Nat × Nat)) :
    List PlanOutput :=
  let e := s.extent op.extent
  match op.kind with
  | .rebuildRow => match op.ownJob with
    | none => []
    | some j => (s.job j).sources.map fun x => { position := x.position, offsets := rowOffsets }
  | .readRow => (e.dataPositions op.row).filterMap fun p =>
      let ts := unlistedAt e op listed p
      if unavailable.contains p && !ts.isEmpty then some { position := p, offsets := ts } else none
  | .writeRow => e.positions.filterMap fun p =>
      if e.isParity (e.stripeOf op.row) p || (op.decided p).isSome then
        some { position := p, offsets := rowOffsets }
      else if (op.requestedAt e p).isEmpty then none
      else some { position := p, offsets := op.requestedAt e p }
  | .resyncRow => (e.parityPositions op.row).map fun p => { position := p, offsets := rowOffsets }

/-- The positions to which a plan gives a frame, each once (R61). -/
def Plan.framePositions (plan : Plan) : List Nat :=
  (plan.reads.map PlanRead.position ++ plan.outputs.map PlanOutput.position ++ plan.reservedQ.toList).dedup

/-- The frame need of a plan (R61). -/
def Plan.frameNeed (plan : Plan) : Nat := plan.framePositions.length

/-- The reserved Q frame: on DOUBLE, when Q is available and neither read nor an output. A plan without reads and
outputs reserves nothing (R61, R75). -/
def reservedFrame (e : Extent) (row : Nat) (unavailable : List Nat) (reads : List PlanRead)
    (outputs : List PlanOutput) : Option Nat :=
  if reads.isEmpty && outputs.isEmpty then none
  else match e.qPosition (e.stripeOf row) with
    | none => none
    | some q =>
      if unavailable.contains q || reads.any (fun r => r.position == q) || outputs.any (fun o => o.position == q) then
        none
      else some q

/-- What planning comes to (R64). -/
inductive PlanResult where
  | ended (outcome : RowOutcome)
  | await (ports : List PortId)
  | ready (plan : Plan)
deriving DecidableEq, Repr

/-- Planning (R64), with the state as it stands. The read set is that of the kind together with the one that the
operation carries from an earlier plan, less the positions unavailable now (R66). -/
def State.makePlan (s : State) (op : Operation) : PlanResult :=
  match s.boundary op with
  | some o => .ended o
  | none =>
    let e := s.extent op.extent
    let unavailable := e.positions.filter fun p => !s.available op.extent p op.row
    if op.kind = .resyncRow ∧ (e.dataPositions op.row).any unavailable.contains then .ended .skipped
    else
      let fresh := { op with closed := [], results := [], record := [], plan := Plan.none }
      let stalled := ((s.destinations fresh).map Prod.fst).filter fun q => (s.port q).stalled
      if op.kind ≠ .readRow ∧ stalled ≠ [] then .await stalled.dedup
      else
        let listed := if op.kind = .readRow then s.listedBlocks op else []
        let wants := unionWants (s.kindReads op unavailable listed) (carriedReads e op listed)
        let reads := wants.filterMap fun w =>
          (s.servingPort op.extent w.position op.row).map fun q =>
            ({ position := w.position, port := q, first := w.first, count := w.count } : PlanRead)
        let outputs := s.kindOutputs op unavailable listed
        .ready
          { reads := reads, outputs := outputs, reservedQ := reservedFrame e op.row unavailable reads outputs,
            copy := op.kind == .rebuildRow && (s.copySource op).isSome, unavailable := unavailable, listed := listed }

end Sys2Proof.Machine
end

