-- ==== Sys2Proof/Machine/Solving.lean ====
section
/-! DEFINITION. Machine/Solving.lean: what a row's reads left erased and what its solve gives, as functions of the
operation (R44 to R51, R55, R66, R67, R74, R76, R78). -/

namespace Sys2Proof.Machine

/-! ## Parity arithmetic over one block offset (R44, R46 to R48) -/

/-- The data indices below `k` that are not in `skip`. -/
def indicesExcept (k : Nat) (skip : List Nat) : List Nat := (List.range k).filter fun j => !skip.contains j

/-- The sum of every data block but those in `skip`. -/
def dataSum (k : Nat) (skip : List Nat) (d : Nat → Block) : Block := Block.sum ((indicesExcept k skip).map d)

/-- The sum of every data block but those in `skip`, each weighted by the power of g of its data index. -/
def weightedSum (k : Nat) (skip : List Nat) (d : Nat → Block) : Block :=
  Block.sum ((indicesExcept k skip).map fun j => Block.scale (gPow j) (d j))

/-- P of the data blocks (R44). -/
def parityP (k : Nat) (d : Nat → Block) : Block := dataSum k [] d

/-- Q of the data blocks (R44). -/
def parityQ (k : Nat) (d : Nat → Block) : Block := weightedSum k [] d

/-- Dx from P and the other data (R46, R47). -/
def restoreFromP (k x : Nat) (p : Block) (d : Nat → Block) : Block := p.xor (dataSum k [x] d)

/-- Dx from Q and the other data (R47). -/
def restoreFromQ (k x : Nat) (q : Block) (d : Nat → Block) : Block :=
  Block.scale (gPowNeg x) (q.xor (weightedSum k [x] d))

/-- Dx of two erased strips Dx and Dy (R48 steps 1 to 3). -/
def restoreLower (k x y : Nat) (p q : Block) (d : Nat → Block) : Block :=
  let pxy := p.xor (dataSum k [x, y] d)
  let qxy := q.xor (weightedSum k [x, y] d)
  (qxy.xor (Block.scale (gPow y) pxy)).divide (gPow x ^^^ gPow y)

/-- Dy of two erased strips Dx and Dy (R48 step 4). -/
def restoreUpper (k x y : Nat) (p q : Block) (d : Nat → Block) : Block :=
  (p.xor (dataSum k [x, y] d)).xor (restoreLower k x y p q d)

/-- The value that R46 to R48 restore for data index `x`, `erased` being the erased data indices of the offset in
ascending order and `noP` saying that P is erased as well. -/
def restoreData (k : Nat) (erased : List Nat) (noP : Bool) (p q : Block) (d : Nat → Block) (x : Nat) : Block :=
  match erased with
  | [a, b] => if x = a then restoreLower k a b p q d else restoreUpper k a b p q d
  | _ => if noP then restoreFromQ k x q d else restoreFromP k x p d

/-! ## Erasures -/

/-- The strip of a position was read at offset `t` in the current plan (R45). -/
def Operation.readAt (op : Operation) (t p : Nat) : Bool :=
  op.results.any fun r => r.position == p && decide (r.first ≤ t) && decide (t < r.first + r.count)

/-- The block at offset `t` of position `p` is covered by new data (R49). -/
def Operation.covers (e : Extent) (op : Operation) (t p : Nat) : Bool :=
  op.kind == .writeRow && (op.requestedAt e p).contains t

/-- A position has an output at offset `t` in the plan. -/
def Plan.outputAt (plan : Plan) (t p : Nat) : Bool :=
  plan.outputs.any fun o => o.position == p && o.offsets.contains t

/-- An offset of a position that the READ_ROW must serve from the row: requested and not listed (R75). -/
def Operation.servesAt (e : Extent) (op : Operation) (t p : Nat) : Bool :=
  (unlistedAt e op op.plan.listed p).contains t

/-- The offsets that the operation must produce (R66, R72, R75, R77, R79). -/
def Operation.produced (e : Extent) (op : Operation) : List Nat :=
  match op.kind with
  | .readRow => servedOffsets e op op.plan.listed
  | .rebuildRow => rowOffsets
  | .writeRow => rowOffsets
  | .resyncRow => rowOffsets

/-- The position's block at offset `t` is one the operation must restore if it is erased: for a REBUILD_ROW an output
or a block to be repaired, for a READ_ROW an unlisted requested block, for a WRITE_ROW uncovered data, for a RESYNC_ROW
data (R46 to R49, R72, R75). That the survivors of a widened copy row are repaired as those of R72 is the model's choice
(log 63). -/
def Operation.needs (e : Extent) (op : Operation) (t p : Nat) : Bool :=
  match op.kind with
  | .rebuildRow => op.plan.outputAt t p || (op.unreadableAt p).contains t
  | .readRow => op.servesAt e t p
  | .writeRow => (e.dataPositions op.row).contains p && !op.covers e t p
  | .resyncRow => (e.dataPositions op.row).contains p

/-- The erased positions that the operation needs at offset `t`. -/
def Operation.neededErased (e : Extent) (op : Operation) (t : Nat) : List Nat :=
  (op.erasures e t).filter (op.needs e t)

/-- Nothing that the operation must restore is erased at any offset it must produce (R69). -/
def Operation.nothingErased (e : Extent) (op : Operation) : Bool :=
  (op.produced e).all fun t => (op.neededErased e t).isEmpty

/-- An unsolvable offset that R67 settles: every one, but in a copy row whose outgoing strip was read GOOD at every offset,
which R73 sends to PLACE as it is (log 9). -/
def Operation.settles (e : Extent) (op : Operation) (t : Nat) : Bool :=
  op.unsolvable e t && !(op.plan.copy && op.nothingErased e)

/-- The unsolvable offsets that the operation must produce and settle (R66 step 3). -/
def Operation.unsolvables (e : Extent) (op : Operation) : List Nat := (op.produced e).filter (op.settles e)

/-! ## Blocks called on -/

/-- The positions whose present blocks the method for E(t) calls on (R46, R47, R48). -/
def Operation.methodSet (e : Extent) (op : Operation) (t : Nat) : List Nat :=
  let s := e.stripeOf op.row
  let data := e.dataPositions op.row
  let others := data.filter fun p => !op.erased t p
  let parity := e.pPosition s
  match (data.filter (op.erased t)).length with
  | 0 => others
  | 1 => if op.erased t parity then others ++ (e.qPosition s).toList else parity :: others
  | _ => parity :: (others ++ (e.qPosition s).toList)

/-- The positions whose blocks the operation takes at offset `t` whatever is erased: the outputs copied, the unlisted
requested blocks, and the data that parity is recomputed from (R49). -/
def Operation.takes (e : Extent) (op : Operation) (t p : Nat) : Bool :=
  match op.kind with
  | .rebuildRow => op.plan.outputAt t p
  | .readRow => op.servesAt e t p
  | .writeRow => (e.dataPositions op.row).contains p && !op.covers e t p
  | .resyncRow => (e.dataPositions op.row).contains p

/-- The positions called on at offset `t` (R66). `closing` says that an unsolvable offset of a REBUILD_ROW or WRITE_ROW
is about to be closed, which takes every data block that is not erased (R50 step 3; log 10). -/
def Operation.calledOn (e : Extent) (op : Operation) (closing : Bool) (t : Nat) : List Nat :=
  let own := e.positions.filter fun p => op.takes e t p && !op.erased t p
  let method :=
    if op.settles e t then
      if closing && op.kind != .readRow then
        (e.dataPositions op.row).filter fun p => !op.erased t p && !op.covers e t p
      else []
    else if (op.neededErased e t).isEmpty then []
    else op.methodSet e t
  (own ++ method).dedup

/-- The offsets of each position that are called on and were not read in the current plan. -/
def Operation.missingAt (e : Extent) (op : Operation) (closing : Bool) (p : Nat) : List Nat :=
  (op.produced e).filter fun t => (op.calledOn e closing t).contains p && !op.readAt t p

/-- The runs of called-on blocks that were not read, a run for each position (R66). -/
def Operation.missing (e : Extent) (op : Operation) (closing : Bool) : List ReadWant :=
  e.positions.flatMap fun p => spanOf p (op.missingAt e closing p)

/-- The operation holds a frame for a position. -/
def Operation.hasFrame (op : Operation) (p : Nat) : Bool := op.frames.any fun f => f.position == p

/-! ## The solve -/

/-- The block of a frame. -/
def Operation.frameBlock (op : Operation) (p t : Nat) : Block :=
  match op.frames.find? fun f => f.position == p with
  | some f => (f.blocks.toArray.toList[t]?).getD Block.void
  | none => Block.void

/-- The new contents of a covered block (R49). -/
def Operation.newBlock (op : Operation) (p t : Nat) : Block :=
  match (op.fetched.getD []).find? fun b => b.position == p && b.offset == t with
  | some b => b.contents
  | none => Block.void

/-- What offset `t` asks of a data block: its value after the solve, and how it was obtained (R46 to R50). `j` is the
data index. -/
def Operation.dataValue (e : Extent) (op : Operation) (t j : Nat) : Block × BlockOrigin :=
  let s := e.stripeOf op.row
  let p := e.dataPosition s j
  if op.covers e t p then (op.newBlock p t, .new)
  else if !op.erased t p then (op.frameBlock p t, .read)
  else if op.closed.contains t || op.lost.contains t then (Block.void, .void)
  else
    let old := fun i => op.frameBlock (e.dataPosition s i) t
    let erased := (List.range e.dataCount).filter fun i => op.erased t (e.dataPosition s i)
    let q := match e.qPosition s with
      | some qp => op.frameBlock qp t
      | none => Block.void
    (restoreData e.dataCount erased (op.erased t (e.pPosition s)) (op.frameBlock (e.pPosition s) t) q old j, .solved)

/-- Parity is recomputed at offset `t`: for a WRITE_ROW and a RESYNC_ROW at every offset, and at a closed offset (R49,
R50). -/
def Operation.recomputes (op : Operation) (t : Nat) : Bool :=
  op.kind == .writeRow || op.kind == .resyncRow || op.closed.contains t

/-- The value of any position at offset `t` after the solve, and how it was obtained (R46 to R50, R55). -/
def Operation.valueAt (e : Extent) (op : Operation) (t p : Nat) : Block × BlockOrigin :=
  let s := e.stripeOf op.row
  match e.dataIndex s p with
  | some j => op.dataValue e t j
  | none =>
    if op.recomputes t || op.erased t p then
      let d := fun j => (op.dataValue e t j).1
      (if p = e.pPosition s then parityP e.dataCount d else parityQ e.dataCount d, .recomputed)
    else (op.frameBlock p t, .read)

/-- The solver is asked for the block (R52): the plan's outputs, the blocks to be repaired (R72, R78), and at a closed
offset fresh parity (R50). A READ_ROW asks for its unlisted requested blocks that are not lost (R76). -/
def Operation.asks (e : Extent) (op : Operation) (t p : Nat) : Bool :=
  let parity := e.isParity (e.stripeOf op.row) p
  match op.kind with
  | .rebuildRow => op.plan.outputAt t p || (op.unreadableAt p).contains t || (parity && op.closed.contains t)
  | .readRow => op.servesAt e t p && !(op.lost.contains t && op.erased t p)
  | .writeRow => op.plan.outputAt t p || (op.unreadableAt p).contains t
  | .resyncRow => op.plan.outputAt t p

/-- The data blocks closed as lost: at a closed offset, the erased data without a new value (R50 step 1). -/
def Operation.voids (e : Extent) (op : Operation) : List (Nat × Nat) :=
  (e.dataPositions op.row).flatMap fun p =>
    (op.closed.filter fun t => op.erased t p && !op.covers e t p).map fun t => (p, t)

/-- The solve record names the block (R55): every block asked for, the void blocks, and the uncovered data that a
WRITE_ROW's parity called on and the solver restored (R49 step 1). -/
def Operation.records (e : Extent) (op : Operation) (t p : Nat) : Bool :=
  op.asks e t p ||
    ((e.dataPositions op.row).contains p && op.erased t p && !op.covers e t p &&
      (op.closed.contains t || op.kind == .writeRow))

/-- The solve record (R55). -/
def Operation.solveRecord (e : Extent) (op : Operation) : List RecordEntry :=
  e.positions.flatMap fun p =>
    (rowOffsets.filter (op.records e · p)).map fun t =>
      { position := p, offset := t, origin := (op.valueAt e t p).2 }

/-- The frames with the outputs filled (R55 step 1). -/
def Operation.solvedFrames (e : Extent) (op : Operation) : List Frame :=
  op.frames.map fun f =>
    { f with blocks := Vector.ofFn fun t =>
        if op.asks e t.val f.position then (op.valueAt e t.val f.position).1 else f.blocks[t.val] }

/-! ## Losses and tallies -/

/-- Ascending blocks gathered into runs of consecutive blocks, first block and count (R51 step 3). -/
def runsOf : List Nat → List (Nat × Nat)
  | [] => []
  | a :: rest =>
    match runsOf rest with
    | [] => [(a, 1)]
    | (first, count) :: more => if first = a + 1 then (a, count + 1) :: more else (a, 1) :: (first, count) :: more

/-- The ranges that the operation lists (R51): its void blocks as array blocks by R8, one data strip after another. -/
def Operation.lossRuns (e : Extent) (now : Stamp) (op : Operation) : List LossEntry :=
  (e.dataPositions op.row).flatMap fun p =>
    let blocks := ((op.voids e).filter fun x => x.1 == p).filterMap fun x => e.reverse p (e.memberBlock op.row x.2)
    (runsOf blocks).map fun r =>
      { extent := op.extent, first := r.1, toEnd := false, count := r.2,
        origin := if op.kind = .rebuildRow then .rebuild else .foreground, stamp := now }

/-- The blocks of the record with an origin, among those that `which` picks. -/
def countRecord (record : List RecordEntry) (origin : BlockOrigin) (which : Nat → Nat → Bool) : Nat :=
  (record.filter fun r => r.origin == origin && which r.position r.offset).length

/-- The lowest of some blocks. -/
def lowestOf (blocks : List Nat) : Option Nat := blocks.foldl (fun acc b => lowerOf acc (some b)) none

/-- The array blocks of (position, offset) pairs. -/
def arrayBlocksOf (e : Extent) (row : Nat) (pairs : List (Nat × Nat)) : List Nat :=
  pairs.filterMap fun x => e.arrayBlockAt row x.1 x.2

/-- The requested blocks of a READ_ROW that are delivered as zeros: listed, or erased at a lost offset (R76). -/
def Operation.lostRequested (e : Extent) (op : Operation) : List (Nat × Nat) :=
  op.plan.listed ++ (e.dataPositions op.row).flatMap fun p =>
    (rowOffsets.filter fun t => op.servesAt e t p && op.lost.contains t && op.erased t p).map fun t => (p, t)

/-- Every requested block of the operation, as position and offset, strip by strip. -/
def Operation.requestedBlocks (e : Extent) (op : Operation) : List (Nat × Nat) :=
  (e.dataPositions op.row).flatMap fun p => (op.requestedAt e p).map fun t => (p, t)

/-- The tallies that the record gives (R74, R76, R78). -/
def Operation.solveTallies (e : Extent) (record : List RecordEntry) (op : Operation) : RowTallies :=
  match op.kind with
  | .rebuildRow =>
    { RowTallies.zero with
      reconstructed := countRecord record .solved fun p t => op.plan.outputAt t p
      lost := (op.voids e).length }
  | .readRow =>
    let lost := op.lostRequested e
    { RowTallies.zero with
      served := (op.requestedBlocks e).length - lost.length
      reconstructed := countRecord record .solved fun _ _ => true
      lost := lost.length
      firstLost := lowestOf (arrayBlocksOf e op.row lost) }
  | .writeRow =>
    { RowTallies.zero with
      served := (op.requestedBlocks e).length
      reconstructed := countRecord record .solved fun _ _ => true
      firstLost := lowestOf (arrayBlocksOf e op.row (op.voids e))
      sideLosses := (op.voids e).length }
  | .resyncRow => RowTallies.zero

end Sys2Proof.Machine
end

