-- ==== Sys2Proof/Machine/Phases.lean ====
section
/-! DEFINITION. Machine/Phases.lean: how a row operation moves from phase to phase (R61, R62, R64 to R70, R76, R79,
R80). -/

namespace Sys2Proof.Machine

/-! ## Reads -/

/-- The read set of a plan as wants. -/
def Plan.wants (plan : Plan) : List ReadWant :=
  plan.reads.map fun r => { position := r.position, first := r.first, count := r.count }

/-- The READ of one position of a plan (R65). -/
def State.readRequest (s : State) (c : ContextId) (op : Operation) (r : PlanRead) : Request :=
  { kind := .read, cls := op.kind.requestClass, owner := some c, position := r.position, offset := r.first,
    memberBlock := (s.extent op.extent).memberBlock op.row r.first, count := r.count, repair := false }

/-- The READs of some positions submitted, in the order of the plan (R65). -/
def State.submitReads (s : State) (c : ContextId) (op : Operation) (reads : List PlanRead) : State :=
  reads.foldl (fun s r => s.submit r.port (s.readRequest c op r)) s

/-- A frame that nothing has filled (log 6). -/
def Frame.fresh (p : Nat) : Frame := { position := p, blocks := Vector.replicate 16 Block.void }

/-- The frames of a new plan: a position that held one keeps it with its contents; the others are fresh (R66). -/
def keepFrames (held : List Frame) (positions : List Nat) : List Frame :=
  positions.map fun p => (held.find? fun f => f.position == p).getD (Frame.fresh p)

/-- The read results that a re-plan keeps with their frames: those of positions still in the read set none of whose reads
failed (R66). -/
def Operation.keptResults (op : Operation) (plan : Plan) : List ReadResult :=
  op.results.filter fun r => !op.failedAt r.position && plan.reads.any fun x => x.position == r.position

/-! ## Waiting -/

/-- The ports whose stall makes a position of the row unavailable (R67): the target-list port of the position, and the
job's target that would serve it. -/
def State.countedStalls (s : State) (op : Operation) : List PortId :=
  let e := s.extent op.extent
  let missing := e.positions.filter fun p => !s.available op.extent p op.row
  let listed := missing.filterMap (s.listedPort op.extent)
  let targets := match s.jobOn op.extent with
    | none => []
    | some j =>
      if (s.job j).isRebuilt op.row then
        (missing.filterMap (s.job j).targetOf).filter fun t => (s.port t).memberState == .target
      else []
  ((listed ++ targets).filter fun q => (s.port q).stalled).dedup

/-- AWAIT_MEMBER entered with a wait set: the frames go back, the context and the hold are kept, and the read set is
carried to the next plan (R67, R68; log 11). -/
def Operation.await (ports : List PortId) (op : Operation) : Operation :=
  { op with
    phase := .awaitMember, waitSet := ports, woken := false, carried := unionWants op.carried op.plan.wants,
    plan := Plan.none, frames := [], results := [], closed := [], lost := [], fetched := none }

/-- FRAME_WAIT entered with a plan and no frames (R64 step 7, R66). -/
def Operation.waitFrames (plan : Plan) (op : Operation) : Operation :=
  { op with
    phase := .frameWait, plan := plan, waitSet := [], woken := false, frames := [], results := [], closed := [],
    lost := [], fetched := none }

/-- The buffer places of the operation's requested blocks, strip by strip: the buffer address and 4096 bytes for each
array block past the request's first (R117). -/
def State.bufferPlaces (s : State) (op : Operation) : List BufferPlace :=
  let e := s.extent op.extent
  match op.owner with
  | .job _ => []
  | .slip i _ =>
    match s.requestOf i with
    | none => []
    | some r =>
      (op.requestedBlocks e).filterMap fun x =>
        (e.arrayBlockAt op.row x.1 x.2).map fun a =>
          { position := x.1, offset := x.2, address := r.buffer + (a - r.firstBlock) * Config.blockBytes }

/-- The fetch of a WRITE_ROW's covered blocks from their buffer places begun (R65, R80, R124). -/
def Operation.beginFetch (places : List BufferPlace) (op : Operation) : Operation :=
  if op.kind = .writeRow then { op with fetching := true, fetch := places, fetched := none } else op

/-- A plan taken over the frames held (R66): the frame need is no greater than what is held. -/
def Operation.keepPlan (plan : Plan) (op : Operation) : Operation :=
  { op with
    phase := .gather, plan := plan, waitSet := [], woken := false,
    frames := keepFrames op.frames plan.framePositions, results := op.keptResults plan, closed := [], lost := [] }

/-- The solve queue joined (R53). -/
def State.joinSolver (s : State) (c : ContextId) : State :=
  (s.withOperation c fun op => { op with phase := .solveWait }).withSolver fun v => { v with queue := v.queue ++ [c] }

/-! ## Placing -/

/-- Ascending offsets cut into runs of consecutive offsets, each wholly inside or wholly outside `repairs` (R70). -/
def runsByMark (repairs : List Nat) : List Nat → List (Nat × Nat × Bool)
  | [] => []
  | t :: rest =>
    match runsByMark repairs rest with
    | [] => [(t, 1, repairs.contains t)]
    | (first, count, mark) :: more =>
      if first = t + 1 ∧ mark = repairs.contains t then (t, count + 1, mark) :: more
      else (t, 1, repairs.contains t) :: (first, count, mark) :: more

/-- The runs of an operation for one port (R70; log 13). -/
def Operation.runsFor (op : Operation) (q : PortId) (p : Nat) (offsets : List Nat) : List WriteRun :=
  (runsByMark (op.repairAt q p) offsets).map fun r => { position := p, first := r.1, count := r.2.1, repair := r.2.2 }

/-- The writes to one port begun: the first run is submitted, the others wait for its end, and a write to a port of the
target list sets the written mark (R70, R81). -/
def State.beginWrites (s : State) (c : ContextId) (op : Operation) (d : PortId × Nat × List Nat) : State :=
  match op.runsFor d.1 d.2.1 d.2.2 with
  | [] => s
  | run :: rest =>
    let listed := decide (s.listedPort op.extent d.2.1 = some d.1)
    let s := s.withOperation c fun x =>
      { x with writesLeft := x.writesLeft ++ [{ port := d.1, runs := rest }], written := x.written || listed }
    s.submit d.1 (s.writeRequest c op run)

/-- The writes of PLACE submitted to the write ports as the member states stand (R69 step 3, R70). -/
def State.submitWrites (s : State) (c : ContextId) : State :=
  match s.context c with
  | none => s
  | some op =>
    ((s.destinations op).filter fun d => op.hasFrame d.2.1).foldl (fun s d => s.beginWrites c op d) s

/-- What a READ_ROW delivers: every requested block with the byte address of its buffer place, listed and lost blocks as
zeros (R76, R117). -/
def State.deliveryOf (s : State) (op : Operation) : List (Nat × Block) :=
  let lost := op.lostRequested (s.extent op.extent)
  (s.bufferPlaces op).map fun x =>
    (x.address, if lost.contains (x.position, x.offset) then Block.void else op.frameBlock x.position x.offset)

/-- PLACE entered: a READ_ROW starts its delivery, the other kinds their writes (R70, R80). -/
def State.enterPlace (s : State) (c : ContextId) : State :=
  match s.context c with
  | none => s
  | some op =>
    let s := s.withOperation c fun x => { x with phase := .place }
    if op.kind = .readRow then
      let delivery := s.deliveryOf op
      s.withOperation c fun x => { x with delivering := true, delivery := delivery }
    else s.submitWrites c

/-- What a solve hands its operation: the outputs in their frames, the record and the tallies (R55, R69). -/
def Operation.solved (e : Extent) (op : Operation) : Operation :=
  let record := op.solveRecord e
  { op with frames := op.solvedFrames e, record := record, tallies := op.solveTallies e record }

/-- The move straight to PLACE, the outputs being the frames as read (R69). -/
def State.placeAsRead (s : State) (c : ContextId) : State :=
  (s.withOperation c fun op => op.solved (s.extent op.extent)).enterPlace c

/-! ## Planning -/

/-- The operation of context `c` plans (R64) and takes the plan: it ends, waits for members, keeps its frames where they
suffice (R66), goes straight to PLACE (R75), or waits for frames. -/
def State.takePlan (s : State) (c : ContextId) : State :=
  match s.context c with
  | none => s
  | some op =>
    match s.makePlan op with
    | .ended outcome => s.endOperation c outcome
    | .await ports => s.withOperation c (Operation.await ports)
    | .ready plan =>
      if plan.frameNeed = 0 ∧ op.kind = .readRow then
        (s.withOperation c (Operation.waitFrames plan)).placeAsRead c
      else if op.frames ≠ [] ∧ plan.frameNeed ≤ op.frames.length then
        let kept := op.keptResults plan
        let places := s.bufferPlaces op
        (s.withOperation c fun x =>
            let x := x.keepPlan plan
            if x.fetched.isNone then x.beginFetch places else x).submitReads c op
          (plan.reads.filter fun r => !kept.any fun x => x.position == r.position)
      else
        (s.withOperation c (Operation.waitFrames plan)).withRows fun r => { r with frameWait := r.frameWait ++ [c] }

/-! ## Evaluation -/

/-- The read set that a re-plan carries: the old one with the runs just named (R66). -/
def Operation.widen (named : List ReadWant) (op : Operation) : Operation :=
  { op with carried := unionWants op.plan.wants named }

/-- A supplement read entered in the plan's read set. -/
def addRead (r : PlanRead) : List PlanRead → List PlanRead
  | [] => [r]
  | x :: rest =>
    if x.position = r.position then
      let low := min x.first r.first
      { x with first := low, count := max (x.first + x.count) (r.first + r.count) - low } :: rest
    else x :: addRead r rest

/-- SUPPLEMENT entered with a further read for each position (R66 step 2). A position that has become unavailable since
the plan is read from its port of the target list (log 36). -/
def State.supplement (s : State) (c : ContextId) (op : Operation) (missing : List ReadWant) : State :=
  let reads := missing.filterMap fun w =>
    ((s.servingPort op.extent w.position op.row).or (s.listedPort op.extent w.position)).map fun q =>
      ({ position := w.position, port := q, first := w.first, count := w.count } : PlanRead)
  let s := s.withOperation c fun x =>
    { x with phase := .supplement, plan := { x.plan with reads := reads.foldl (fun l r => addRead r l) x.plan.reads } }
  s.submitReads c op reads

/-- The unsolvable offsets settled by kind: closed, or lost without closing (R67). -/
def Operation.settleOffsets (bad : List Nat) (op : Operation) : Operation :=
  if op.kind = .readRow then { op with lost := bad } else { op with closed := bad }

/-- The operation goes straight to PLACE (R69): a READ_ROW whose requested blocks were all read, or a copy row whose
outgoing strip was read whole. -/
def Operation.isAsRead (e : Extent) (op : Operation) : Bool :=
  (op.kind == .readRow || op.plan.copy) && op.nothingErased e

/-- The outgoing member of a copy row reported unreadable offsets (R73). -/
def Operation.copyUnreadable (op : Operation) : Bool :=
  op.plan.copy && op.plan.outputs.any fun o => !(op.unreadableAt o.position).isEmpty

/-- The positions beyond the called-on ones that a REBUILD_ROW's evaluation names for a re-plan: the reconstruct read set
of a copy row whose outgoing member reported unreadable offsets (R73), and parity where offsets are about to be closed,
which is to receive fresh values there (R50, R72; log 10). -/
def Operation.rebuildWants (e : Extent) (closing : Bool) (op : Operation) : List ReadWant :=
  if op.kind = .rebuildRow then
    (if op.copyUnreadable then reconstructReads e op.row op.plan.unavailable else []) ++
      (if closing && !(op.unsolvables e).isEmpty then (e.parityPositions op.row).map wholeStrip else [])
  else []

/-- The positions without a frame that a re-plan names (R66 step 1). One that is called on is named although it has become
unavailable since the plan, and the new plan drops it (log 51); one of `rebuildWants` is named while it is available. -/
def State.namedForPlan (s : State) (op : Operation) (closing : Bool) : List ReadWant :=
  let e := s.extent op.extent
  (op.missing e closing ++ (op.rebuildWants e closing).filter fun w => s.available op.extent w.position op.row).filter
    fun w => !op.hasFrame w.position

/-- Some data position of the row is erased at some offset (R79). -/
def Operation.dataErased (e : Extent) (op : Operation) : Bool :=
  (e.dataPositions op.row).any fun p => rowOffsets.any fun t => op.erased t p

/-- Evaluation (R66, R67, R69, R79), in the order of R66. -/
def State.evaluate (s : State) (c : ContextId) : State :=
  match s.context c with
  | none => s
  | some op =>
    let e := s.extent op.extent
    if op.kind = .resyncRow then
      if op.dataErased e then s.endOperation c .skipped else s.joinSolver c
    else
      let stalls := s.countedStalls op
      let missing := op.missing e stalls.isEmpty
      let named := s.namedForPlan op stalls.isEmpty
      let back := e.positions.any fun p => op.failedAt p && s.available op.extent p op.row
      let bad := op.unsolvables e
      if !named.isEmpty || back then (s.withOperation c (Operation.widen named)).takePlan c
      else if missing ≠ [] then s.supplement c op missing
      else if bad ≠ [] then
        if stalls ≠ [] then s.withOperation c (Operation.await stalls)
        else (s.withOperation c (Operation.settleOffsets bad)).joinSolver c
      else if op.isAsRead e then s.placeAsRead c
      else s.joinSolver c

/-- The end of GATHER or SUPPLEMENT (R65, R66, R80): the boundary, a fault of the fetch, and evaluation. -/
def State.endReads (s : State) (c : ContextId) : State :=
  match s.context c with
  | none => s
  | some op =>
    match s.boundary op with
    | some outcome => s.endOperation c outcome
    | none => if op.bufferFault then s.endOperation c .bufferFault else s.evaluate c

/-! ## Solve completion and the end of PLACE -/

/-- Solve completion (R55, R69): outputs, record and tallies are handed over, the losses listed, the solver becomes IDLE,
and the operation passes its boundary to PLACE. -/
def State.completeSolve (s : State) (c : ContextId) : State :=
  match s.context c with
  | none => s.withSolver fun v => { v with busy := none }
  | some op =>
    let e := s.extent op.extent
    let s := (s.withOperation c (Operation.solved e)).withSolver fun v => { v with busy := none }
    let s := s.insertLosses (op.lossRuns e s.stamp)
    match s.boundary op with
    | some outcome => s.endOperation c outcome
    | none => s.enterPlace c

/-- The outcome that the kind gives from its tallies (R71, R74, R76, R78, R79). -/
def Operation.outcome (op : Operation) : RowOutcome :=
  match op.kind with
  | .rebuildRow => if 0 < op.tallies.lost then .doneWithLoss else .done
  | .readRow =>
    if 0 < op.tallies.lost then .doneWithLoss else if 0 < op.tallies.reconstructed then .recovered else .done
  | .writeRow =>
    if op.closed ≠ [] then .doneWithLoss else if 0 < op.tallies.reconstructed then .recovered else .done
  | .resyncRow => .done

/-- The covered ranges of a WRITE_ROW taken off the loss list, one for each data strip in ascending order, and whether
any part was kept (R133). -/
def State.removeCovered (s : State) (op : Operation) : State × Bool :=
  let e := s.extent op.extent
  op.requested.foldl (fun acc r =>
    let first := e.arrayBlock op.row r.strip r.first
    let out := acc.1.removeLossRange op.extent first (first + r.count - 1)
    (out.1, acc.2 || decide (0 < out.2.kept))) (s, false)

/-- The end of PLACE (R71): the boundary, what the kind does with the lists, and the operation's end. -/
def State.endPlace (s : State) (c : ContextId) : State :=
  match s.context c with
  | none => s
  | some op =>
    match s.boundary op with
    | some outcome => s.endOperation c outcome
    | none =>
      match op.kind with
      | .writeRow =>
        let out := s.removeCovered op
        out.1.endOperationWith c op.outcome out.2 false
      | .resyncRow =>
        let out := s.settleRow op.extent op.row
        out.1.endOperationWith c op.outcome false out.2
      | .rebuildRow => s.endOperation c op.outcome
      | .readRow => s.endOperation c op.outcome

end Sys2Proof.Machine
end

