-- ==== Sys2Proof/Machine/Rows.lean ====
section
/-! DEFINITION. Machine/Rows.lean: the steps of the row engine, the hold table and the solver (R53 to R55, R60, R62,
R64 to R71, R80, R111). -/

namespace Sys2Proof.Machine

/-! ## Contexts and holds -/

/-- The lowest-numbered free context (R60). -/
def State.freeContextOf (s : State) : Option ContextId := (bankIndices 24).find? fun c => (s.context c).isNone

/-- A request of the context wait list may be granted a context (R60 steps 1 and 2). -/
def State.grantable (s : State) (r : RowRequest) : Bool :=
  r.kind.isForeground || decide (s.rebuildContextCount < Config.rebuildContexts)

/-- The operation of a request that has been granted its context (R58). -/
def RowRequest.operation (r : RowRequest) : Operation :=
  { kind := r.kind, owner := r.owner, extent := r.extent, row := r.row, phase := .holdWait, requested := r.requested,
    decision := none, plan := Plan.none, carried := [], frames := [], results := [], closed := [], lost := [],
    waitSet := [], woken := false, written := false, lostSeen := false, countedBy := r.countedBy, fetching := false,
    fetch := [], fetched := none, bufferFault := false, record := [], delivering := false, delivery := [], writesLeft := [],
    tallies := RowTallies.zero }

/-- A request granted a context: it leaves the list and asks the hold table for its hold (R60, R110). -/
def State.grantContext (s : State) (c : ContextId) (r : RowRequest) : State :=
  ((s.withRows fun x => { x with contextWait := x.contextWait.erase r }).setContext c (some r.operation)).withHolds
    fun t => t.request r.extent r.row c r.kind.wantedHold

/-- CONTEXT_GRANT (R60): the first request from the head that may be granted takes the lowest free context; the boundary
to HOLD_WAIT is tested first (R63). -/
def execContextGrant (s : State) : Host.Outcome State Fault Refusal :=
  match s.freeContextOf, s.rows.contextWait.find? s.grantable with
  | some c, some r =>
    match s.boundary r.operation with
    | some outcome => (s.endWaiting r outcome).done
    | none => (s.grantContext c r).done
  | _, _ => .next s

/-- What a grant fixes: the target decision of a WRITE_ROW or RESYNC_ROW (R64, R113). -/
def State.decideTargets (s : State) (c : ContextId) : State :=
  match s.context c with
  | none => s
  | some op =>
    if op.kind = .writeRow ∨ op.kind = .resyncRow then
      let decision := s.targetDecision op.extent op.row
      s.withOperation c fun x => { x with decision := some decision }
    else s

/-- HOLD_GRANT (R111, R113): the operation granted longest ago plans. -/
def execHoldGrant (s : State) : Host.Outcome State Fault Refusal :=
  match s.holds.granted with
  | [] => .next s
  | c :: rest => (((s.withHolds fun t => { t with granted := rest }).decideTargets c).takePlan c).done

/-! ## Frames and reads -/

/-- The head of the frame wait list granted its frames: it enters GATHER, and submits its reads and its fetch (R61,
R65). -/
def State.grantFrames (s : State) (c : ContextId) (op : Operation) : State :=
  let places := s.bufferPlaces op
  let s := s.withOperation c fun x =>
    Operation.beginFetch places
      { x with phase := .gather, frames := op.plan.framePositions.map Frame.fresh, results := [], fetched := none }
  s.submitReads c op op.plan.reads

/-- FRAME_GRANT (R62): the head of the frame wait list passes its boundary (R63) and is granted its whole need, when
that is free. -/
def execFrameGrant (s : State) : Host.Outcome State Fault Refusal :=
  match s.rows.frameWait with
  | [] => .next s
  | c :: rest =>
    match s.context c with
    | none => .next s
    | some op =>
      match s.boundary op with
      | some outcome => (s.endOperation c outcome).done
      | none =>
        if op.plan.frameNeed ≤ s.framesFree then
          ((s.withRows fun r => { r with frameWait := rest }).grantFrames c op).done
        else .next s

/-- The covered blocks with the contents that the fetch brought from their buffer places (R49, R80, R117). -/
def Operation.newBlocks (op : Operation) (contents : List Block) : List NewBlock :=
  (op.fetch.zip contents).map fun x => { position := x.1.position, offset := x.1.offset, contents := x.2 }

/-- BUFFER_FETCH_END (R80): the fetch of a WRITE_ROW's covered blocks ends, with their contents or with a fault. -/
def execBufferFetchEnd (c : ContextId) (fetched : Option (List Block)) (s : State) :
    Host.Outcome State Fault Refusal :=
  match s.context c with
  | none => .next s
  | some op =>
    if op.fetching then
      match fetched with
      | some contents =>
        (s.withOperation c fun x => { x with fetching := false, fetched := some (op.newBlocks contents) }).done
      | none => (s.withOperation c fun x => { x with fetching := false, bufferFault := true }).done
    else .next s

/-- GATHER_END (R65): every read and the fetch have ended; the boundary is passed and what was read is evaluated. -/
def execGatherEnd (c : ContextId) (s : State) : Host.Outcome State Fault Refusal :=
  match s.context c with
  | none => .next s
  | some op =>
    if op.phase = .gather ∧ op.fetching = false ∧ s.requestsOpen c = false then (s.endReads c).done else .next s

/-- SUPPLEMENT_END (R66): every further read has ended. -/
def execSupplementEnd (c : ContextId) (s : State) : Host.Outcome State Fault Refusal :=
  match s.context c with
  | none => .next s
  | some op => if op.phase = .supplement ∧ s.requestsOpen c = false then (s.endReads c).done else .next s

/-- AWAIT_MEMBER_WAKE (R68): a port of the wait set has cleared its stall or changed its member state; the operation
plans anew. -/
def execAwaitMemberWake (c : ContextId) (s : State) : Host.Outcome State Fault Refusal :=
  match s.context c with
  | none => .next s
  | some op => if op.phase = .awaitMember ∧ op.woken = true then (s.takePlan c).done else .next s

/-! ## The solver -/

/-- SOLVER_TAKE_HEAD (R53, R54): the idle solver takes the head of its queue, or the boundary tests end it there. -/
def execSolverTakeHead (s : State) : Host.Outcome State Fault Refusal :=
  match s.solver.busy, s.solver.queue with
  | none, c :: rest =>
    match s.context c with
    | none => (s.withSolver fun v => { v with queue := rest }).done
    | some op =>
      match s.boundary op with
      | some outcome => (s.endOperation c outcome).done
      | none =>
        ((s.withSolver fun v => { v with busy := some c, queue := rest }).withOperation c
          fun x => { x with phase := .solving }).done
  | _, _ => .next s

/-- SOLVE_COMPLETION (R55). -/
def execSolveCompletion (s : State) : Host.Outcome State Fault Refusal :=
  match s.solver.busy with
  | none => .next s
  | some c => (s.completeSolve c).done

/-! ## Placing -/

/-- A delivery has ended without a fault: the repair writes are submitted, unless the extent is, or has been, LOST (R63,
R70, R76; log 26). -/
def State.endDelivery (s : State) (c : ContextId) (op : Operation) : State :=
  let s := s.withOperation c fun x => { x with delivering := false }
  if (s.extent op.extent).condition = .lost ∨ op.lostSeen = true then s else s.submitWrites c

/-- BUFFER_DELIVERY_END (R80): the delivery of a READ_ROW ends; on a fault the operation ends BUFFER_FAULT, if the
boundary tests do not end it (R71). -/
def execBufferDeliveryEnd (c : ContextId) (fault : Bool) (s : State) : Host.Outcome State Fault Refusal :=
  match s.context c with
  | none => .next s
  | some op =>
    if op.phase = .place ∧ op.delivering = true then
      if fault then
        match s.boundary op with
        | some outcome => (s.endOperation c outcome).done
        | none => (s.endOperation c .bufferFault).done
      else (s.endDelivery c op).done
    else .next s

/-- PLACE_END (R71): every write and the delivery have ended. -/
def execPlaceEnd (c : ContextId) (s : State) : Host.Outcome State Fault Refusal :=
  match s.context c with
  | none => .next s
  | some op =>
    if op.phase = .place ∧ op.delivering = false ∧ s.requestsOpen c = false then (s.endPlace c).done else .next s

end Sys2Proof.Machine
end

