-- ==== Sys2Proof/Machine/Sweeping.lean ====
section
/-! DEFINITION. Machine/Sweeping.lean: the board accesses as they complete: the steps of a sweep, the answers, the
publishes, the board faults, and the end of a quiesce (R156 to R159, R161, R162). -/

namespace Sys2Proof.Machine

/-- SWEEP_HOLDER_READ (R156): a POSTED slip below the cap is taken and the round pointer moves to it; at the cap the
sweep ends and is deferred; any other value is passed over. A sweep that was stopped ends with the read whatever it
finds: that a POSTED slip at the cap then leaves the deferred mark as it was is the model's choice (log 67). -/
def execSweepHolderRead (holder : Byte) (s : State) : Host.Outcome State Fault Refusal :=
  match s.sweepAt .holderRead with
  | none => .next s
  | some run =>
    (s.withBoard fun b =>
      if run.stopping then b.endSweep
      else if holder = holderPosted then
        if b.taken.length < Config.slipCap then
          { b with roundPointer := run.slip, sweep := some { run with access := .takenWrite } }
        else Board.endSweep { b with deferred := true }
      else b.advanceSweep run).done

/-- TAKEN_WRITE (R157): the slip joins the set of TAKEN slips, and its read begins. The write lands at the base in force
now, which is the model's choice where BOARD BASE was written since it began (log 65). -/
def execTakenWrite (s : State) : Host.Outcome State Fault Refusal :=
  match s.sweepAt .takenWrite with
  | none => .next s
  | some run =>
    (s.withBoard fun b =>
      Board.writeSlip
        { b with
          taken := b.taken ++ [{ slip := run.slip, tag := 0, foreground := none }]
          sweep := some { run with access := .slipRead } }
        run.slip fun image => { image with holder := holderTaken }).done

/-- BAD_KIND (R157): a kind outside the nine is refused. -/
def execBadKind (kind : Byte) (tag : BitVec 64) (s : State) : Host.Outcome State Fault Refusal :=
  match SlipKind.ofCode kind.toNat, s.takeSlip tag with
  | none, some (i, s) => (s.refuse i .badKind).done
  | _, _ => .next s

/-- ANSWER_WRITE (R158): the answer at the head leaves the queue, its slip the set of TAKEN slips, the ANSWERED cause is
set, and a deferred wake may request a sweep (R156). -/
def execAnswerWrite (s : State) : Host.Outcome State Fault Refusal :=
  match s.board.writing, s.board.answers with
  | some w, a :: rest =>
    (s.withBoard fun b =>
      Board.deferredWake
        (Board.setCause
          (Board.writeSlip
            { b with answers := rest, writing := none, taken := b.taken.filter fun t => t.slip != a.slip }
            a.slip fun _ => answerImage a (b.tagOf a.slip) w)
          causeAnswered)).done
  | _, _ => .next s

/-- PUBLISH (R159): the generation write completes; the PUBLISHED cause is set, and an owed publish begins. The page lands
at the base in force now, which is the model's choice where BOARD BASE was written since it began (log 65). -/
def execPublish (s : State) : Host.Outcome State Fault Refusal :=
  match s.board.publishing with
  | none => .next s
  | some fields =>
    (s.withBoard fun b =>
      Board.setCause
        (Board.writePage
          { b with generation := b.generation + 1, publishing := none, owed := false, publishAsked := b.owed }
          (page8 0 (b.generation + 1).toNat :: fields))
        causePublished).done

/-- BOARD_FAULT (R162): the FAULT cause is set, the engine is FAULTED, and every board access in progress ends: the sweep
with its pending flag kept, an answer left at the head of the queue without its ANSWERED write, a page without its
generation; what had reached the board of these stands there. -/
def execBoardFault (access : BoardAccess) (s : State) : Host.Outcome State Fault Refusal :=
  if s.accessInProgress access ∧ s.board.engine ≠ .faulted then
    (s.withBoard fun b =>
      Board.setCause
        { b.cutShort true with
          engine := .faulted, sweep := none, writing := none, publishing := none }
        causeFault).done
  else .next s

/-- QUIESCE_COMPLETE (R161): QUIESCING becomes STOPPED, with the quiesced mark, and publishes. -/
def execQuiesceComplete (s : State) : Host.Outcome State Fault Refusal :=
  if s.board.engine = .quiescing ∧ s.isQuiet = true then
    (s.withBoard fun b => { b with engine := .stopped, quiesced := true, publishAsked := true }).done
  else .next s

end Sys2Proof.Machine
end

