-- ==== Sys2Proof/Machine/Dispatch.lean ====
section
/-! DEFINITION. Machine/Dispatch.lean: the command of each row of the table, given its meaning. -/

namespace Sys2Proof.Machine

/-- The effect of a command on everything but the queue of commands waiting. -/
def exec (i : Instr) (s : State) : Host.Outcome State Fault Refusal :=
  match i with
  | .powerOnReset => Sys2Proof.Machine.execPowerOnReset s
  | .linkReset => Sys2Proof.Machine.execLinkReset s
  | .run => Sys2Proof.Machine.execRun s
  | .quiesce => Sys2Proof.Machine.execQuiesce s
  | .reset => Sys2Proof.Machine.execReset s
  | .boardBase access value => Sys2Proof.Machine.execBoardBase access value s
  | .sweep value => Sys2Proof.Machine.execSweep value s
  | .attention value => Sys2Proof.Machine.execAttention value s
  | .enableSet value => Sys2Proof.Machine.execEnableSet value s
  | .enableClear value => Sys2Proof.Machine.execEnableClear value s
  | .registerWriteIgnored offset value => Sys2Proof.Machine.execRegisterWriteIgnored offset value s
  | .sweepHolderRead holder => Sys2Proof.Machine.execSweepHolderRead holder s
  | .takenWrite => Sys2Proof.Machine.execTakenWrite s
  | .settings tag body => Sys2Proof.Machine.execSettings tag body s
  | .member tag body => Sys2Proof.Machine.execMember tag body s
  | .extentDefine tag body => Sys2Proof.Machine.execExtentDefine tag body s
  | .extentClear tag body => Sys2Proof.Machine.execExtentClear tag body s
  | .rebuild tag body => Sys2Proof.Machine.execRebuild tag body s
  | .jobctlPause tag body => Sys2Proof.Machine.execJobctlPause tag body s
  | .jobctlResume tag body => Sys2Proof.Machine.execJobctlResume tag body s
  | .jobctlAbort tag body => Sys2Proof.Machine.execJobctlAbort tag body s
  | .jobctlChange tag body => Sys2Proof.Machine.execJobctlChange tag body s
  | .read tag body => Sys2Proof.Machine.execRead tag body s
  | .write tag body => Sys2Proof.Machine.execWrite tag body s
  | .resync tag body => Sys2Proof.Machine.execResync tag body s
  | .lossesExport tag body => Sys2Proof.Machine.execLossesExport tag body s
  | .lossesImport tag body => Sys2Proof.Machine.execLossesImport tag body s
  | .lossesRemove tag body => Sys2Proof.Machine.execLossesRemove tag body s
  | .badKind kind tag => Sys2Proof.Machine.execBadKind kind tag s
  | .answerWrite => Sys2Proof.Machine.execAnswerWrite s
  | .publish => Sys2Proof.Machine.execPublish s
  | .boardFault access => Sys2Proof.Machine.execBoardFault access s
  | .quiesceComplete => Sys2Proof.Machine.execQuiesceComplete s
  | .tick => Sys2Proof.Machine.execTick s
  | .lapse port slot => Sys2Proof.Machine.execLapse port slot s
  | .sweepTimerExpiry => Sys2Proof.Machine.execSweepTimerExpiry s
  | .periodRestart => Sys2Proof.Machine.execPeriodRestart s
  | .guardHot => Sys2Proof.Machine.execGuardHot s
  | .guardCool => Sys2Proof.Machine.execGuardCool s
  | .driveReply port reply => Sys2Proof.Machine.execDriveReply port reply s
  | .linkUp port => Sys2Proof.Machine.execLinkUp port s
  | .linkDown port => Sys2Proof.Machine.execLinkDown port s
  | .requestIssue port => Sys2Proof.Machine.execRequestIssue port s
  | .contextGrant => Sys2Proof.Machine.execContextGrant s
  | .holdGrant => Sys2Proof.Machine.execHoldGrant s
  | .frameGrant => Sys2Proof.Machine.execFrameGrant s
  | .bufferFetchEnd context fetched => Sys2Proof.Machine.execBufferFetchEnd context fetched s
  | .gatherEnd context => Sys2Proof.Machine.execGatherEnd context s
  | .supplementEnd context => Sys2Proof.Machine.execSupplementEnd context s
  | .awaitMemberWake context => Sys2Proof.Machine.execAwaitMemberWake context s
  | .solverTakeHead => Sys2Proof.Machine.execSolverTakeHead s
  | .solveCompletion => Sys2Proof.Machine.execSolveCompletion s
  | .bufferDeliveryEnd context fault => Sys2Proof.Machine.execBufferDeliveryEnd context fault s
  | .placeEnd context => Sys2Proof.Machine.execPlaceEnd context s
  | .jobRowStart job => Sys2Proof.Machine.execJobRowStart job s
  | .startingDrainEnd job => Sys2Proof.Machine.execStartingDrainEnd job s
  | .pausingDrainEnd job => Sys2Proof.Machine.execPausingDrainEnd job s
  | .abortingDrainEnd job => Sys2Proof.Machine.execAbortingDrainEnd job s
  | .jobCompletion job => Sys2Proof.Machine.execJobCompletion job s
  | .pieceStart slip => Sys2Proof.Machine.execPieceStart slip s
  | .requestFinish slip => Sys2Proof.Machine.execRequestFinish slip s
  | .exportEnd slip fault => Sys2Proof.Machine.execExportEnd slip fault s
  | .importCompletion slip records => Sys2Proof.Machine.execImportCompletion slip records s

end Sys2Proof.Machine
end

