-- ==== Sys2Proof/Safety.lean ====
section
/-! DEFINITION. Safety.lean: what a legal state of the engine is, and the terms in which claims say what a step leaves
as it was. -/

namespace Sys2Proof.Machine

/-! ## Legal states -/

/-- A port in a state other than ONLINE and TARGET carries no stalled flag and a lapse count of 0 (R23). -/
def Port.legal (p : Port) : Prop := p.memberState.carries = false → p.stalled = false ∧ p.lapseCount = 0

/-- Every port is legal (R23). -/
def State.PortsLegal (s : State) : Prop := ∀ p : PortId, (s.port p).legal

/-- Every setting lies in its range (R141). -/
def Settings.legal (v : Settings) : Prop :=
  v.tickTap ∈ [1, 4, 16, 64] ∧ (1 ≤ v.memberTimeout ∧ v.memberTimeout ≤ 65535) ∧
    (1 ≤ v.stallLimit ∧ v.stallLimit ≤ 15) ∧ v.sweepInterval ≤ 65535 ∧
    (1 ≤ v.pacingPeriod ∧ v.pacingPeriod ≤ 65535) ∧ (1 ≤ v.guardThreshold ∧ v.guardThreshold ≤ 24) ∧
    (1 ≤ v.senseTicks ∧ v.senseTicks ≤ 65535) ∧ (1 ≤ v.minimumHold ∧ v.minimumHold ≤ 65535)

/-- The numbers of the TAKEN slips. -/
def Board.takenSlips (b : Board) : List SlipId := b.taken.map TakenSlip.slip

/-- The admission is legal (R156, R157): at most 48 slips are TAKEN, each once; a sweep reads the holder of a slip that
is not TAKEN, and writes TAKEN only to such a slip while fewer than 48 are TAKEN. -/
def Board.admissionLegal (b : Board) : Prop :=
  b.takenSlips.Nodup ∧ b.taken.length ≤ Config.slipCap ∧
    ∀ run, b.sweep = some run →
      match run.access with
      | .holderRead => run.slip ∉ b.takenSlips
      | .takenWrite => run.slip ∉ b.takenSlips ∧ b.taken.length < Config.slipCap
      | .slipRead => True

/-- The relations of R86 for a job that is on its extent: start row ≤ F ≤ N ≤ end row and N ≤ F + 64; the completion
window and the rows in flight are sets of rows below N, apart from each other, the first above F and the second from F
up; and the rows in flight number no more than the lane count. -/
def Job.legal (j : Job) : Prop :=
  j.isOn = true →
    j.startRow ≤ j.frontier ∧ j.frontier ≤ j.nextRow ∧ j.nextRow ≤ j.endRow ∧
      j.nextRow ≤ j.frontier + Config.windowRows ∧
      j.window.Nodup ∧ (∀ r ∈ j.window, j.frontier < r ∧ r < j.nextRow) ∧
      j.inFlight.Nodup ∧ (∀ r ∈ j.inFlight, j.frontier ≤ r ∧ r < j.nextRow) ∧
      (∀ r ∈ j.inFlight, r ∉ j.window) ∧ j.inFlight.length ≤ j.laneCount

/-- Every job record is legal (R86). -/
def State.JobsLegal (s : State) : Prop := ∀ j : JobId, (s.job j).legal

/-- The hold table is legal (R109): every entry in use has a holder, a row held SOLE has one holder, and a row has one
entry. -/
def HoldTable.legal (t : HoldTable) : Prop :=
  (∀ h ∈ t.entries, h.holders ≠ [] ∧ (h.mode = .sole → h.holders.length = 1)) ∧
    t.entries.Pairwise fun a b => ¬ (a.extent = b.extent ∧ a.row = b.row)

/-- A loss entry is legal: its range is not empty and ends within the array range of its extent, and a COUNTED one holds
at most 2^32 - 1 blocks (R128). -/
def LossEntry.legal (limits : ExtentId → Nat) (e : LossEntry) : Prop :=
  e.first ≤ limits e.extent ∧
    (e.toEnd = false → 1 ≤ e.count ∧ e.count ≤ Config.maxCount ∧ e.first + e.count - 1 ≤ limits e.extent)

/-- Of two entries, the first lies before the second without overlapping or touching it (R128). -/
def LossEntry.clearOf (limits : ExtentId → Nat) (a b : LossEntry) : Prop :=
  a.extent.val < b.extent.val ∨ (a.extent = b.extent ∧ a.last (limits a.extent) + 1 < b.first)

/-- The form of the loss list (R128): at most 512 legal entries, sorted by extent and first block, none of one extent
overlapping or touching. -/
def lossesLegal (limits : ExtentId → Nat) (l : List LossEntry) : Prop :=
  l.length ≤ Config.lossEntries ∧ (∀ e ∈ l, e.legal limits) ∧ l.Pairwise (LossEntry.clearOf limits)

/-- A block is listed for an extent (R128). -/
def Listed (limits : ExtentId → Nat) (l : List LossEntry) (x : ExtentId) (block : Nat) : Prop :=
  isListed (limits x) x block l = true

/-- An unsettled entry is legal (R82). -/
def UnsettledEntry.legal (limits : ExtentId → Nat) (e : UnsettledEntry) : Prop :=
  e.first ≤ limits e.extent ∧
    (e.toEnd = false → 1 ≤ e.count ∧ e.count ≤ Config.maxCount ∧ e.first + e.count - 1 ≤ limits e.extent)

/-- Of two unsettled entries, the first lies before the second without overlapping or touching it (R82). -/
def UnsettledEntry.clearOf (limits : ExtentId → Nat) (a b : UnsettledEntry) : Prop :=
  a.extent.val < b.extent.val ∨ (a.extent = b.extent ∧ a.last (limits a.extent) + 1 < b.first)

/-- The form of the published unsettled-row list (R82). -/
def unsettledLegal (limits : ExtentId → Nat) (l : List UnsettledEntry) : Prop :=
  l.length ≤ Config.unsettledEntries ∧ (∀ e ∈ l, e.legal limits) ∧ l.Pairwise (UnsettledEntry.clearOf limits)

/-- A row lies within an entry of the unsettled-row list. -/
def Unsettled (limits : ExtentId → Nat) (l : List UnsettledEntry) (x : ExtentId) (row : Nat) : Prop :=
  ∃ e ∈ l, e.extent = x ∧ e.first ≤ row ∧ row ≤ e.last (limits x)

/-! ## Extents and rows -/

/-- The sizes of an entry lie in the ranges of R1, its ports apart. -/
def Extent.sized (e : Extent) : Prop :=
  e.kind.suits e.memberCount = true ∧ (e.stripSize = 16 ∨ e.stripSize = 32 ∨ e.stripSize = 64) ∧
    (1 ≤ e.stripeCount ∧ e.stripeCount ≤ Config.maxCount) ∧ e.arrayLimit < Config.blockSpace ∧
    e.memberLimit < Config.blockSpace

/-- The fields of an entry in use satisfy the ranges of R1. -/
def Extent.legal (e : Extent) : Prop :=
  e.kind.suits e.memberCount = true ∧ (e.stripSize = 16 ∨ e.stripSize = 32 ∨ e.stripSize = 64) ∧
    (1 ≤ e.stripeCount ∧ e.stripeCount ≤ Config.maxCount) ∧ e.arrayLimit < Config.blockSpace ∧
    e.memberLimit < Config.blockSpace ∧ (e.kind = .mirror → e.rotation = .fixed) ∧
    e.targets.length = e.memberCount ∧ e.targets.Nodup

/-- Every entry of the layout map is in use with sizes in range, or empty (R1, R3). -/
def State.MapLegal (s : State) : Prop :=
  ∀ x : ExtentId, ((s.extent x).inUse = true ∧ (s.extent x).sized) ∨ s.extent x = Extent.empty

/-- Every row that is worked on, or is to be, lies in its extent, and a closed offset lies in its row (R5, R67, R89,
R115, R117). -/
def State.RowsLegal (s : State) : Prop :=
  (∀ c op, s.context c = some op → op.row ≤ s.lastRows op.extent ∧ ∀ t ∈ op.closed, t < 16) ∧
    (∀ r ∈ s.rows.contextWait, r.row ≤ s.lastRows r.extent) ∧
    (∀ r ∈ s.requests, ∀ piece ∈ r.pieces, piece.row ≤ s.lastRows r.extent) ∧
    ∀ j : JobId, (s.job j).isOn = true → (s.job j).endRow ≤ (s.extent (s.job j).extent).rows

/-! ## What a step leaves as it was -/

/-- Two job records agree but for the published frontier, which every publish sets (R94). -/
def Job.agrees (a b : Job) : Prop := { a with publishedFrontier := 0 } = { b with publishedFrontier := 0 }

/-- The jobs agree but for their published frontiers. -/
def State.SameJobs (s t : State) : Prop := ∀ j : JobId, (s.job j).agrees (t.job j)

/-- The drives' side is as it was: ports, layout map, and loss list. -/
def State.SameArray (s t : State) : Prop := t.ports = s.ports ∧ t.extents = s.extents ∧ t.losses = s.losses

/-- The row work is as it was: row engine, solver, hold table and foreground requests. -/
def State.SameWork (s t : State) : Prop :=
  t.rows = s.rows ∧ t.solver = s.solver ∧ t.holds = s.holds ∧ t.requests = s.requests

/-- The time base and pacing are as they were: settings, counters and load guard. -/
def State.SamePacing (s t : State) : Prop := t.settings = s.settings ∧ t.time = s.time ∧ t.guard = s.guard

/-- The registers, the engine state, the reset record and what is written on the board are as they were; sweeps, the set
of TAKEN slips, the answer queue and the publish state apart. -/
def State.SameRegisters (s t : State) : Prop :=
  t.board.base = s.board.base ∧ t.board.generation = s.board.generation ∧ t.board.engine = s.board.engine ∧
    t.board.quiesced = s.board.quiesced ∧ t.board.causes = s.board.causes ∧ t.board.enables = s.board.enables ∧
    t.board.resetKind = s.board.resetKind ∧ t.board.clean = s.board.clean ∧
    t.board.abandoned = s.board.abandoned ∧ t.board.slipsWritten = s.board.slipsWritten ∧
    t.board.pagesWritten = s.board.pagesWritten ∧ t.board.cuts = s.board.cuts

/-- The round pointer, the set of TAKEN slips and the sweep state are as they were. -/
def State.SameSweep (s t : State) : Prop :=
  t.board.roundPointer = s.board.roundPointer ∧ t.board.taken = s.board.taken ∧ t.board.sweep = s.board.sweep ∧
    t.board.sweepPending = s.board.sweepPending ∧ t.board.deferred = s.board.deferred

/-- The answer queue is as it was but for the answers `more` at its tail. -/
def State.Answers (s t : State) (more : List Answer) : Prop := t.board.answers = s.board.answers ++ more

/-- Everything outside the board unit is as it was, the jobs' published frontiers apart. -/
def State.SameOutside (s t : State) : Prop :=
  s.SameArray t ∧ s.SameWork t ∧ s.SamePacing t ∧ s.SameJobs t ∧ t.pending = s.pending

/-! ## What the board unit does at the end of a step -/

/-- Between two steps no cause of R159 is left to act on: each step acts on the causes it takes (log 4). -/
abbrev State.AtRest (s : State) : Prop := s.board.publishAsked = false

/-- The publish state and the published frontiers are as they were. -/
def State.Silent (s t : State) : Prop :=
  t.board.publishing = s.board.publishing ∧ t.board.owed = s.board.owed ∧
    ∀ j, (t.job j).publishedFrontier = (s.job j).publishedFrontier

/-- The step from `s` to `t` took a cause of R159: nothing comes of it in FAULTED; a publish is owed in STOPPED without
the quiesced mark, and while one is PUBLISHING; otherwise a publish begins, its snapshot the page of the state that the
step leaves, with every job's F copied into its published frontier. -/
def State.Publishes (s t : State) : Prop :=
  if t.board.engine = .faulted then s.Silent t
  else if (t.board.engine = .stopped ∧ t.board.quiesced = false) ∨ s.board.publishing.isSome = true then
    t.board.publishing = s.board.publishing ∧ t.board.owed = true ∧
      ∀ j, (t.job j).publishedFrontier = (s.job j).publishedFrontier
  else
    t.board.publishing = some t.pageFields ∧ t.board.owed = s.board.owed ∧
      ∀ j, (t.job j).publishedFrontier = (t.job j).frontier

/-- The writing of the head answer goes on, or begins where answers are written and one is queued, stamped with the tick
counter, the body of a JOBCTL giving its job as it then stands (R101, R158). -/
def State.AnswerBegins (s t : State) : Prop :=
  t.board.writing =
    if s.board.writing.isSome then s.board.writing
    else if t.board.writesAnswers then t.nextWriting
    else none

/-- The board writes in progress in `b` have been cut short, `c` being the board after it (R162, R163, R166, R167; log 60):
nothing is written but to the slip of a TAKEN write, the slip of the answer and the page; the first is TAKEN or as it was;
every byte of the others is as it was or as it was to be, of the answer the body first, and the page's generation is as
it was. The two slips are said apart, as they are of any state that a run reaches. -/
def Board.WrittenInPart (b c : Board) : Prop :=
  (∀ x, (∀ run, b.sweep = some run → run.access = .takenWrite → x ≠ b.slipAddress run.slip) →
    (∀ w a rest, b.writing = some w → b.answers = a :: rest → x ≠ b.slipAddress a.slip) →
    writtenAt x c.slipsWritten = writtenAt x b.slipsWritten) ∧
  (∀ x, b.publishing = none ∨ x ≠ b.pageAddress → writtenAt x c.pagesWritten = writtenAt x b.pagesWritten) ∧
  (∀ run, b.sweep = some run → run.access = .takenWrite →
    (∀ w a rest, b.writing = some w → b.answers = a :: rest → a.slip ≠ run.slip) →
    writtenAt (b.slipAddress run.slip) c.slipsWritten = writtenAt (b.slipAddress run.slip) b.slipsWritten ∨
      writtenAt (b.slipAddress run.slip) c.slipsWritten = some { b.slipImage run.slip with holder := holderTaken }) ∧
  (∀ w a rest, b.writing = some w → b.answers = a :: rest →
    (∀ run, b.sweep = some run → run.access = .takenWrite → run.slip ≠ a.slip) →
    let old := b.slipImage a.slip
    let new := answerImage a (b.tagOf a.slip) w
    let now := (writtenAt (b.slipAddress a.slip) c.slipsWritten).getD SlipImage.blank
    (∀ o, now.byteAt o = old.byteAt o ∨ now.byteAt o = new.byteAt o) ∧
      (now.holder = new.holder → old.holder ≠ new.holder → now = new) ∧
      ((∃ o, o < 0x10 ∧ now.byteAt o ≠ old.byteAt o) → now.body = new.body)) ∧
  ∀ page, b.publishing = some page → ∀ o,
    let old := (writtenAt b.pageAddress b.pagesWritten).getD []
    let now := (writtenAt b.pageAddress c.pagesWritten).getD []
    (pageByte now o = pageByte old o ∨ pageByte now o = pageByte page o) ∧ (o < 8 → pageByte now o = pageByte old o)

/-- A sweep of `b` has ended, `c` being the board after it (R156): in RUNNING with the pending flag set the flag is
cleared and a new sweep begins after the round pointer; otherwise none is in progress. -/
def Board.SweepEnded (b c : Board) : Prop :=
  if b.engine = .running ∧ b.sweepPending = true then
    c.sweepPending = false ∧ c.sweep = c.visit 64 (nextSlip c.roundPointer)
  else c.sweep = none ∧ c.sweepPending = b.sweepPending

/-- The sweep `run` of `b` is done with its slip, `c` being the board after it (R156): it goes on to the next slip that
is not TAKEN, or ends where none of its 64 slips is left or the engine has left RUNNING. -/
def Board.SweepGoesOn (b c : Board) (run : SweepRun) : Prop :=
  if run.stopping = true then b.SweepEnded c
  else match b.visit (run.left - 1) (nextSlip run.slip) with
    | some next => c.sweep = some next ∧ c.sweepPending = b.sweepPending
    | none => b.SweepEnded c

/-- A sweep request made in `s` (R156): in RUNNING without a sweep one begins after the round pointer; otherwise the
pending flag is set. -/
def Board.SweepRequested (b c : Board) : Prop :=
  if b.engine = .running ∧ b.sweep = none then
    c.sweepPending = b.sweepPending ∧ c.sweep = c.visit 64 (nextSlip c.roundPointer)
  else c.sweep = b.sweep ∧ c.sweepPending = true

/-- The read of the slip that a sweep is at completed in the step from `s` to `t`: its tag is kept, with the extent of a
foreground slip, and the sweep goes on (R156, R157). -/
def State.Dispatched (s t : State) (run : SweepRun) (tag : BitVec 64) (mark : Option ExtentId) : Prop :=
  t.board.taken = s.board.taken.map (fun x =>
      if x.slip = run.slip then { x with tag := tag, foreground := mark.or x.foreground } else x) ∧
    s.board.SweepGoesOn t.board run ∧ t.board.roundPointer = s.board.roundPointer ∧ t.board.deferred = s.board.deferred

/-- A slip command answered at once, with `a`: its slip is dispatched, the answer joins the queue, and the registers and
what is written on the board stay. -/
def State.AnswersAtOnce (s t : State) (run : SweepRun) (tag : BitVec 64) (a : Answer) : Prop :=
  s.Dispatched t run tag none ∧ s.Answers t [a] ∧ s.SameRegisters t ∧ s.AnswerBegins t

/-- A slip command refused with a reason: it is answered at once with a body of zeros, and nothing else changes. -/
def State.Refuses (s t : State) (run : SweepRun) (tag : BitVec 64) (reason : Reason) : Prop :=
  s.AnswersAtOnce t run tag { slip := run.slip, status := .refused, reason := reason, body := [] } ∧
    s.SameOutside t ∧ s.Silent t

/-- A slip command whose slip stays TAKEN without an answer: it is dispatched, and the registers and what is written on
the board stay. -/
def State.KeepsSlip (s t : State) (run : SweepRun) (tag : BitVec 64) (mark : Option ExtentId) : Prop :=
  s.Dispatched t run tag mark ∧ s.Answers t [] ∧ s.SameRegisters t ∧ s.AnswerBegins t

/-- The answer queue is as it was but for the answers of the slips that are there, in order. -/
def answersOf (l : List (Option SlipId × Status × Reason × List BodyField)) : List Answer :=
  l.filterMap fun x => x.1.map fun slip => { slip := slip, status := x.2.1, reason := x.2.2.1, body := x.2.2.2 }

/-- The answer to a JOBCTL, whose values are taken when it is written (R101). -/
def controlAnswer (slip : SlipId) (status : Status) (j : JobId) : Answer :=
  { slip := slip, status := status, reason := .none, body := [], control := some { job := j, drained := none } }

/-- The answer to the PAUSE of a PAUSING job that a drain supersedes: FAILED, with the state ABORTING and the drain cause
in its body (R98, R99, R104). -/
def State.supersededPause (s : State) (j : JobId) (cause : EndCause) : List Answer :=
  if (s.job j).state = .pausing then
    (s.job j).control.toList.map fun slip =>
      { slip := slip, status := .failed, reason := .none, body := [],
        control := some { job := j, drained := some cause } }
  else []

/-- The other job records are as they were. -/
def State.SameOtherJobs (s t : State) (j : JobId) : Prop := ∀ k : JobId, k ≠ j → (s.job k).agrees (t.job k)

/-- The parts of a port that a change of another port's member state leaves alone. -/
def Port.SameMember (a b : Port) : Prop :=
  b.memberState = a.memberState ∧ b.stalled = a.stalled ∧ b.lapseCount = a.lapseCount ∧ b.link = a.link ∧
    b.slots = a.slots ∧ b.issueNumber = a.issueNumber ∧ b.lapses = a.lapses ∧ b.lateReplies = a.lateReplies ∧
    b.unreadableBlocks = a.unreadableBlocks ∧ b.repairs = a.repairs ∧ b.probes = a.probes

/-! ## Row operations -/

/-- No request of context `c` is pending or outstanding at any port. -/
def State.NothingOpen (s : State) (c : ContextId) : Prop :=
  ∀ p : PortId, (∀ r ∈ (s.port p).waiting, r.owner ≠ some c) ∧
    ∀ (i : Tag) (o : Outstanding), (s.port p).slots[i.val] = some o → o.request.owner ≠ some c

/-- The first boundary test (R63, R56): the extent is LOST, or became LOST while the operation ran (log 26). -/
def State.LosesRow (s : State) (op : Operation) : Prop :=
  (s.extent op.extent).condition = .lost ∨ op.lostSeen = true

/-- The second boundary test (R63, R99): the operation's job drains after the loss of its last target, whatever its drain
cause (log 27). -/
def State.LosesTarget (s : State) (op : Operation) : Prop :=
  ∃ j, op.owner = .job j ∧ (s.job j).state = .aborting ∧ (s.job j).targetless = true

/-- The operation passes both boundary tests (R63). -/
def State.Passes (s : State) (op : Operation) : Prop := ¬ s.LosesRow op ∧ ¬ s.LosesTarget op

/-- The record of job `k` once the operation `op` has ended with an outcome, its published frontier apart: the drain
count falls where the job counts the operation (R90), and the job whose row it is takes the row (R92, R93). -/
def State.jobAfter (s : State) (k : JobId) (op : Operation) (outcome : RowOutcome) : Job :=
  let x := s.job k
  let x :=
    if op.countedBy = some k ∧ x.state = .starting ∧ x.extent = op.extent then { x with drainCount := x.drainCount - 1 }
    else x
  if op.owner = .job k ∧ op.row ∈ x.inFlight then
    if outcome.completed then x.takeCompletion op.row op.plan.copy op.tallies else x.takeFailure op.row op.tallies
  else x

/-- The owner of `op` has taken its outcome (R71): the request of a slip by R119, which then tests its start condition
(R118), or the job by R92 or R93. -/
def State.OwnerTakes (s t : State) (op : Operation) (outcome : RowOutcome) (kept settled : Bool) : Prop :=
  (∀ i piece, op.owner = .slip i piece → t.requests = s.requests.map fun r =>
    if r.slip = i then (r.takeRow op.row outcome op.tallies kept settled).testPieces s.board.engine else r) ∧
  (∀ j, op.owner = .job j → t.requests = s.requests) ∧ ∀ k, (t.job k).agrees (s.jobAfter k op outcome)

/-- The operation `op` of context `c` has ended with an outcome (R71): its owner has taken it, its context is free, it is
off every list, and its hold is left; of the drives' side, the pacing and the board nothing has changed. -/
def State.OperationEnded (s t : State) (c : ContextId) (op : Operation) (outcome : RowOutcome) (kept settled : Bool) :
    Prop :=
  s.OwnerTakes t op outcome kept settled ∧
    t.context c = none ∧ (∀ d, d ≠ c → t.context d = s.context d) ∧ t.rows.contextWait = s.rows.contextWait ∧
    t.rows.frameWait = s.rows.frameWait.filter (fun d => d ≠ c) ∧ t.holds = s.holds.leave c ∧
    t.solver = { busy := if s.solver.busy = some c then none else s.solver.busy
                 queue := s.solver.queue.filter fun d => d ≠ c } ∧
    t.ports = s.ports ∧ t.extents = s.extents ∧ s.SamePacing t ∧ t.pending = s.pending ∧ s.SameRegisters t ∧
    s.SameSweep t ∧ s.Answers t [] ∧ s.AnswerBegins t

/-- The operation `op` of context `c` has ended without completing: its owner has taken the outcome, and the loss list
and the unsettled rows stay. -/
def State.OperationFails (s t : State) (c : ContextId) (op : Operation) (outcome : RowOutcome) : Prop :=
  s.OperationEnded t c op outcome false false ∧ t.losses = s.losses ∧ t.rows.unsettled = s.rows.unsettled ∧ s.Silent t

/-- The owner of a request of port `p`, if it goes on in `t`, has had its ending (R25, R30, R35): of a READ it holds the
result, and of a WRITE nothing is left to be written to the port. -/
def State.Told (t : State) (p : PortId) (r : Request) (ending : Ending) : Prop :=
  ∀ c op, r.owner = some c → t.context c = some op →
    (r.kind = .read →
      { position := r.position, port := p, first := r.offset, count := r.count, ending := ending } ∈ op.results) ∧
    (r.kind = .write → ∀ w ∈ op.writesLeft, w.port ≠ p)

/-- The reads among some that fail at once, at a port whose member is neither ONLINE nor TARGET (R22, R26). -/
def State.readFailures (s : State) (reads : List PlanRead) : List ReadResult :=
  (reads.filter fun r => !(s.port r.port).memberState.carries).map fun r =>
    { position := r.position, port := r.port, first := r.first, count := r.count, ending := .linkLost }

/-- The reads of an operation have joined the pending lists of their ports, in order, each for its run of the position's
row slice; nothing else of a port has changed (R26, R65). -/
def State.ReadsSubmitted (s t : State) (c : ContextId) (op : Operation) (reads : List PlanRead) : Prop :=
  ∀ p : PortId, t.port p = { s.port p with waiting := (s.port p).waiting ++
    (reads.filter fun r => r.port == p && (s.port p).memberState.carries).map fun r =>
      { kind := .read, cls := if op.kind = .rebuildRow then .rebuild else .foreground, owner := some c,
        position := r.position, offset := r.first, memberBlock := (s.extent op.extent).memberBlock op.row r.first,
        count := r.count, repair := false } }

/-- The runs that an operation writes as the member states stand: for each destination whose position has a frame, its
port, its position and its runs in order (R64, R70). -/
def State.writeRuns (s : State) (op : Operation) : List (PortId × Nat × List WriteRun) :=
  ((s.destinations op).filter fun d => op.hasFrame d.2.1).map fun d => (d.1, d.2.1, op.runsFor d.1 d.2.1 d.2.2)

/-- The writes of `op` have begun, `op'` being the operation after (R70): the first run for each destination has joined
the pending list of its port, each for its run of the position's row slice, the other runs wait in order, and a write to
a port of the target list has set the written mark (R81). Nothing else of a port has changed. -/
def State.WritesSubmitted (s t : State) (c : ContextId) (op op' : Operation) : Prop :=
  op' = { op with
    writesLeft := op.writesLeft ++ (s.writeRuns op).map fun d => { port := d.1, runs := d.2.2.tail }
    written := op.written || (s.writeRuns op).any fun d => s.listedPort op.extent d.2.1 == some d.1 } ∧
  ∀ p : PortId, t.port p = { s.port p with waiting := (s.port p).waiting ++
    ((s.writeRuns op).filter fun d => d.1 == p).flatMap fun d => d.2.2.head?.toList.map (s.writeRequest c op) }

/-- The operation `op` of context `c` has entered PLACE, `op'` being the operation after: a READ_ROW delivers every
requested block to its buffer place, the other kinds have begun their writes (R69, R70, R76). -/
def State.PlaceEntered (s t : State) (c : ContextId) (op op' : Operation) : Prop :=
  (op.kind = .readRow →
    op' = { op with phase := .place, delivering := true, delivery := s.deliveryOf op } ∧ t.ports = s.ports) ∧
  (op.kind ≠ .readRow → s.WritesSubmitted t c { op with phase := .place } op')

/-- The operation `op` of context `c` has planned (R64): it has ended; it waits for stalled members; a READ_ROW that
needs no frame delivers at once (R75); the plan is taken over the frames held where they suffice, and what it still is
to read is submitted (R66); or the frames held go back, and it waits for frames at the tail of their list. -/
def State.PlanTaken (s t : State) (c : ContextId) (op : Operation) : Prop :=
  (∀ outcome, s.makePlan op = .ended outcome → s.OperationFails t c op outcome) ∧
  (∀ ports, s.makePlan op = .await ports →
    t.context c = some (op.await ports) ∧ t.rows.frameWait = s.rows.frameWait ∧ t.ports = s.ports) ∧
  (∀ plan, s.makePlan op = .ready plan →
    let places := op.kind = .readRow ∧ plan.frameNeed = 0
    let keeps := op.frames ≠ [] ∧ plan.frameNeed ≤ op.frames.length
    let reads := plan.reads.filter fun r => !(op.keptResults plan).any fun x => x.position == r.position
    let kept := if op.fetched = none then (op.keepPlan plan).beginFetch (s.bufferPlaces op) else op.keepPlan plan
    (places → ∃ op', t.context c = some op' ∧
      s.PlaceEntered t c ((op.waitFrames plan).solved (s.extent op.extent)) op' ∧ t.rows.frameWait = s.rows.frameWait) ∧
    (¬ places → keeps →
      t.context c = some { kept with results := op.keptResults plan ++ s.readFailures reads } ∧
        s.ReadsSubmitted t c op reads ∧ t.rows.frameWait = s.rows.frameWait) ∧
    (¬ places → ¬ keeps →
      t.context c = some (op.waitFrames plan) ∧ t.rows.frameWait = s.rows.frameWait ++ [c] ∧ t.ports = s.ports)) ∧
  (∀ d, d ≠ c → t.context d = s.context d) ∧ t.rows.contextWait = s.rows.contextWait ∧
  t.rows.unsettled = s.rows.unsettled ∧ t.extents = s.extents ∧ t.losses = s.losses ∧ s.SamePacing t ∧
  t.pending = s.pending ∧ s.SameRegisters t ∧ s.SameSweep t ∧ s.Answers t [] ∧ s.Silent t ∧ s.AnswerBegins t

/-! ## Plans by kind -/

/-- The block at offset `i` of position `p` is requested, or covered, by the operation (R58). -/
def State.Asked (s : State) (op : Operation) (p i : Nat) : Prop :=
  i < 16 ∧ ∃ r ∈ op.requested, r.strip < (s.extent op.extent).dataCount ∧ r.first ≤ i ∧ i < r.first + r.count ∧
    (s.extent op.extent).dataPosition ((s.extent op.extent).stripeOf op.row) r.strip = p

/-- The block is requested, and its array block is on the loss list (R75, R129). -/
def State.AskedListed (s : State) (op : Operation) (p i : Nat) : Prop :=
  s.Asked op p i ∧ ∃ j, j < (s.extent op.extent).dataCount ∧
    (s.extent op.extent).dataPosition ((s.extent op.extent).stripeOf op.row) j = p ∧
    Listed s.arrayLimits s.losses.entries op.extent ((s.extent op.extent).arrayBlock op.row j i)

/-- The block is requested and not on the loss list (R75). -/
def State.Serves (s : State) (op : Operation) (p i : Nat) : Prop := s.Asked op p i ∧ ¬ s.AskedListed op p i

/-- The operation writes the block at offset `i` of position `p` to port `q`, as the member states stand and with what it
has read so far (R64, R70). To an ONLINE port of the target list: a REBUILD_ROW the blocks that the port reported
unreadable, and parity at closed offsets (R72); a READ_ROW the blocks that it restored of those (R76); a WRITE_ROW
parity whole, the covered blocks and those reported unreadable, and all of a position whose decided target the port is
(R77, R78; log 62); a RESYNC_ROW parity whole (R79). To a TARGET of its own job a REBUILD_ROW writes a source position whole,
to the decided target of a position a WRITE_ROW the position whole, a RESYNC_ROW parity. -/
def State.Writes (s : State) (op : Operation) (q : PortId) (p i : Nat) : Prop :=
  let e := s.extent op.extent
  let parity := e.pPosition (e.stripeOf op.row) = p ∨ e.qPosition (e.stripeOf op.row) = some p
  let unreadable := fun port : PortId =>
    ∃ r ∈ op.results, r.position = p ∧ r.port = port ∧ ∃ l, r.ending = .unreadable l ∧ i ∈ l
  i < 16 ∧ p < e.memberCount ∧
    ((e.targets[p]? = some q ∧ (s.port q).memberState = .online ∧
        match op.kind with
        | .rebuildRow => unreadable q ∨ (parity ∧ i ∈ op.closed)
        | .readRow => unreadable q ∧ ∃ r ∈ op.record, r.position = p ∧ r.offset = i ∧ r.origin = .solved
        | .writeRow => parity ∨ op.decided p = some q ∨ s.Asked op p i ∨ unreadable q
        | .resyncRow => parity) ∨
      ((s.port q).memberState = .target ∧
        match op.kind with
        | .rebuildRow => ∃ j, op.owner = .job j ∧ (s.job j).targetOf p = some q
        | .readRow => False
        | .writeRow => op.decided p = some q ∧ ∃ j, s.jobOn op.extent = some j ∧ (s.job j).targetOf p = some q
        | .resyncRow =>
          parity ∧ op.decided p = some q ∧ ∃ j, s.jobOn op.extent = some j ∧ (s.job j).targetOf p = some q))

/-- The operation is a REBUILD_ROW of a COPY job whose outgoing member is ONLINE and not stalled, `p` being its source
position: it plans a copy row (R73). -/
def State.CopiesFrom (s : State) (op : Operation) (p : Nat) : Prop :=
  op.kind = .rebuildRow ∧ ∃ j q x, op.owner = .job j ∧ (s.job j).mode = .copy ∧ (s.job j).outgoing = some q ∧
    (s.job j).sources.head? = some x ∧ x.position = p ∧ (s.port q).memberState = .online ∧ (s.port q).stalled = false

/-- A plan of the operation produces the block at offset `i` of position `p` (R64 step 4): of a REBUILD_ROW the source
positions of its job (R72, R73), of a READ_ROW the blocks it serves on unavailable positions (R75), of a WRITE_ROW
parity, positions with a decided target, and the covered blocks (R77), of a RESYNC_ROW parity (R79). -/
def State.Produces (s : State) (op : Operation) (p i : Nat) : Prop :=
  let e := s.extent op.extent
  let parity := e.pPosition (e.stripeOf op.row) = p ∨ e.qPosition (e.stripeOf op.row) = some p
  i < 16 ∧
    match op.kind with
    | .rebuildRow => ∃ j, op.owner = .job j ∧ ∃ x ∈ (s.job j).sources, x.position = p
    | .readRow => s.Serves op p i ∧ s.servingPort op.extent p op.row = none
    | .writeRow => parity ∨ (p < e.memberCount ∧ op.decided p ≠ none) ∨ s.Asked op p i
    | .resyncRow => parity

/-- The read set of the operation's kind calls for the block at offset `i` of position `p`, where the position is
available (R64 step 6): of a REBUILD_ROW data and P, and Q where two positions are unavailable (R72), or for a copy row
the outgoing strip, with all of those once a plan over more has gone before (R73); of a READ_ROW the blocks it serves, and
data, P and Q as before at the offsets of those on unavailable positions (R75); of a WRITE_ROW the data not wholly
covered, P where such a position is unavailable, and Q where two are (R77); of a RESYNC_ROW the data (R79). -/
def State.ReadsFor (s : State) (op : Operation) (p i : Nat) : Prop :=
  let e := s.extent op.extent
  let data := fun p => p ∈ e.dataPositions op.row
  let gone := fun p => p < e.memberCount ∧ s.servingPort op.extent p op.row = none
  let twoGone := ∃ a b, a ≠ b ∧ gone a ∧ gone b
  let others := data p ∨ e.pPosition (e.stripeOf op.row) = p ∨ (e.qPosition (e.stripeOf op.row) = some p ∧ twoGone)
  let part := fun p => data p ∧ ∃ i, i < 16 ∧ ¬ s.Asked op p i
  i < 16 ∧
    match op.kind with
    | .rebuildRow =>
      (s.CopiesFrom op p ∨ (¬ (∃ source, s.CopiesFrom op source) ∧ others)) ∨
        ((∃ source, s.CopiesFrom op source ∧ ∃ w ∈ op.carried, w.position ≠ source) ∧ others)
    | .readRow => s.Serves op p i ∨ (others ∧ ∃ a, gone a ∧ s.Serves op a i)
    | .writeRow =>
      part p ∨ (e.pPosition (e.stripeOf op.row) = p ∧ ∃ a, gone a ∧ part a) ∨
        (e.qPosition (e.stripeOf op.row) = some p ∧ ∃ a b, a ≠ b ∧ gone a ∧ gone b ∧ part a ∧ part b)
    | .resyncRow => data p

/-- The read set that the operation carries from an earlier plan calls for the block (R66). A READ_ROW keeps of it only
offsets that it still serves somewhere, and there no block that is listed by now and nothing of a strip whose requested
blocks all are, unless a block of the offset that it serves was found erased and is to be restored (R75, R129; log 11). -/
def State.ReadsAgain (s : State) (op : Operation) (p i : Nat) : Prop :=
  let e := s.extent op.extent
  let called := (op.erasures e i).length ≤ e.parityCount ∧ ∃ a, op.erased i a = true ∧ s.Serves op a i
  (∃ w ∈ op.carried, w.position = p ∧ w.first ≤ i ∧ i < w.first + w.count) ∧
    (op.kind = .readRow → (∃ a, s.Serves op a i) ∧
      (called ∨ (¬ s.AskedListed op p i ∧ ((∀ k, ¬ s.Asked op p k) ∨ ∃ k, s.Serves op p k))))

/-! ## Evaluation -/

/-- A read for this plan reported the block at offset `i` of position `p` unreadable (R45, R65). -/
def Operation.Reported (op : Operation) (p i : Nat) : Prop :=
  ∃ r ∈ op.results, r.position = p ∧ ∃ l, r.ending = .unreadable l ∧ i ∈ l

/-- A read for this plan of position `p` ended neither GOOD nor UNREADABLE (R45, R65). -/
def Operation.ReadFailed (op : Operation) (p : Nat) : Prop :=
  ∃ r ∈ op.results, r.position = p ∧ r.ending ≠ .good ∧ ∀ l, r.ending ≠ .unreadable l

/-- Position `p` is erased at offset `i` (R45): unavailable at the plan (log 41), its read failed, or the block reported
unreadable. -/
def Operation.InErasureSet (op : Operation) (p i : Nat) : Prop :=
  p ∈ op.plan.unavailable ∨ op.ReadFailed p ∨ op.Reported p i

/-- The block was read for this plan, whatever the read brought (R66 step 2). -/
def Operation.WasRead (op : Operation) (p i : Nat) : Prop :=
  ∃ r ∈ op.results, r.position = p ∧ r.first ≤ i ∧ i < r.first + r.count

/-- The block is requested, and was not listed at the plan (R75). -/
def State.Wanted (s : State) (op : Operation) (p i : Nat) : Prop := s.Asked op p i ∧ (p, i) ∉ op.plan.listed

/-- The operation must produce offset `i` (R66): of a READ_ROW one of its unlisted requested blocks (R75), of the other
kinds all sixteen (R72, R77, R79). -/
def State.MustProduce (s : State) (op : Operation) (i : Nat) : Prop :=
  i < 16 ∧ (op.kind = .readRow → ∃ p, s.Wanted op p i)

/-- The block must be restored if it is erased: of a REBUILD_ROW an output or a block reported unreadable (R72; of a
widened copy row log 63), of a READ_ROW an unlisted requested block (R76), of a WRITE_ROW uncovered data (R49), of a
RESYNC_ROW data (R79). -/
def State.MustRestore (s : State) (op : Operation) (p i : Nat) : Prop :=
  let data := p ∈ (s.extent op.extent).dataPositions op.row
  match op.kind with
  | .rebuildRow => op.plan.outputAt i p = true ∨ op.Reported p i
  | .readRow => s.Wanted op p i
  | .writeRow => data ∧ ¬ s.Asked op p i
  | .resyncRow => data

/-- Nothing that must be restored is erased (R69). -/
def State.AllPresent (s : State) (op : Operation) : Prop :=
  ∀ p i, p < (s.extent op.extent).memberCount → s.MustProduce op i → s.MustRestore op p i → ¬ op.InErasureSet p i

/-- Offset `i` must be produced and more positions are erased there than the extent has parity (R45), save in a copy row
with nothing to restore (R73; log 9). -/
def State.Unsolvable (s : State) (op : Operation) (i : Nat) : Prop :=
  let e := s.extent op.extent
  s.MustProduce op i ∧ ¬ (op.plan.copy = true ∧ s.AllPresent op) ∧
    ∃ l : List Nat, l.Nodup ∧ e.parityCount < l.length ∧ ∀ p ∈ l, p < e.memberCount ∧ op.InErasureSet p i

/-- The method that R46, R47 or R48 prescribes for the erasure set of offset `i` calls on position `p`: the data not
erased; for one data strip erased P, or Q where P is erased too; and for two both. -/
def State.MethodCalls (s : State) (op : Operation) (p i : Nat) : Prop :=
  let e := s.extent op.extent
  let data := fun p => p ∈ e.dataPositions op.row
  let erased := fun p => op.InErasureSet p i
  let isP := e.pPosition (e.stripeOf op.row) = p
  let isQ := e.qPosition (e.stripeOf op.row) = some p
  let two := ∃ a b, a ≠ b ∧ data a ∧ data b ∧ erased a ∧ erased b
  (data p ∧ ¬ erased p) ∨
    ((∃ a, data a ∧ erased a) ∧ ¬ two ∧
      ((erased (e.pPosition (e.stripeOf op.row)) ∧ isQ) ∨ (¬ erased (e.pPosition (e.stripeOf op.row)) ∧ isP))) ∨
    (two ∧ (isP ∨ isQ))

/-- Evaluation calls on the block at offset `i` of position `p` (R66). What the operation takes as it was read is called
on where it is not erased: the outputs of a REBUILD_ROW, and of the other kinds what they would restore. At a solvable
offset at which something erased is to be restored, so is the method's set; at an unsolvable one that is about to be
closed, all data that is neither erased nor covered (R50; log 10). -/
def State.CallsOn (s : State) (op : Operation) (closing : Bool) (p i : Nat) : Prop :=
  let e := s.extent op.extent
  p < e.memberCount ∧ s.MustProduce op i ∧
    (((match op.kind with
        | .rebuildRow => op.plan.outputAt i p = true
        | .readRow | .writeRow | .resyncRow => s.MustRestore op p i) ∧ ¬ op.InErasureSet p i) ∨
      (s.Unsolvable op i ∧ closing = true ∧ op.kind ≠ .readRow ∧ p ∈ e.dataPositions op.row ∧ ¬ op.InErasureSet p i ∧
        (op.kind = .writeRow → ¬ s.Asked op p i)) ∨
      (¬ s.Unsolvable op i ∧ (∃ a, a < e.memberCount ∧ op.InErasureSet a i ∧ s.MustRestore op a i) ∧
        s.MethodCalls op p i))

end Sys2Proof.Machine
end

