-- ==== Sys2Proof/Certificates/Slice0/Obligations.lean ====
section
/-! DEFINITION. Certificates/Slice0/Obligations.lean: what is claimed of the model, for the provers. OBLIGATIONS.json lists
the statements with the rules they rest on. -/

open Sys2Proof Sys2Proof.Machine

/-! ## The step and reset -/

/-- A step takes the command at the front of the queue and carries it out on the state with the queue's rest. On an
empty queue the engine idles, which is the model's choice (log 3). -/
def Obligations.StepRunsFront : Prop :=
  (∀ (c : Instr) (rest : List Instr) (s : State), s.pending = c :: rest → step s = exec c { s with pending := rest }) ∧
    ∀ s : State, s.pending = [] → step s = .next s

/-- Power-on reset leaves every value that R3, R24, R57, R84, R86, R109, R126, R137, R149 and R163 give for it; the
commands waiting stay. -/
def Obligations.PowerOnResetLeaves : Prop :=
  ∀ s : State, ∃ t : State, exec .powerOnReset s = .next t ∧ t.pending = s.pending ∧
    (∀ p, (t.port p).memberState = .absent ∧ (t.port p).stalled = false ∧ (t.port p).lapseCount = 0 ∧
      (t.port p).link = .down ∧ (t.port p).slots = Vector.replicate 8 none ∧ (t.port p).waiting = [] ∧
      (t.port p).issueNumber = 0 ∧ (t.port p).lapses = 0 ∧ (t.port p).lateReplies = 0 ∧
      (t.port p).unreadableBlocks = 0 ∧ (t.port p).repairs = 0 ∧ (t.port p).probes = 0) ∧
    (∀ e, (t.extent e) = Extent.empty) ∧
    (∀ c, t.context c = none) ∧ t.rows.contextWait = [] ∧ t.rows.frameWait = [] ∧ t.rows.unsettled = [] ∧
    t.framesFree = 160 ∧ t.solver.busy = none ∧ t.solver.queue = [] ∧ t.holds.entries = [] ∧ t.requests = [] ∧
    (∀ j, t.job j = Job.free) ∧ t.losses.entries = [] ∧ t.losses.coarsenings = 0 ∧ t.losses.kept = 0 ∧
    t.settings.toList = [64, 15625, 3, 0, 1563, 12, 16, 1563] ∧
    t.time.tick = 0 ∧ t.time.sweepTimer = 0 ∧ t.time.periodCounter = 0 ∧
    t.guard.state = .cool ∧ t.guard.sense = 0 ∧ t.guard.hold = 0 ∧
    t.board.base = 0 ∧ t.board.enables = 0 ∧ t.board.causes = 0 ∧ t.board.engine = .stopped ∧
    t.board.quiesced = false ∧ t.board.roundPointer = 0 ∧ t.board.taken = [] ∧ t.board.sweep = none ∧
    t.board.sweepPending = false ∧ t.board.deferred = false ∧ t.board.answers = [] ∧ t.board.publishing = none ∧
    t.board.owed = false ∧ t.board.generation = 0 ∧ t.board.resetKind = .powerOn ∧ t.board.clean = false ∧
    t.board.abandoned = 0 ∧ t.board.writing = none

/-! ## Registers and the engine state -/

/-- The register window (R151, R160). BOARD_BASE: in STOPPED the base takes the written value with its low 12 bits zero,
the half that a 4-byte write does not reach kept (log 19); in every other state the write is ignored. ATTENTION, ENABLE
SET and ENABLE CLEAR: each 1 clears that cause, enables it or disables it, each 0 leaves it; the line is asserted exactly
while some cause is both set and enabled. Nothing else changes, and a write to a register or an offset that takes none is
ignored. Which command a write is, by its offset and size: byte 0 of CONTROL gives RUN, QUIESCE or RESET, a write of the
upper half alone is ignored but at BOARD BASE. A read of 8 bytes gives a register's value and one of 4 bytes the half at its
offset, the lower half first; an offset outside the window reads zero. Accesses within the window that are not aligned to
their size, of which the model makes a choice (log 69), are left out. -/
def Obligations.RegisterAccesses : Prop :=
  (∀ (access : RegisterAccess) (value : BitVec 64) (s : State),
    (s.board.engine = .stopped →
      ∃ t : State, exec (.boardBase access value) s = .next t ∧
        (∀ i, i < 12 → t.board.base.getLsbD i = false) ∧
        (∀ i, 12 ≤ i → i < 64 → t.board.base.getLsbD i =
          match access with
          | .whole => value.getLsbD i
          | .lowHalf => if i < 32 then value.getLsbD i else s.board.base.getLsbD i
          | .highHalf => if i < 32 then s.board.base.getLsbD i else value.getLsbD (i - 32)) ∧
        t = { s with board := { s.board with base := t.board.base } }) ∧
    (s.board.engine ≠ .stopped → exec (.boardBase access value) s = .next s)) ∧
  (∀ (value : BitVec 64) (s : State), ∃ t : State, exec (.attention value) s = .next t ∧
    (∀ i, i < 3 → t.board.causes.getLsbD i = (s.board.causes.getLsbD i && !value.getLsbD i)) ∧
    t = { s with board := { s.board with causes := t.board.causes } }) ∧
  (∀ (value : BitVec 64) (s : State), ∃ t : State, exec (.enableSet value) s = .next t ∧
    (∀ i, i < 3 → t.board.enables.getLsbD i = (s.board.enables.getLsbD i || value.getLsbD i)) ∧
    t = { s with board := { s.board with enables := t.board.enables } }) ∧
  (∀ (value : BitVec 64) (s : State), ∃ t : State, exec (.enableClear value) s = .next t ∧
    (∀ i, i < 3 → t.board.enables.getLsbD i = (s.board.enables.getLsbD i && !value.getLsbD i)) ∧
    t = { s with board := { s.board with enables := t.board.enables } }) ∧
  (∀ b : Board, b.attentionLine = true ↔ ∃ i, i < 3 ∧ b.causes.getLsbD i = true ∧ b.enables.getLsbD i = true) ∧
  (∀ (offset : Nat) (value : BitVec 64) (s : State), exec (.registerWriteIgnored offset value) s = .next s) ∧
  (∀ (value : BitVec 64),
    let byte := value.toNat % 256
    (∀ size ∈ [4, 8],
      (byte = 1 → registerCommand 0x08 size value = .run) ∧ (byte = 2 → registerCommand 0x08 size value = .quiesce) ∧
      (byte = 3 → registerCommand 0x08 size value = .reset) ∧
      (byte ∉ [1, 2, 3] → registerCommand 0x08 size value = .registerWriteIgnored 0x08 value) ∧
      registerCommand 0x18 size value = .sweep value ∧ registerCommand 0x20 size value = .attention value ∧
      registerCommand 0x28 size value = .enableSet value ∧ registerCommand 0x30 size value = .enableClear value ∧
      ∀ offset, (offset < 8 ∧ offset % size = 0) ∨ 0x38 ≤ offset →
        registerCommand offset size value = .registerWriteIgnored offset value) ∧
    registerCommand 0x10 8 value = .boardBase .whole value ∧ registerCommand 0x10 4 value = .boardBase .lowHalf value ∧
    registerCommand 0x14 4 value = .boardBase .highHalf value ∧
    ∀ offset ∈ [0x0C, 0x1C, 0x24, 0x2C, 0x34], registerCommand offset 4 value = .registerWriteIgnored offset value) ∧
  ∀ s : State,
    (∀ x ∈ [(0x00, 0x12416), (0x08, s.board.engine.code), (0x10, s.board.base.toNat),
        (0x18, if s.board.sweep ≠ none ∨ s.board.sweepPending = true then 1 else 0), (0x20, s.board.causes.toNat),
        (0x28, s.board.enables.toNat), (0x30, s.board.enables.toNat)],
      s.readRegister x.1 8 = x.2 ∧ s.readRegister x.1 4 = x.2 % 2 ^ 32 ∧ s.readRegister (x.1 + 4) 4 = x.2 / 2 ^ 32) ∧
    ∀ offset, 0x38 ≤ offset → s.readRegister offset 4 = 0 ∧ s.readRegister offset 8 = 0

/-- RUN, QUIESCE and the end of a quiesce (R161, R156). RUN in STOPPED with a base other than 0 makes the engine RUNNING,
clears the quiesced mark, publishes, and begins a pending sweep, but where a sweep that was stopped still has its access
in progress leaves it and the pending flag, which is the model's choice (log 68); the start condition of each request
accepted in STOPPED is tested (R118; when it is, is the model's reading, log 23). RUNNING becomes QUIESCING by QUIESCE,
and a sweep in progress ends after its access; QUIESCING becomes STOPPED with the quiesced mark once no row operation,
request record, LOSSES transfer or queued answer is left. Both publish, and apart from what they say the registers, the
reset record and what is written on the board stay; in every other case none of the three does anything. -/
def Obligations.EngineRunsAndStops : Prop :=
  (∀ s : State,
    (s.board.engine = .stopped → s.board.base ≠ 0 →
      ∃ t : State, exec .run s = .next t ∧ t.board.engine = .running ∧ t.board.quiesced = false ∧
        (s.board.publishing = none →
          t.board.publishing = some t.pageFields ∧ t.board.owed = false ∧
            ∀ j, (t.job j).publishedFrontier = (t.job j).frontier) ∧
        (s.board.publishing ≠ none → t.board.publishing = s.board.publishing ∧ t.board.owed = true ∧
            ∀ j, (t.job j).publishedFrontier = (s.job j).publishedFrontier) ∧
        (s.board.sweepPending = true ∧ s.board.sweep = none →
          t.board.sweepPending = false ∧ t.board.sweep = s.board.visit 64 (nextSlip s.board.roundPointer)) ∧
        (¬ (s.board.sweepPending = true ∧ s.board.sweep = none) →
          t.board.sweepPending = s.board.sweepPending ∧ t.board.sweep = s.board.sweep) ∧
        t.board.base = s.board.base ∧ t.board.roundPointer = s.board.roundPointer ∧ t.board.taken = s.board.taken ∧
        t.board.deferred = s.board.deferred ∧ t.board.answers = s.board.answers ∧
        t.board.generation = s.board.generation ∧ t.board.causes = s.board.causes ∧
        t.board.enables = s.board.enables ∧ t.board.resetKind = s.board.resetKind ∧ t.board.clean = s.board.clean ∧
        t.board.abandoned = s.board.abandoned ∧ t.board.slipsWritten = s.board.slipsWritten ∧
        t.board.pagesWritten = s.board.pagesWritten ∧ t.board.cuts = s.board.cuts ∧
        t.requests = s.requests.map (fun r =>
          { r with
            granted :=
              if r.stop = none then min (4 - r.inFlight.length) (r.pieces.length - r.nextPiece) else r.granted }) ∧
        s.SameArray t ∧ t.rows = s.rows ∧ t.solver = s.solver ∧ t.holds = s.holds ∧ s.SamePacing t ∧ s.SameJobs t ∧
        t.pending = s.pending ∧ s.AnswerBegins t) ∧
    (s.board.engine ≠ .stopped ∨ s.board.base = 0 → exec .run s = .next s)) ∧
  (∀ s : State, s.AtRest →
    (s.board.engine = .running →
      ∃ t : State, exec .quiesce s = .next t ∧ t.board.engine = .quiescing ∧
        s.SameRegisters { t with board := { t.board with engine := s.board.engine } } ∧
        (t.board.sweep = none ↔ s.board.sweep = none) ∧
        (∀ run, s.board.sweep = some run → t.board.sweep = some { run with stopping := true }) ∧
        t.board.sweepPending = s.board.sweepPending ∧ t.board.taken = s.board.taken ∧
        t.board.roundPointer = s.board.roundPointer ∧ t.board.deferred = s.board.deferred ∧
        s.Answers t [] ∧ s.SameOutside t ∧ s.Publishes t ∧ s.AnswerBegins t) ∧
    (s.board.engine ≠ .running → exec .quiesce s = .next s)) ∧
  ∀ s : State, s.AtRest →
    (s.board.engine = .quiescing → (∀ c, s.context c = none) → s.rows.contextWait = [] → s.requests = [] →
        s.losses.transfers = [] → s.board.answers = [] →
      ∃ t : State, exec .quiesceComplete s = .next t ∧ t.board.engine = .stopped ∧ t.board.quiesced = true ∧
        s.SameRegisters { t with board :=
          { t.board with engine := s.board.engine, quiesced := s.board.quiesced } } ∧
        s.SameSweep t ∧ s.Answers t [] ∧ s.SameOutside t ∧ s.Publishes t ∧ s.AnswerBegins t) ∧
    (s.board.engine ≠ .quiescing ∨ (∃ c, s.context c ≠ none) ∨ s.rows.contextWait ≠ [] ∨ s.requests ≠ [] ∨
        s.losses.transfers ≠ [] ∨ s.board.answers ≠ [] → exec .quiesceComplete s = .next s)

/-! ## Sweeps, answers and publishes -/

/-- Sweep requests (R144, R156): SWEEP makes one where bit 0 of the value is 1, and SWEEP_TIMER_EXPIRY once the timer
has reached an interval that is not 0, which sets the timer to 0. In RUNNING a request that finds no sweep begins one
after the round pointer; any other request sets the pending flag. A sweep's visit is the first of the slips left, from
the one it starts at, that is not TAKEN, and it begins by reading that slip's holder; there is none exactly when all of
them are TAKEN. -/
def Obligations.SweepsAsked : Prop :=
  (∀ (b : Board) (left : Nat) (i : SlipId), left ≤ 64 →
     (∀ run, b.visit left i = some run ↔
       ∃ n, n < left ∧ run = { slip := Fin.ofNat 64 (i.val + n), left := left - n, access := .holderRead,
                               stopping := false } ∧
         b.isTaken run.slip = false ∧ ∀ m, m < n → b.isTaken (Fin.ofNat 64 (i.val + m)) = true) ∧
     (b.visit left i = none ↔ ∀ n, n < left → b.isTaken (Fin.ofNat 64 (i.val + n)) = true)) ∧
  (∀ s : State, s.AtRest →
     (∀ value : BitVec 64, value.getLsbD 0 = true →
       ∃ t : State, exec (.sweep value) s = .next t ∧ s.board.SweepRequested t.board ∧
         t.board.taken = s.board.taken ∧ t.board.roundPointer = s.board.roundPointer ∧
         t.board.deferred = s.board.deferred ∧ s.Answers t [] ∧ s.SameRegisters t ∧ s.SameOutside t ∧ s.Silent t ∧
         s.AnswerBegins t) ∧
     (∀ value : BitVec 64, value.getLsbD 0 = false → exec (.sweep value) s = .next s) ∧
     (s.settings.sweepInterval ≠ 0 → s.settings.sweepInterval ≤ s.time.sweepTimer →
       ∃ t : State, exec .sweepTimerExpiry s = .next t ∧ t.time = { s.time with sweepTimer := 0 } ∧
         s.board.SweepRequested t.board ∧ t.board.taken = s.board.taken ∧
         t.board.roundPointer = s.board.roundPointer ∧ t.board.deferred = s.board.deferred ∧ s.Answers t [] ∧
         s.SameRegisters t ∧ s.SameArray t ∧ s.SameWork t ∧ s.SameJobs t ∧ t.settings = s.settings ∧
         t.guard = s.guard ∧ t.pending = s.pending ∧ s.Silent t ∧ s.AnswerBegins t) ∧
     (s.settings.sweepInterval = 0 ∨ s.time.sweepTimer < s.settings.sweepInterval →
       exec .sweepTimerExpiry s = .next s))

/-- The steps of a sweep (R156, R157, R153, R154). SWEEP_HOLDER_READ: a POSTED slip is taken while fewer than 48 are TAKEN,
the round pointer moving to it, with the holder read and not with the completed write by the model's reading (log 17); at
48 the sweep ends and the deferred mark is set; any other value is passed over. A sweep that the engine's leaving RUNNING
has stopped ends with the read and leaves the deferred mark, also where it finds POSTED with 48 TAKEN, which is the model's
choice (log 67). TAKEN_WRITE: when the write of TAKEN completes, the slip joins the set of TAKEN slips and
the read of the slip begins; of the board the engine has written the slip's holder alone, 1000h and 100h for each slip
past the base (the other bytes of a slip not written before stand as the model's blank image, log 22; that it is the base in
force at the completion, and addresses past 2^64, are its choices, logs 65 and 66). The kind byte of
the slip read picks the owner, 1 to 9 as R153 lists them, and of kinds 3, 5 and 9 the operation code at 20h the command; a
code outside the list goes to the first operation, which refuses it (log 30). BAD_KIND: a kind outside the nine is refused
with BAD_KIND and a body of zeros, at once; a kind among the nine is no case of it. -/
def Obligations.SlipsTaken : Prop :=
  (∀ (s : State) (run : SweepRun) (holder : Byte), s.AtRest → s.board.sweep = some run → run.access = .holderRead →
    ∃ t : State, exec (.sweepHolderRead holder) s = .next t ∧
      (run.stopping = true → s.board.SweepEnded t.board ∧ t.board.roundPointer = s.board.roundPointer ∧
        t.board.deferred = s.board.deferred) ∧
      (run.stopping = false → holder = 1 → s.board.taken.length < 48 →
        t.board.sweep = some { run with access := .takenWrite } ∧ t.board.sweepPending = s.board.sweepPending ∧
        t.board.roundPointer = run.slip ∧ t.board.deferred = s.board.deferred) ∧
      (run.stopping = false → holder = 1 → 48 ≤ s.board.taken.length →
        s.board.SweepEnded t.board ∧ t.board.roundPointer = s.board.roundPointer ∧ t.board.deferred = true) ∧
      (run.stopping = false → holder ≠ 1 →
        s.board.SweepGoesOn t.board run ∧ t.board.roundPointer = s.board.roundPointer ∧
        t.board.deferred = s.board.deferred) ∧
      t.board.taken = s.board.taken ∧ s.Answers t [] ∧ s.SameRegisters t ∧ s.SameOutside t ∧ s.Silent t ∧
      s.AnswerBegins t) ∧
  (∀ (s : State) (run : SweepRun), s.AtRest → s.board.sweep = some run → run.access = .takenWrite →
    let address := s.board.base.toNat + 0x1000 + 0x100 * run.slip.val
    ∃ t : State, exec .takenWrite s = .next t ∧
      t.board.takenSlips = s.board.takenSlips ++ [run.slip] ∧ t.board.taken.take s.board.taken.length = s.board.taken ∧
      t.board.taken.length = s.board.taken.length + 1 ∧
      t.board.sweep = some { run with access := .slipRead } ∧ t.board.sweepPending = s.board.sweepPending ∧
      t.board.roundPointer = s.board.roundPointer ∧ t.board.deferred = s.board.deferred ∧
      writtenAt address t.board.slipsWritten =
        some { (writtenAt address s.board.slipsWritten).getD SlipImage.blank with holder := 2 } ∧
      (∀ a, a ≠ address → writtenAt a t.board.slipsWritten = writtenAt a s.board.slipsWritten) ∧
      s.SameRegisters { t with board := { t.board with slipsWritten := s.board.slipsWritten } } ∧ s.Answers t [] ∧
      s.SameOutside t ∧ s.Silent t ∧ s.AnswerBegins t) ∧
  (∀ bytes : List Byte, bytes.length = 256 →
    let kind := bytes.getD 0x01 0
    let tag := BitVec.ofNat 64 (valueOf ((bytes.drop 0x08).take 8))
    let body := (bytes.drop 0x20).take 112
    let code := bytes.getD 0x20 0
    (kind = 1 → slipCommand bytes = .settings tag body) ∧ (kind = 2 → slipCommand bytes = .member tag body) ∧
    (kind = 3 → slipCommand bytes = if code = 1 then .extentClear tag body else .extentDefine tag body) ∧
    (kind = 4 → slipCommand bytes = .rebuild tag body) ∧
    (kind = 5 → slipCommand bytes =
      if code = 1 then .jobctlResume tag body else if code = 2 then .jobctlAbort tag body
      else if code = 3 then .jobctlChange tag body else .jobctlPause tag body) ∧
    (kind = 6 → slipCommand bytes = .read tag body) ∧ (kind = 7 → slipCommand bytes = .write tag body) ∧
    (kind = 8 → slipCommand bytes = .resync tag body) ∧
    (kind = 9 → slipCommand bytes =
      if code = 1 then .lossesImport tag body else if code = 2 then .lossesRemove tag body
      else .lossesExport tag body) ∧
    (kind = 0 ∨ 9 < kind.toNat → slipCommand bytes = .badKind kind tag)) ∧
  ∀ (s : State) (run : SweepRun) (kind : Byte) (tag : BitVec 64), s.AtRest → s.sweepAt .slipRead = some run →
    (kind = 0 ∨ 9 < kind.toNat →
      ∃ t : State, exec (.badKind kind tag) s = .next t ∧ s.Refuses t run tag .badKind) ∧
    (1 ≤ kind.toNat → kind.toNat ≤ 9 → exec (.badKind kind tag) s = .next s)

/-- ANSWER_WRITE and PUBLISH (R152, R158, R156, R159). ANSWER_WRITE: the head answer leaves the queue and its slip the set
of TAKEN slips; the slip on the board holds ANSWERED, the status, the reason, the tag read at the take, and the stamp and
the body of the writing's beginning (of the body, that is the model's reading, log 15), each at its offset, the least
significant byte first; the ANSWERED cause is set; and where the deferred mark is set and fewer than 48 slips are now
TAKEN, the mark is cleared and a sweep requested. The next answer's writing begins. PUBLISH: when the generation write
completes, the page written at the base carries the generation one higher and the snapshot, the PUBLISHED cause is set,
and an owed publish begins at once with a snapshot of its own. That the generation counter takes the higher value only
when the write completes is the model's reading (log 16); that the page lands at the base in force then, and addresses past
2^64, are its choices (logs 65, 66). -/
def Obligations.AnswersAndPagesWritten : Prop :=
  (∀ (s : State) (a : Answer) (rest : List Answer) (w : AnswerWriting), s.AtRest → s.board.answers = a :: rest →
    s.board.writing = some w →
    let address := s.board.base.toNat + 0x1000 + 0x100 * a.slip.val
    ∃ t : State, exec .answerWrite s = .next t ∧ t.board.answers = rest ∧
      t.board.taken = s.board.taken.filter (fun x => x.slip ≠ a.slip) ∧
      writtenAt address t.board.slipsWritten = some
        { holder := 3, status := BitVec.ofNat 8 a.status.code, reason := BitVec.ofNat 8 a.reason.code, stamp := w.stamp,
          tag := s.board.tagOf a.slip, body := answerBody w.body } ∧
      (∀ x, x ≠ address → writtenAt x t.board.slipsWritten = writtenAt x s.board.slipsWritten) ∧
      t.board.causes = s.board.causes ||| 1 ∧
      (s.board.deferred = true ∧ t.board.taken.length < 48 →
        t.board.deferred = false ∧ s.board.SweepRequested t.board) ∧
      (¬ (s.board.deferred = true ∧ t.board.taken.length < 48) →
        t.board.deferred = s.board.deferred ∧ t.board.sweep = s.board.sweep ∧
        t.board.sweepPending = s.board.sweepPending) ∧
      t.board.roundPointer = s.board.roundPointer ∧
      s.SameRegisters { t with board :=
        { t.board with causes := s.board.causes, slipsWritten := s.board.slipsWritten } } ∧
      s.SameOutside t ∧ s.Silent t ∧
      t.board.writing = (if t.board.writesAnswers then t.nextWriting else none)) ∧
  (∀ x : SlipImage,
    x.byteAt 0x00 = some x.holder ∧ x.byteAt 0x02 = some x.status ∧ x.byteAt 0x03 = some x.reason ∧
    (∀ i, i < 4 → x.byteAt (0x04 + i) = some (BitVec.ofNat 8 (x.stamp.toNat / 256 ^ i))) ∧
    (∀ i, i < 8 → x.byteAt (0x08 + i) = some (BitVec.ofNat 8 (x.tag.toNat / 256 ^ i))) ∧
    (∀ i, i < 112 → x.byteAt (0x90 + i) = some (x.body.getD i 0)) ∧
    ∀ o, o = 1 ∨ (0x10 ≤ o ∧ o < 0x90) → x.byteAt o = none) ∧
  ∀ (s : State) (page : List PageField), s.AtRest → s.board.publishing = some page →
    s.board.engine ≠ .faulted → (s.board.engine = .stopped → s.board.quiesced = true) →
    ∃ t : State, exec .publish s = .next t ∧ t.board.generation = s.board.generation + 1 ∧
      writtenAt s.board.base.toNat t.board.pagesWritten = some (page8 0 t.board.generation.toNat :: page) ∧
      (∀ x, x ≠ s.board.base.toNat → writtenAt x t.board.pagesWritten = writtenAt x s.board.pagesWritten) ∧
      t.board.causes = s.board.causes ||| 2 ∧ t.board.owed = false ∧
      (s.board.owed = true → t.board.publishing = some t.pageFields ∧
        ∀ j, (t.job j).publishedFrontier = (t.job j).frontier) ∧
      (s.board.owed = false → t.board.publishing = none ∧
        ∀ j, (t.job j).publishedFrontier = (s.job j).publishedFrontier) ∧
      s.SameRegisters { t with board :=
        { t.board with generation := s.board.generation, causes := s.board.causes,
                       pagesWritten := s.board.pagesWritten } } ∧
      s.SameSweep t ∧ s.Answers t [] ∧ s.SameOutside t ∧ s.AnswerBegins t

/-- What the bytes of the status page and of an answer body hold (R155, R154, R153, R151). The page with its generation: each
field at its offset, the least significant byte first, with the value in the state at the snapshot, the member, extent and
job tables and the unsettled rows entry by entry, and every byte not listed zero. A member entry names the extent whose list
holds the port, one of a job that completes counted in it (log 1); an absent outgoing port, slip or source pair of a job
entry shows FFh, which is the model's choice (log 54). An answer body: each field at the first multiple of its width not
below the end of the field before, an absent value FFh in every byte, and zeros elsewhere. The codes are those of R153. -/
def Obligations.PageAndBodyBytes : Prop :=
  (∀ (s : State) (generation : Nat),
    let page := page8 0 generation :: s.pageFields
    -- fields as offset, width and value, from a start
    let holds := fun (start : Nat) (fields : List (Nat × Nat × Nat)) =>
      ∀ x ∈ fields, ∀ i, i < x.2.1 → pageByte page (start + x.1 + i) = BitVec.ofNat 8 (x.2.2 / 256 ^ i)
    let flag := fun b : Bool => if b then 1 else 0
    let orFF := fun v : Option Nat => v.getD 0xFF
    let contexts := fun which : RowKind → Bool => (bankIndices 24).countP fun c => (s.context c).any fun op => which op.kind
    let frames := ((bankIndices 24).map fun c => (s.context c).elim 0 fun op => op.frames.length).sum
    let cause := fun c : Option EndCause =>
      match c with
      | none => 0 | some .complete => 1 | some .aborted => 2 | some .targetLost => 3 | some .extentLost => 4
    holds 0
      [(0x000, 8, generation), (0x008, 4, s.time.tick.toNat), (0x00C, 1, s.settings.tickTap),
       (0x00D, 1, s.board.engine.code), (0x00E, 1, s.guard.state.code),
       (0x00F, 1, contexts fun kind => kind != .rebuildRow), (0x010, 2, s.guard.sense), (0x012, 2, s.guard.hold),
       (0x014, 1, contexts fun kind => kind != .rebuildRow), (0x015, 1, contexts fun kind => kind == .rebuildRow),
       (0x016, 2, 160 - frames), (0x018, 2, s.settings.memberTimeout), (0x01A, 2, s.settings.sweepInterval),
       (0x01C, 2, s.settings.pacingPeriod), (0x01E, 2, s.settings.senseTicks), (0x020, 2, s.settings.minimumHold),
       (0x022, 1, s.settings.stallLimit), (0x023, 1, s.settings.guardThreshold), (0x024, 2, s.losses.entries.length),
       (0x026, 1, s.board.resetKind.code), (0x027, 1, flag s.board.clean), (0x028, 4, s.losses.coarsenings.toNat),
       (0x02C, 4, s.losses.kept.toNat), (0x030, 1, s.board.abandoned), (0x031, 1, s.rows.unsettled.length),
       (0x032, 1, s.board.taken.length), (0x033, 1, s.board.roundPointer.val)] ∧
    (∀ p : PortId,
      let x := s.port p
      let outstanding := fun cls : RequestClass =>
        (bankIndices 8).countP fun i => (x.slots[i.val]).any fun o => o.request.cls == cls
      holds (0x040 + 32 * p.val)
        [(0x00, 1, x.memberState.code), (0x01, 1, flag x.stalled), (0x02, 1, x.lapseCount), (0x03, 1, x.link.code),
         (0x04, 1, orFF ((s.extentOfPort p).map Fin.val)), (0x05, 1, outstanding .foreground),
         (0x06, 1, outstanding .rebuild), (0x07, 1, outstanding .probe), (0x08, 4, x.lapses.toNat),
         (0x0C, 4, x.lateReplies.toNat), (0x10, 4, x.unreadableBlocks.toNat), (0x14, 4, x.repairs.toNat),
         (0x18, 4, x.probes.toNat)]) ∧
    (∀ e : ExtentId,
      let x := s.extent e
      holds (0x240 + 48 * e.val)
        [(0x00, 1, x.condition.code), (0x01, 1, x.kind.code), (0x02, 1, x.memberCount), (0x03, 1, x.stripSize),
         (0x04, 1, x.rotation.code), (0x08, 8, x.arrayStart), (0x10, 8, x.memberBase), (0x18, 4, x.stripeCount)] ∧
      ∀ k, k < 16 → holds (0x240 + 48 * e.val) [(0x20 + k, 1, orFF (x.targets[k]?.map Fin.val))]) ∧
    (∀ j : JobId,
      let x := s.job j
      holds (0x540 + 128 * j.val)
        [(0x00, 1, x.state.code), (0x01, 1, cause x.drainCause), (0x02, 1, x.mode.code), (0x03, 1, x.extent.val),
         (0x04, 1, x.sources.length), (0x05, 1, orFF (x.sources[0]?.map Source.position)),
         (0x06, 1, orFF (x.sources[0]?.map fun y => y.target.val)),
         (0x07, 1, orFF (x.sources[1]?.map Source.position)),
         (0x08, 1, orFF (x.sources[1]?.map fun y => y.target.val)), (0x09, 1, orFF (x.outgoing.map Fin.val)),
         (0x0A, 1, x.laneCount), (0x0B, 1, x.lanesWanted), (0x0C, 1, x.inFlight.length), (0x0D, 1, x.window.length),
         (0x0E, 1, flag x.expedite), (0x0F, 1, flag x.exposed), (0x10, 1, flag (x.isOn && x.answering.isNone)),
         (0x11, 1, flag x.clampMark), (0x12, 1, cause x.endCause), (0x13, 1, orFF (x.answering.map Fin.val)),
         (0x14, 1, orFF (x.control.map Fin.val)), (0x15, 1, x.drainCount), (0x16, 2, x.coolCredits),
         (0x18, 2, x.hotCredits), (0x1A, 2, x.creditsLeft), (0x1C, 4, x.startStamp.toNat), (0x20, 8, x.startRow),
         (0x28, 8, x.endRow), (0x30, 8, x.frontier), (0x38, 8, x.nextRow), (0x40, 8, x.publishedFrontier),
         (0x48, 4, x.endStamp.toNat), (0x50, 8, x.rowsDone.toNat), (0x58, 8, x.rowsCopied.toNat),
         (0x60, 8, x.rowsReconstructed.toNat), (0x68, 8, x.blocksReconstructed.toNat), (0x70, 8, x.blocksLost.toNat),
         (0x78, 8, x.repairs.toNat)]) ∧
    (∀ k e, s.rows.unsettled[k]? = some e →
      holds (0x740 + 16 * k)
        [(0x00, 1, e.extent.val), (0x04, 4, if e.toEnd then 0 else e.count), (0x08, 8, e.first)]) ∧
    ∀ o, (0x034 ≤ o ∧ o < 0x040) ∨ (∃ k, k < 16 ∧ 0x05C + 32 * k ≤ o ∧ o < 0x060 + 32 * k) ∨
        (∃ k, k < 16 ∧ ((0x245 + 48 * k ≤ o ∧ o < 0x248 + 48 * k) ∨ (0x25C + 48 * k ≤ o ∧ o < 0x260 + 48 * k))) ∨
        (∃ k, k < 4 ∧ 0x58C + 128 * k ≤ o ∧ o < 0x590 + 128 * k) ∨
        (∃ k, k < s.rows.unsettled.length ∧ 0x741 + 16 * k ≤ o ∧ o < 0x744 + 16 * k) ∨
        0x740 + 16 * s.rows.unsettled.length ≤ o → pageByte page o = 0) ∧
  (∀ fields : List BodyField, (∀ f ∈ fields, 1 ≤ f.width) →
    (answerBody fields).length = 112 ∧
    ∃ place : Nat → Nat, place 0 = 0 ∧
      (∀ k f g, fields[k]? = some f → fields[k + 1]? = some g →
        place k + f.width ≤ place (k + 1) ∧ place (k + 1) % g.width = 0 ∧ place (k + 1) < place k + f.width + g.width) ∧
      (∀ k f i, fields[k]? = some f → i < f.width → place k + i < 112 →
        (answerBody fields)[place k + i]? = some (f.value.elim 0xFF fun n => BitVec.ofNat 8 (n / 256 ^ i))) ∧
      ∀ o, o < 112 → (∀ k f, fields[k]? = some f → o < place k ∨ place k + f.width ≤ o) →
        (answerBody fields)[o]? = some 0) ∧
  [Status.none, .good, .adjusted, .recovered, .lostData, .lossKept, .refused, .failed].map Status.code = List.range 8 ∧
  [Reason.none, .badKind, .badField, .outOfRange, .noExtent, .extentLost, .busyExtent, .overlap, .memberConflict,
    .notPresent, .noJobSlot, .wrongState, .bufferFault].map Reason.code = List.range 13 ∧
  [EngineState.stopped, .running, .quiescing, .faulted].map EngineState.code = List.range 4 ∧
  [MemberState.absent, .spare, .online, .target, .failed, .released].map MemberState.code = List.range 6 ∧
  [Condition.unused, .whole, .degraded, .exposed, .lost].map Condition.code = List.range 5 ∧
  [ExtentKind.mirror, .single, .double].map ExtentKind.code = List.range 3 ∧
  [Rotation.fixed, .descending, .ascending].map Rotation.code = List.range 3 ∧
  [JobState.free, .starting, .running, .pausing, .paused, .aborting, .ended].map JobState.code = List.range 7 ∧
  [JobMode.reconstruct, .copy].map JobMode.code = List.range 2 ∧
  [GuardState.cool, .hot].map GuardState.code = List.range 2 ∧ [LinkState.down, .up].map LinkState.code = List.range 2 ∧
  [ResetKind.powerOn, .command, .link].map ResetKind.code = List.range 3 ∧
  [LossOrigin.rebuild, .foreground, .imported].map LossOrigin.code = List.range 3

/-- BOARD_FAULT (R162): a fault of an access in progress, taken while the engine is not FAULTED, sets the FAULT cause
and makes the engine FAULTED; the sweep ends with its pending flag and the set of TAKEN slips kept, and the answer being
written stays at the head of the queue. Of the writes in progress the board shows what had reached it: a slip may have
become TAKEN; the answer's slip shows no ANSWERED, and each of its other bytes, and each byte of the page but its
generation, is as it was or as it was to be; which, the spec leaves open (log 60), so this is said for every case. That
the quiesced mark and the owed flag stay is the model's reading (log 38). A fault taken in FAULTED changes nothing. -/
def Obligations.BoardFaults : Prop :=
  ∀ (access : BoardAccess) (s : State), s.AtRest →
    (s.board.engine ≠ .faulted →
      (match access with
        | .holderRead => ∃ run, s.board.sweep = some run ∧ run.access = .holderRead
        | .takenWrite => ∃ run, s.board.sweep = some run ∧ run.access = .takenWrite
        | .slipRead => ∃ run, s.board.sweep = some run ∧ run.access = .slipRead
        | .answerWrite => s.board.writing ≠ none
        | .pageWrite => s.board.publishing ≠ none) →
      ∃ t : State, exec (.boardFault access) s = .next t ∧
        t = { s with board := { s.board with
          engine := .faulted, causes := s.board.causes ||| 4, sweep := none, writing := none, publishing := none
          cuts := s.board.cuts + 1, slipsWritten := t.board.slipsWritten, pagesWritten := t.board.pagesWritten } } ∧
        s.board.WrittenInPart t.board ∧
        ∀ w a rest, s.board.writing = some w → s.board.answers = a :: rest →
          (∀ run, s.board.sweep = some run → run.access = .takenWrite → run.slip ≠ a.slip) →
          (t.board.slipImage a.slip).holder = (s.board.slipImage a.slip).holder) ∧
    (s.board.engine = .faulted → exec (.boardFault access) s = .next s)

/-! ## Engine reset -/

/-- RESET and a link reset (R161, R163, and the engine-reset columns of R24, R57, R84, R107, R109, R126, R137 and R149),
in every engine state: each block is left as its own rule says. What was taken before the reset stands (R108), so a job
whose last row has ended, its JOB_COMPLETION being due (log 1), is not orphaned: it is ENDED with COMPLETE, its targets
stand in the list and its outgoing port is RELEASED. The rest of its effect is said where no other job completes, the
conditions are those of R9, and its ports and the targets of ABORTING jobs stand in no other place. Where no job
completes, a condition, and with it a job, can move only where the reset frees the target of an ABORTING job that a target
list held, which the member states of R22 rule out. That a job which the reset ends is stamped with the tick counter
before it returns to 0, and that it frees no last target which a job had lost, are the model's readings (logs 21 and 71).
Of the board writes in progress the board shows what had reached
it (R166), said for every case (log 60). -/
def Obligations.EngineResetLeaves : Prop :=
  ∀ (s : State) (kind : ResetKind) (c : Instr),
    (c = .reset ∧ kind = .command) ∨ (c = .linkReset ∧ kind = .link) →
    let completes := fun j : JobId =>
      ((s.job j).state = .running ∨ (s.job j).state = .pausing) ∧ (s.job j).frontier = (s.job j).endRow
    let frees := fun p : PortId =>
      ∃ j, (s.job j).state = .aborting ∧ (s.job j).targetless = false ∧ ∃ x ∈ (s.job j).sources, x.target = p
    let listed := fun (k : ExtentId) (p : PortId) => (s.extent k).condition ≠ .unused ∧ p ∈ (s.extent k).targets
    ∃ t : State, exec c s = .next t ∧
      -- member ports
      (∀ p : PortId, (t.port p).stalled = false ∧ (t.port p).lapseCount = 0 ∧ (t.port p).link = (s.port p).link ∧
        (t.port p).slots = Vector.replicate 8 none ∧ (t.port p).waiting = [] ∧
        (t.port p).issueNumber = (s.port p).issueNumber ∧ (t.port p).lapses = (s.port p).lapses ∧
        (t.port p).lateReplies = (s.port p).lateReplies ∧
        (t.port p).unreadableBlocks = (s.port p).unreadableBlocks ∧ (t.port p).repairs = (s.port p).repairs ∧
        (t.port p).probes = (s.port p).probes) ∧
      ((∀ j, ¬ completes j) →
        (∀ p : PortId, (t.port p).memberState =
          (if (s.port p).memberState = .target ∧ frees p then .spare else (s.port p).memberState)) ∧
        -- layout map
        (∀ e : ExtentId, t.extent e = { s.extent e with condition := (t.extent e).condition } ∧
          ((∀ p ∈ (s.extent e).targets, (t.port p).memberState = (s.port p).memberState) →
            t.extent e = s.extent e)) ∧
        -- jobs
        ((∀ e, t.extent e = s.extent e) → ∀ j : JobId,
          ((s.job j).state = .free ∨ (s.job j).state = .ended → t.job j = s.job j) ∧
          ((s.job j).state ∈ [.starting, .running, .pausing, .paused] →
            t.job j = { s.job j with
              state := .paused, nextRow := (s.job j).frontier, window := [], inFlight := [],
              laneCount := (s.job j).lanesWanted, creditsLeft := 0, drainCount := 0, answering := none,
              control := none }))) ∧
      (∀ j : JobId, (s.job j).state = .aborting →
        (t.job j).state = .ended ∧ (t.job j).endCause = (s.job j).drainCause ∧ (t.job j).endStamp = s.time.tick) ∧
      (∀ j : JobId, completes j → (s.job j).inFlight = [] →
        t.job j = { s.job j with
          state := .ended, endCause := some .complete, endStamp := s.time.tick, exposed := false, control := none } ∧
        let e := (s.job j).extent
        let list := (s.job j).sources.foldl (fun l x => l.set x.position x.target) (s.extent e).targets
        ((s.extent e).condition ≠ .unused → (∀ k, k ≠ j → ¬ completes k) →
          (∀ k : ExtentId, (s.extent k).condition ≠ .unused → (s.extent k).condition = s.conditionOf k) →
          (∀ x ∈ (s.job j).sources, (∀ k, ¬ listed k x.target) ∧ ¬ frees x.target) →
          (∀ q, (s.job j).outgoing = some q → q ∉ list ∧ (∀ x ∈ (s.job j).sources, x.target ≠ q) ∧ ¬ frees q ∧
            ∀ k : ExtentId, k ≠ e → ¬ listed k q) →
          (∀ p, frees p → ∀ k, ¬ listed k p) →
          (∀ x ∈ (s.job j).sources, (t.port x.target).memberState =
            if (s.port x.target).memberState = .target then .online else (s.port x.target).memberState) ∧
          ((s.job j).mode = .copy → ∀ q, (s.job j).outgoing = some q → (t.port q).memberState =
            if (s.port q).memberState = .online then .released else (s.port q).memberState) ∧
          t.extent e = { s.extent e with targets := list, condition := t.conditionOf e } ∧
          ∀ k, k ≠ e → t.extent k = s.extent k)) ∧
      -- row engine, solver, holds, foreground service
      (∀ c, t.context c = none) ∧ t.rows.contextWait = [] ∧ t.rows.frameWait = [] ∧ t.framesFree = 160 ∧
      t.solver.busy = none ∧ t.solver.queue = [] ∧ t.holds.entries = [] ∧ t.requests = [] ∧
      -- loss list, settings, time base and pacing
      t.losses = { s.losses with transfers := [] } ∧ t.settings = s.settings ∧ t.time.tick = 0 ∧
      t.time.sweepTimer = 0 ∧ t.time.periodCounter = 0 ∧ t.guard.state = .cool ∧ t.guard.sense = 0 ∧
      t.guard.hold = 0 ∧
      -- board unit
      t.board.base = s.board.base ∧ t.board.enables = s.board.enables ∧ t.board.causes = 0 ∧
      t.board.engine = .stopped ∧ t.board.quiesced = false ∧ t.board.roundPointer = 0 ∧ t.board.taken = [] ∧
      t.board.sweep = none ∧ t.board.sweepPending = false ∧ t.board.deferred = false ∧ t.board.answers = [] ∧
      t.board.publishing = none ∧ t.board.owed = false ∧ t.board.generation = s.board.generation ∧
      t.board.resetKind = kind ∧
      (t.board.clean = true ↔ s.board.engine = .stopped ∧ s.board.quiesced = true) ∧
      t.board.abandoned = s.board.taken.length ∧ t.board.writing = none ∧ t.board.cuts = s.board.cuts + 1 ∧
      s.board.WrittenInPart t.board ∧ t.pending = s.pending

/-- The published unsettled-row list (R81, R82, R83). An engine reset, by RESET or by the link, inserts every row of the
live set, those of the contexts whose written mark is set, one at a time in ascending order of extent and row. Said of a
legal list: an insertion keeps its form, unlists no row and lists the row. A row within an entry changes nothing. A row next
to entries of its extent makes one entry with them, one clear of all an entry of its own, and the other entries stay; a
merge that would pass 2^32 - 1 rows reaches to the last row of the extent, and no other row becomes listed by one that does
not. A coarsening is made of a full list that the row neither lies in nor next to, and then once: the two neighbours of one
extent with the smallest gap, the first in list order of several, become one entry, and the row is inserted into what is
left. A resynced row leaves the list: its entry goes, or is shortened by it, or is split at it; the list stays where it does
not hold the row, where a split finds 64 entries, and where a part would pass 2^32 - 1 rows. That the upper part of a split
entry to the last row becomes COUNTED where it fits is the model's reading (log 70). -/
def Obligations.LiveRowsUnsettled : Prop :=
  (∀ (s : State) (cmd : Instr), cmd ∈ [.reset, .linkReset] → unsettledLegal s.lastRows s.rows.unsettled →
    (∀ c op, s.context c = some op → op.written = true → op.row ≤ s.lastRows op.extent) →
    ∃ (t : State) (live : List (ExtentId × Nat)), exec cmd s = .next t ∧
      (∀ x row, (x, row) ∈ live ↔ ∃ c op, s.context c = some op ∧ op.written = true ∧ op.extent = x ∧ op.row = row) ∧
      live.Pairwise (fun a b => a.1 < b.1 ∨ (a.1 = b.1 ∧ a.2 < b.2)) ∧
      t.rows.unsettled = live.foldl (fun l x => insertUnsettled s.lastRows x.1 x.2 l) s.rows.unsettled ∧
      unsettledLegal s.lastRows t.rows.unsettled ∧
      (∀ x row, Unsettled s.lastRows s.rows.unsettled x row → Unsettled s.lastRows t.rows.unsettled x row) ∧
      ∀ c op, s.context c = some op → op.written = true → Unsettled s.lastRows t.rows.unsettled op.extent op.row) ∧
  (∀ (limits : ExtentId → Nat) (x : ExtentId) (row : Nat) (l : List UnsettledEntry), unsettledLegal limits l →
    row ≤ limits x →
    let e : UnsettledEntry := { extent := x, first := row, count := 1, toEnd := false }
    let out := insertUnsettled limits x row l
    let last := fun y : UnsettledEntry => y.last (limits y.extent)
    let clear := fun y z : UnsettledEntry => y.extent ≠ z.extent ∨ last y + 1 < z.first ∨ last z + 1 < y.first
    unsettledLegal limits out ∧ (∀ y r, Unsettled limits l y r → Unsettled limits out y r) ∧ Unsettled limits out x row ∧
      (Unsettled limits l x row → out = l) ∧
      (¬ Unsettled limits l x row → l.length < 64 ∨ (∃ y ∈ l, ¬ clear y e) →
        ∃ m : UnsettledEntry, m.extent = x ∧ (∀ y, y ∈ out ↔ y = m ∨ (y ∈ l ∧ clear y m)) ∧
          ∃ high, (∀ y ∈ e :: l, ¬ clear y e → m.first ≤ y.first ∧ last y ≤ high) ∧
            (∃ y ∈ e :: l, ¬ clear y e ∧ m.first = y.first) ∧ (∃ y ∈ e :: l, ¬ clear y e ∧ last y = high) ∧
            (m.toEnd = true ↔ (∃ y ∈ l, ¬ clear y e ∧ y.toEnd = true) ∨ 2 ^ 32 - 1 < high + 1 - m.first) ∧
            (m.toEnd = false → last m = high) ∧
            (m.toEnd = false ∨ (∃ y ∈ l, ¬ clear y e ∧ y.toEnd = true) →
              ∀ y r, Unsettled limits out y r → Unsettled limits l y r ∨ (y = x ∧ r = row))) ∧
      (l.length = 64 → (∀ y ∈ l, clear y e) → ∃ before a b after, ∃ m : UnsettledEntry,
        l = before ++ a :: b :: after ∧ a.extent = b.extent ∧
        (∀ before' c d after', l = before' ++ c :: d :: after' → c.extent = d.extent →
          b.first - last a < d.first - last c ∨
            (b.first - last a = d.first - last c ∧ before.length ≤ before'.length)) ∧
        m.extent = a.extent ∧ m.first = a.first ∧
        (m.toEnd = true ↔ b.toEnd = true ∨ 2 ^ 32 - 1 < last b + 1 - a.first) ∧ (m.toEnd = false → last m = last b) ∧
        out = insertUnsettled limits x row (before ++ m :: after.filter fun y => decide (clear y m)))) ∧
  ∀ (limit : Nat) (full : Bool) (x : ExtentId) (row : Nat) (l : List UnsettledEntry),
    let holds := fun y : UnsettledEntry => y.extent = x ∧ y.first ≤ row ∧ row ≤ y.last limit
    let out := removeUnsettled limit full x row l
    let fits := fun n => n ≤ 2 ^ 32 - 1
    ((∀ y ∈ l, ¬ holds y) → out = none) ∧
    ∀ before e after, l = before ++ e :: after → (∀ y ∈ before, ¬ holds y) → holds e →
      let last := e.last limit
      let low : UnsettledEntry := { extent := x, first := e.first, count := row - e.first, toEnd := false }
      let high : UnsettledEntry := { extent := x, first := row + 1, count := last - row, toEnd := false }
      (e.first = row → last = row → out = some (before ++ after)) ∧
      (e.first = row → row < last → out = if fits (last - row) then some (before ++ high :: after) else none) ∧
      (e.first < row → last = row → out = if fits (row - e.first) then some (before ++ low :: after) else none) ∧
      (e.first < row → row < last →
        out = if full = true ∨ ¬ fits (row - e.first) then none
          else some (before ++ low ::
            (if fits (last - row) then high else { extent := x, first := row + 1, count := 0, toEnd := true }) :: after))

/-! ## Settings, time base and pacing -/

/-- SETTINGS (R142, R143): refused with BAD_FIELD for a flag outside the eight. Otherwise each setting whose flag is set
takes its value field clamped into its range, a tick tap raised to the next of 1, 4, 16 and 64, and the others stay; a set
sweep-interval flag sets the sweep timer to 0, though the value may be the one in force (the model's reading, log 42); a
HOT guard's hold count is cut to the minimum hold; and the slip is answered ADJUSTED where a value was clamped and GOOD
where none was, its body giving the settings in force and the clamp mask, a flag for each value clamped; where a PAUSE is
superseded, that is answered before it by the model's choice (log 72). Nothing else changes, unless the slip sets a stall
limit that some stalled member has reached (which then fails: StallLimitFails). -/
def Obligations.SettingsApplied : Prop :=
  ∀ (s : State) (run : SweepRun) (tag : BitVec 64) (body : SlipBody), s.AtRest → s.sweepAt .slipRead = some run →
    let f := settingsFields body
    let tap := if f.values.tickTap ≤ 1 then 1 else if f.values.tickTap ≤ 4 then 4 else
      if f.values.tickTap ≤ 16 then 16 else 64
    let outside := fun i =>
      (i = 0 ∧ f.values.tickTap ∉ [1, 4, 16, 64]) ∨ (i = 1 ∧ ¬ (1 ≤ f.values.memberTimeout ∧ f.values.memberTimeout ≤ 65535)) ∨
        (i = 2 ∧ ¬ (1 ≤ f.values.stallLimit ∧ f.values.stallLimit ≤ 15)) ∨ (i = 3 ∧ 65535 < f.values.sweepInterval) ∨
        (i = 4 ∧ ¬ (1 ≤ f.values.pacingPeriod ∧ f.values.pacingPeriod ≤ 65535)) ∨
        (i = 5 ∧ ¬ (1 ≤ f.values.guardThreshold ∧ f.values.guardThreshold ≤ 24)) ∨
        (i = 6 ∧ ¬ (1 ≤ f.values.senseTicks ∧ f.values.senseTicks ≤ 65535)) ∨
        (i = 7 ∧ ¬ (1 ≤ f.values.minimumHold ∧ f.values.minimumHold ≤ 65535))
    let fails := maskBit f.mask 2 = true ∧ ∃ p : PortId,
      ((s.port p).memberState = .online ∨ (s.port p).memberState = .target) ∧ (s.port p).stalled = true ∧
        max 1 (min 15 f.values.stallLimit) ≤ (s.port p).lapseCount
    (256 ≤ f.mask → ∃ t : State, exec (.settings tag body) s = .next t ∧ s.Refuses t run tag .badField) ∧
    (f.mask < 256 →
      ∃ (t : State) (status : Status), exec (.settings tag body) s = .next t ∧
        t.settings.tickTap = (if maskBit f.mask 0 then tap else s.settings.tickTap) ∧
        t.settings.memberTimeout =
          (if maskBit f.mask 1 then max 1 (min 65535 f.values.memberTimeout) else s.settings.memberTimeout) ∧
        t.settings.stallLimit =
          (if maskBit f.mask 2 then max 1 (min 15 f.values.stallLimit) else s.settings.stallLimit) ∧
        t.settings.sweepInterval =
          (if maskBit f.mask 3 then min 65535 f.values.sweepInterval else s.settings.sweepInterval) ∧
        t.settings.pacingPeriod =
          (if maskBit f.mask 4 then max 1 (min 65535 f.values.pacingPeriod) else s.settings.pacingPeriod) ∧
        t.settings.guardThreshold =
          (if maskBit f.mask 5 then max 1 (min 24 f.values.guardThreshold) else s.settings.guardThreshold) ∧
        t.settings.senseTicks =
          (if maskBit f.mask 6 then max 1 (min 65535 f.values.senseTicks) else s.settings.senseTicks) ∧
        t.settings.minimumHold =
          (if maskBit f.mask 7 then max 1 (min 65535 f.values.minimumHold) else s.settings.minimumHold) ∧
        t.time = { s.time with sweepTimer := if maskBit f.mask 3 then 0 else s.time.sweepTimer } ∧
        t.guard =
          { s.guard with
            hold := if s.guard.state = .hot then min s.guard.hold t.settings.minimumHold else s.guard.hold } ∧
        (status = .good ∨ status = .adjusted) ∧
        (status = .adjusted ↔ ∃ i, i < 8 ∧ maskBit f.mask i = true ∧ outside i) ∧
        clampMask f < 256 ∧
        (∀ i, i < 8 → (maskBit (clampMask f) i = true ↔ maskBit f.mask i = true ∧ outside i)) ∧
        t.board.answers.getLast? = some
          { slip := run.slip, status := status, reason := .none, body := settingsBody t.settings (clampMask f) } ∧
        s.Dispatched t run tag none ∧ s.SameRegisters t ∧ s.AnswerBegins t ∧ t.losses = s.losses ∧
        t.pending = s.pending ∧
        (¬ fails → t.board.answers.length = s.board.answers.length + 1 ∧
          t.board.answers.take s.board.answers.length = s.board.answers ∧ s.SameArray t ∧ s.SameWork t ∧
          s.SameJobs t ∧ s.Silent t))

/-- A lowered stall limit (R34, R143): when a SETTINGS slip sets it, every stalled ONLINE or TARGET member whose lapse
count is at or above the new limit is FAILED, with its stall cleared and its requests ended, a pending one WITHDRAWN where
another member's failure has made the extent LOST first (log 59), and the other members keep their states. -/
def Obligations.StallLimitFails : Prop :=
  ∀ (s : State) (run : SweepRun) (tag : BitVec 64) (body : SlipBody), s.sweepAt .slipRead = some run →
    (settingsFields body).mask < 256 → maskBit (settingsFields body).mask 2 = true →
    ∃ t : State, exec (.settings tag body) s = .next t ∧
      t.settings.stallLimit = max 1 (min 15 (settingsFields body).values.stallLimit) ∧
      ∀ p : PortId,
        if ((s.port p).memberState = .online ∨ (s.port p).memberState = .target) ∧ (s.port p).stalled = true ∧
            t.settings.stallLimit ≤ (s.port p).lapseCount then
          (t.port p).memberState = .failed ∧ (t.port p).stalled = false ∧ (t.port p).lapseCount = 0 ∧
            (t.port p).waiting = [] ∧ (t.port p).slots = Vector.replicate 8 none ∧
            (∀ r ∈ (s.port p).waiting, t.Told p r .linkLost ∨ t.Told p r .withdrawn) ∧
            ∀ (i : Tag) o, (s.port p).slots[i.val] = some o → t.Told p o.request .linkLost
        else
          (t.port p).memberState = (s.port p).memberState ∧ (t.port p).stalled = (s.port p).stalled ∧
            (t.port p).lapseCount = (s.port p).lapseCount ∧ (t.port p).slots = (s.port p).slots

/-- TICK, PERIOD_RESTART, GUARD_HOT and GUARD_COOL (R28, R139, R144, R145, R147, R148). At a tick the tick counter rises
modulo 2^32; the ticks left of every outstanding request fall; the sweep timer rises, or stays 0 while the interval is
0; the guard samples the pressure; and the period counter rises. What the counts then call for waits for a command of
its own (log 28). Said while no count is at its cap of 65535. Once the period counter has reached the period, and after
the guard's change that the same tick calls for, the counter returns to 0 and every RUNNING job's credits left is set to
its budget: cool credits where it is expedited or exposed or the guard is COOL, hot credits otherwise. When the sample of
the last tick calls for it, the guard becomes HOT with the minimum hold loaded, the sense count 0, and the credits left
of every record that is neither expedited nor exposed cut to its hot credits (an ENDED record's too is the model's
reading, log 53); or COOL with both counts 0 and no credits raised. Both changes publish. -/
def Obligations.TicksAndPacing : Prop :=
  (∀ s : State, s.time.sweepTimer < 65535 → s.time.periodCounter < 65535 → s.guard.sense < 65535 →
     ∃ t : State, exec .tick s = .next t ∧
       t.time.tick = s.time.tick + 1 ∧
       t.time.sweepTimer = (if s.settings.sweepInterval = 0 then 0 else s.time.sweepTimer + 1) ∧
       t.time.periodCounter = s.time.periodCounter + 1 ∧
       (t.time.restartDue = true ↔ s.settings.pacingPeriod ≤ s.time.periodCounter + 1) ∧
       (∀ (p : PortId) (i : Tag), (t.port p).slots[i.val] =
         ((s.port p).slots[i.val]).map fun o => { o with ticksLeft := o.ticksLeft - 1 }) ∧
       (∀ p : PortId, t.port p = { s.port p with slots := (t.port p).slots }) ∧
       t.guard.state = s.guard.state ∧
       (s.guard.state = .cool →
         t.guard.sense = (if s.settings.guardThreshold ≤ s.pressure then s.guard.sense + 1 else 0) ∧
         t.guard.hold = s.guard.hold ∧
         t.guard.due = (if s.settings.senseTicks ≤ t.guard.sense then some .hot else none)) ∧
       (s.guard.state = .hot →
         t.guard.hold = s.guard.hold - 1 ∧ t.guard.sense = s.guard.sense ∧
         t.guard.due = (if t.guard.hold = 0 ∧ s.pressure < s.settings.guardThreshold then some .cool else none)) ∧
       t = { s with ports := t.ports, time := t.time, guard := t.guard }) ∧
  (∀ s : State,
     (s.time.restartDue = true → s.guard.due = none →
       ∃ t : State, exec .periodRestart s = .next t ∧
         t.time = { s.time with periodCounter := 0, restartDue := false } ∧
         (∀ j : JobId, t.job j = { s.job j with creditsLeft :=
           if (s.job j).state = .running then
             if (s.job j).expedite = true ∨ (s.job j).exposed = true ∨ s.guard.state = .cool then (s.job j).coolCredits
             else (s.job j).hotCredits
           else (s.job j).creditsLeft }) ∧
         t = { s with time := t.time, jobs := t.jobs }) ∧
     (s.time.restartDue = false → exec .periodRestart s = .next s)) ∧
  (∀ s : State, s.AtRest →
     (s.guard.due = some .hot →
       ∃ t : State, exec .guardHot s = .next t ∧
         t.guard.state = .hot ∧ t.guard.hold = s.settings.minimumHold ∧ t.guard.sense = 0 ∧ t.guard.due = none ∧
         (∀ j : JobId, (t.job j).agrees
           { s.job j with
             creditsLeft :=
               if (s.job j).expedite = true ∨ (s.job j).exposed = true then (s.job j).creditsLeft
               else min (s.job j).creditsLeft (s.job j).hotCredits }) ∧
         s.SameArray t ∧ s.SameWork t ∧ t.settings = s.settings ∧ t.time = s.time ∧ t.pending = s.pending ∧
         s.SameRegisters t ∧ s.SameSweep t ∧ s.Answers t [] ∧ s.Publishes t ∧ s.AnswerBegins t) ∧
     (s.guard.due ≠ some .hot → exec .guardHot s = .next s) ∧
     (s.guard.due = some .cool →
       ∃ t : State, exec .guardCool s = .next t ∧
         t.guard.state = .cool ∧ t.guard.hold = 0 ∧ t.guard.sense = 0 ∧ t.guard.due = none ∧
         s.SameArray t ∧ s.SameWork t ∧ s.SameJobs t ∧ t.settings = s.settings ∧ t.time = s.time ∧
         t.pending = s.pending ∧ s.SameRegisters t ∧ s.SameSweep t ∧ s.Answers t [] ∧ s.Publishes t ∧
         s.AnswerBegins t) ∧
     (s.guard.due ≠ some .cool → exec .guardCool s = .next s))

/-! ## Member states -/

/-- MEMBER (R37, R38, R39): field errors are refused with BAD_FIELD; a slip that asks for the state held is answered GOOD
and changes nothing; a change is refused with the reason of the tables; and an accepted one makes the member the state
asked for, with its stall cleared, recomputes the condition of the extent that lists it, and is answered GOOD with the
states before and after, after a PAUSE that the change supersedes by the model's choice (log 72). A member made FAILED
loses every request it holds, each owner having its ending (R35). A port in an extent is one of its target list, and by
the model's reading also a target of a job that completes (log 1). -/
def Obligations.MemberChanges : Prop :=
  ∀ (s : State) (run : SweepRun) (tag : BitVec 64) (body : SlipBody), s.AtRest → s.sweepAt .slipRead = some run →
    (16 ≤ slipField body 0x20 1 ∨ slipField body 0x21 1 ∉ [0, 1, 2, 4] →
      ∃ t : State, exec (.member tag body) s = .next t ∧ s.Refuses t run tag .badField) ∧
    ∀ (p : PortId) (new : MemberState), memberFields body = some (p, new) →
      (new = (s.port p).memberState →
        ∃ t : State, exec (.member tag body) s = .next t ∧ s.SameOutside t ∧ s.Silent t ∧
          s.AnswersAtOnce t run tag
            { slip := run.slip, status := .good, reason := .none, body := t.memberBody p (s.port p).memberState }) ∧
      (new ≠ (s.port p).memberState → ∀ reason,
        (match (s.port p).memberState, new, s.extentOfPort p with
          | .absent, .spare, none | .released, .spare, _ | .failed, .spare, none =>
            (s.port p).link = .down ∧ reason = .notPresent
          | .absent, .spare, some _ | .failed, .absent, some _ | .failed, .spare, some _ => reason = .memberConflict
          | .absent, .online, some e | .failed, .online, some e =>
            ((s.port p).link = .down ∧ reason = .notPresent) ∨
              ((s.port p).link = .up ∧ s.isSource e p = true ∧ reason = .memberConflict)
          | .spare, .absent, _ | .released, .absent, _ | .failed, .absent, none | .online, .failed, _ => False
          | _, _, _ => reason = .wrongState) →
        ∃ t : State, exec (.member tag body) s = .next t ∧ s.Refuses t run tag reason) ∧
      (new ≠ (s.port p).memberState → (s.port p).legal →
        (match (s.port p).memberState, new, s.extentOfPort p with
          | .absent, .spare, none | .released, .spare, _ | .failed, .spare, none => (s.port p).link = .up
          | .absent, .online, some e | .failed, .online, some e => (s.port p).link = .up ∧ s.isSource e p = false
          | .spare, .absent, _ | .released, .absent, _ | .failed, .absent, none | .online, .failed, _ => True
          | _, _, _ => False) →
        ∃ t : State, exec (.member tag body) s = .next t ∧
          (t.port p).memberState = new ∧ (t.port p).stalled = false ∧ (t.port p).lapseCount = 0 ∧
          (t.port p).link = (s.port p).link ∧
          (new = .failed → (t.port p).slots = Vector.replicate 8 none ∧ (t.port p).waiting = [] ∧
            (∀ r ∈ (s.port p).waiting, t.Told p r .linkLost) ∧
            ∀ (i : Tag) o, (s.port p).slots[i.val] = some o → t.Told p o.request .linkLost) ∧
          (new ≠ .failed → (t.port p).slots = (s.port p).slots) ∧
          (∀ q, q ≠ p → (s.port q).SameMember (t.port q)) ∧
          (s.extentOfPort p = none → t.extents = s.extents) ∧
          (∀ e, s.extentOfPort p = some e → (t.extent e).condition = t.conditionOf e ∧
            t.extent e = { s.extent e with condition := (t.extent e).condition } ∧
            ∀ x, x ≠ e → t.extent x = s.extent x) ∧
          t.losses = s.losses ∧ s.SamePacing t ∧ t.pending = s.pending ∧ s.SameRegisters t ∧
          s.Dispatched t run tag none ∧ s.Publishes t ∧
          t.board.answers.getLast? = some
            { slip := run.slip, status := .good, reason := .none, body := t.memberBody p (s.port p).memberState })

/-! ## The layout map -/

/-- The checks of a DEFINE, in the order of R14, each with its refusal: the entry is UNUSED, or WRONG_STATE; every field lies
in the ranges of R1, or BAD_FIELD; no block of its array range lies in that of another entry in use, or OVERLAP; no port
of its list is in another list, a TARGET or RELEASED, or MEMBER_CONFLICT. One that passes them is accepted, and one that
is accepted has passed them. (A port that a completion in progress takes in is in a list, log 1.) -/
def Obligations.DefineChecks : Prop :=
  ∀ (s : State) (i : ExtentId) (body : SlipBody),
    let f := defineFields body
    let n := f.memberCount
    let k := n - if f.kind = 2 then 2 else 1
    let inRange :=
      ((f.kind = 0 ∧ n = 2) ∨ (f.kind = 1 ∧ 3 ≤ n ∧ n ≤ 16) ∨ (f.kind = 2 ∧ 4 ≤ n ∧ n ≤ 16)) ∧
        (f.stripSize = 16 ∨ f.stripSize = 32 ∨ f.stripSize = 64) ∧ 1 ≤ f.stripeCount ∧ f.stripeCount < 2 ^ 32 ∧
        f.arrayStart + f.stripeCount * (k * f.stripSize) - 1 < 2 ^ 40 ∧
        f.memberBase + f.stripeCount * f.stripSize - 1 < 2 ^ 40 ∧ f.rotation ≤ 2 ∧ (f.kind = 0 → f.rotation = 0) ∧
        (∀ q ∈ f.ports.take n, q < 16) ∧ (f.ports.take n).Nodup
    let shares := fun e : Extent => ∃ x : ExtentId, x ≠ i ∧ (s.extent x).condition ≠ .unused ∧ ∃ block,
      (e.arrayStart ≤ block ∧ block ≤ e.arrayLimit) ∧
        (s.extent x).arrayStart ≤ block ∧ block ≤ (s.extent x).arrayLimit
    let conflicts := fun p : PortId => (∃ x : ExtentId, (s.extent x).condition ≠ .unused ∧ p ∈ (s.extent x).targets) ∨
      (s.port p).memberState = .target ∨ (s.port p).memberState = .released
    ((s.extent i).condition ≠ .unused → s.checkDefine i f = .error .wrongState) ∧
    ((s.extent i).condition = .unused → ¬ inRange → s.checkDefine i f = .error .badField) ∧
    ((s.extent i).condition = .unused → inRange → s.MapLegal →
      ∃ e : Extent, e.condition = .unused ∧ e.kind.code = f.kind ∧ e.memberCount = n ∧ e.stripSize = f.stripSize ∧
        e.arrayStart = f.arrayStart ∧ e.stripeCount = f.stripeCount ∧ e.memberBase = f.memberBase ∧
        e.rotation.code = f.rotation ∧ e.targets.map Fin.val = f.ports.take n ∧
        (shares e → s.checkDefine i f = .error .overlap) ∧
        (¬ shares e → (∃ p ∈ e.targets, conflicts p) → s.checkDefine i f = .error .memberConflict) ∧
        (¬ shares e → (∀ p ∈ e.targets, s.extentOfPort p = none ∧ ¬ conflicts p) → s.checkDefine i f = .ok e)) ∧
    ∀ e : Extent, s.checkDefine i f = .ok e →
      (s.extent i).condition = .unused ∧ e.legal ∧ ¬ shares e ∧ ∀ p ∈ e.targets, ¬ conflicts p

/-- EXTENT_DEFINE (R13, R15): an operation code that is not DEFINE's and an extent number above 15 are refused with
BAD_FIELD (the first meets this command by log 30), and a slip that fails a check of R14 with its reason. An accepted one
fills the entry, makes the listed SPARE ports ONLINE with their stalls clear, computes the condition by R9, and is
answered GOOD with the condition, the extent rows and the array limit; it changes neither the loss list nor the unsettled
rows. -/
def Obligations.ExtentDefined : Prop :=
  (∀ (s : State) (run : SweepRun) (tag : BitVec 64) (body : SlipBody), s.AtRest → s.sweepAt .slipRead = some run →
    slipField body 0x20 1 ≠ 0 ∨ 16 ≤ slipField body 0x21 1 →
    ∃ t : State, exec (.extentDefine tag body) s = .next t ∧ s.Refuses t run tag .badField) ∧
  ∀ (s : State) (run : SweepRun) (tag : BitVec 64) (body : SlipBody) (i : ExtentId), s.AtRest →
    s.sweepAt .slipRead = some run → slipField body 0x20 1 = 0 → slipField body 0x21 1 = i.val →
    (∀ reason, s.checkDefine i (defineFields body) = .error reason →
      ∃ t : State, exec (.extentDefine tag body) s = .next t ∧ s.Refuses t run tag reason) ∧
    (∀ e, s.checkDefine i (defineFields body) = .ok e → s.PortsLegal →
      ∃ t : State, exec (.extentDefine tag body) s = .next t ∧
        t.extent i = { e with condition := t.conditionOf i } ∧ (∀ x, x ≠ i → t.extent x = s.extent x) ∧
        (∀ p : PortId, t.port p =
          if p ∈ e.targets ∧ (s.port p).memberState = .spare then { s.port p with memberState := .online }
          else s.port p) ∧
        (∀ p : PortId, p ∈ e.targets → (t.port p).memberState = .online → (s.port p).memberState = .spare →
          (t.port p).stalled = false ∧ (t.port p).lapseCount = 0) ∧
        t.losses = s.losses ∧ t.rows.unsettled = s.rows.unsettled ∧ s.SameJobs t ∧ t.requests = s.requests ∧
        t.holds = s.holds ∧ t.solver = s.solver ∧ s.SamePacing t ∧ t.pending = s.pending ∧ s.Publishes t ∧
        s.AnswersAtOnce t run tag
          { slip := run.slip, status := .good, reason := .none,
            body := [field1 (t.extent i).condition.code, field8 e.rows, field8 e.arrayLimit] })

/-- EXTENT_CLEAR (R13, R16, R17): refused with BAD_FIELD for an operation code that is not CLEAR's and an extent number
above 15, with NO_EXTENT for an UNUSED entry, and with BUSY_EXTENT while a job is on the extent, a row operation on it has
been started and not ended, or a foreground slip on it is dispatched and unanswered, one refused too by the model's
reading (log 48). Otherwise its ONLINE ports become SPARE with their stalls clear, its loss-list and unsettled-row entries
are removed, and the entry becomes UNUSED and empty; the answer gives the ports, the loss entries and the unsettled rows
that left, rows and not entries by the model's reading (log 34). -/
def Obligations.ExtentCleared : Prop :=
  (∀ (s : State) (run : SweepRun) (tag : BitVec 64) (body : SlipBody), s.AtRest → s.sweepAt .slipRead = some run →
    slipField body 0x20 1 ≠ 1 ∨ 16 ≤ slipField body 0x21 1 →
    ∃ t : State, exec (.extentClear tag body) s = .next t ∧ s.Refuses t run tag .badField) ∧
  ∀ (s : State) (run : SweepRun) (tag : BitVec 64) (body : SlipBody) (i : ExtentId), s.AtRest →
    s.sweepAt .slipRead = some run → slipField body 0x20 1 = 1 → slipField body 0x21 1 = i.val →
    ((s.extent i).condition = .unused →
      ∃ t : State, exec (.extentClear tag body) s = .next t ∧ s.Refuses t run tag .noExtent) ∧
    ((s.extent i).condition ≠ .unused →
      (∃ j : JobId, (s.job j).isOn = true ∧ (s.job j).extent = i) ∨
        (∃ c op, s.context c = some op ∧ op.extent = i) ∨ (∃ r ∈ s.rows.contextWait, r.extent = i) ∨
        (∃ x ∈ s.board.taken, x.foreground = some i) ∨ (∃ r ∈ s.requests, r.extent = i) →
      ∃ t : State, exec (.extentClear tag body) s = .next t ∧ s.Refuses t run tag .busyExtent) ∧
    ((s.extent i).condition ≠ .unused → (∀ j : JobId, (s.job j).isOn = true → (s.job j).extent ≠ i) →
      (∀ c op, s.context c = some op → op.extent ≠ i) → (∀ r ∈ s.rows.contextWait, r.extent ≠ i) →
      (∀ x ∈ s.board.taken, x.foreground ≠ some i) → (∀ r ∈ s.requests, r.extent ≠ i) →
      (∀ p ∈ (s.extent i).targets, s.extentOfPort p = some i) → (s.extent i).targets.Nodup →
      (s.extent i).condition = s.conditionOf i →
      ∃ t : State, exec (.extentClear tag body) s = .next t ∧
        t.extent i = Extent.empty ∧ (∀ x, x ≠ i → t.extent x = s.extent x) ∧
        (∀ p : PortId, if p ∈ (s.extent i).targets ∧ (s.port p).memberState = .online then
            (t.port p).memberState = .spare ∧ (t.port p).stalled = false ∧ (t.port p).lapseCount = 0 ∧
              (t.port p).slots = (s.port p).slots
          else t.port p = s.port p) ∧
        t.losses = { s.losses with entries := s.losses.entries.filter fun e => e.extent ≠ i } ∧
        t.rows.unsettled = s.rows.unsettled.filter (fun e => e.extent ≠ i) ∧ s.SameJobs t ∧
        t.requests = s.requests ∧ s.SamePacing t ∧ t.pending = s.pending ∧ s.Publishes t ∧
        s.AnswersAtOnce t run tag
          { slip := run.slip, status := .good, reason := .none,
            body := [field2 ((s.extent i).targets.countP fun p => (s.port p).memberState == .online),
              field2 (s.losses.entries.countP fun e => e.extent == i),
              field8 ((s.rows.unsettled.filter fun e => e.extent == i).map
                fun e => e.last (s.lastRows i) + 1 - e.first).sum] })

/-! ## Jobs -/

/-- The checks of a REBUILD, in the order of R88, each with its refusal; the first that fails gives the reason. One that
passes them is accepted with the mode, the extent and the source positions it names, in the lowest-numbered FREE record,
or where none is FREE in the lowest-numbered ENDED one (R89). -/
def Obligations.RebuildChecks : Prop :=
  ∀ (s : State) (body : SlipBody),
    let f := rebuildFields body
    let fieldsOk := f.mode ≤ 1 ∧ f.extent < 16 ∧ (f.sourceCount = 1 ∨ f.sourceCount = 2) ∧
      (f.mode = 1 → f.sourceCount = 1) ∧ (∀ q ∈ f.positions, q < 16) ∧ ∀ q ∈ f.targets, q < 16
    (¬ fieldsOk → s.checkRebuild f = .error .badField) ∧
    (fieldsOk → ∀ e : ExtentId, f.extent = e.val →
      let x := s.extent e
      let sited := (∀ q ∈ f.positions, q < x.memberCount) ∧ f.positions.Nodup ∧ (f.sourceCount = 2 → x.kind = .double)
      let busy := ∃ j : JobId, (s.job j).isOn = true ∧ (s.job j).extent = e
      let room := ∃ j : JobId, (s.job j).state = .free ∨ (s.job j).state = .ended
      let suits := ∀ q ∈ f.positions, ∃ p, x.targets[q]? = some p ∧
        if f.mode = 0 then (s.port p).memberState = .failed ∨ (s.port p).memberState = .absent
        else (s.port p).memberState = .online
      let fit := (∀ p : PortId, p.val ∈ f.targets → (s.port p).memberState = .spare ∧ (s.port p).link = .up) ∧
        f.targets.Nodup
      let writes := fun k : RowKind => k = .writeRow ∨ k = .resyncRow
      let written := 0 < f.startRow ∧ ((∃ c op, s.context c = some op ∧ op.extent = e ∧ writes op.kind) ∨
        ∃ r ∈ s.rows.contextWait, r.extent = e ∧ writes r.kind)
      (x.condition = .unused → s.checkRebuild f = .error .noExtent) ∧
      (x.condition = .lost → s.checkRebuild f = .error .extentLost) ∧
      (x.condition ≠ .unused → x.condition ≠ .lost →
        (¬ sited → s.checkRebuild f = .error .badField) ∧
        (sited → busy → s.checkRebuild f = .error .busyExtent) ∧
        (sited → ¬ busy → ¬ room → s.checkRebuild f = .error .noJobSlot) ∧
        (sited → ¬ busy → room → ¬ suits → s.checkRebuild f = .error .wrongState) ∧
        (sited → ¬ busy → room → suits → ¬ fit → s.checkRebuild f = .error .memberConflict) ∧
        (sited → ¬ busy → room → suits → fit → x.rows ≤ f.startRow → s.checkRebuild f = .error .outOfRange) ∧
        (sited → ¬ busy → room → suits → fit → f.startRow < x.rows → written →
          s.checkRebuild f = .error .busyExtent) ∧
        (sited → ¬ busy → room → suits → fit → f.startRow < x.rows → ¬ written →
          ∃ (plan : RebuildPlan) (j : JobId), s.checkRebuild f = .ok (plan, j) ∧ plan.mode.code = f.mode ∧
            plan.extent = e ∧ plan.sources.map Source.position = f.positions ∧
            plan.sources.map (fun y => y.target.val) = f.targets ∧
            (((s.job j).state = .free ∧ ∀ k : JobId, k < j → (s.job k).state ≠ .free) ∨
              ((∀ k : JobId, (s.job k).state ≠ .free) ∧ (s.job j).state = .ended ∧
                ∀ k : JobId, k < j → (s.job k).state ≠ .ended)))))

/-- REBUILD (R88, R89): a slip that fails a check is refused with its reason. An accepted one, said where its targets
are in no target list, fills the record as R89 step 1 lists (the end stamp 0, log 52), makes the targets TARGET, counts
the row operations on the extent, and enters RUNNING where there are none and STARTING otherwise; the slip is not
answered. -/
def Obligations.RebuildAccepted : Prop :=
  ∀ (s : State) (run : SweepRun) (tag : BitVec 64) (body : SlipBody), s.AtRest → s.sweepAt .slipRead = some run →
    let f := rebuildFields body
    (∀ reason, s.checkRebuild f = .error reason →
      ∃ t : State, exec (.rebuild tag body) s = .next t ∧ s.Refuses t run tag reason) ∧
    (∀ (plan : RebuildPlan) (j : JobId), s.checkRebuild f = .ok (plan, j) →
      (∀ x ∈ plan.sources, s.extentOfPort x.target = none) →
      ∃ t : State, exec (.rebuild tag body) s = .next t ∧
        (t.job j).agrees
          { state := if s.rowWorkCount plan.extent = 0 then .running else .starting
            drainCause := none, mode := plan.mode, extent := plan.extent, sources := plan.sources
            outgoing := match plan.mode with
              | .reconstruct => none
              | .copy => plan.sources.head?.bind fun x => (s.extent plan.extent).targets[x.position]?
            startRow := f.startRow, endRow := (s.extent plan.extent).rows, frontier := f.startRow
            nextRow := f.startRow, window := [], inFlight := [], lanesWanted := max 1 (min 4 f.lanes)
            laneCount := max 1 (min 4 f.lanes), coolCredits := max 1 (min 1023 f.coolCredits)
            hotCredits := max 1 (min 1023 f.hotCredits), creditsLeft := 0, expedite := f.expedite
            exposed := decide ((s.extent plan.extent).condition = .exposed)
            drainCount := s.rowWorkCount plan.extent, publishedFrontier := f.startRow
            answering := some run.slip, control := none, rowsDone := 0, rowsCopied := 0, rowsReconstructed := 0
            blocksReconstructed := 0, blocksLost := 0, repairs := 0, clampMark := f.clampedAny, endCause := none
            startStamp := s.time.tick, endStamp := 0, targetless := false } ∧
        s.SameOtherJobs t j ∧
        (∀ p : PortId, t.port p =
          if ∃ x ∈ plan.sources, x.target = p then { s.port p with memberState := .target } else s.port p) ∧
        t.extents = s.extents ∧ t.losses = s.losses ∧ t.requests = s.requests ∧ t.holds = s.holds ∧
        t.solver = s.solver ∧ t.rows.frameWait = s.rows.frameWait ∧ t.rows.unsettled = s.rows.unsettled ∧
        (∀ c, (t.context c).map Operation.countedBy = (s.context c).map fun op =>
          if op.extent = plan.extent then some j else op.countedBy) ∧
        t.rows.contextWait = s.rows.contextWait.map (fun r =>
          { r with countedBy := if r.extent = plan.extent then some j else r.countedBy }) ∧
        s.SamePacing t ∧ t.pending = s.pending ∧ s.KeepsSlip t run tag none ∧
        (s.board.engine ≠ .faulted → s.board.publishing = none →
          (s.board.engine = .stopped → s.board.quiesced = true) → t.board.publishing = some t.pageFields))

/-- JOBCTL_PAUSE, the end of a pause, and JOBCTL_RESUME (R101, R102, R103): PAUSE is accepted from RUNNING alone; with
no rows in flight the job is PAUSED and the slip answered GOOD, otherwise the job is PAUSING and keeps the slip; a
PAUSING job whose last row has ended short of the end row becomes PAUSED and its PAUSE is answered GOOD. A job whose
frontier is already at its end row completes, and its PAUSE is refused, which is the model's reading of R108 (log 1).
RESUME is accepted from PAUSED alone; the job is RUNNING, and the slip is answered GOOD at once, or adopted as the
answering slip of an orphaned job and not answered. The body of such an answer gives the job as it stands when the answer
is written, which the model takes to be when its writing begins (log 15), and its fields are those of R101, the cause of an
ENDED job being its end cause (log 46). A refusal has a body of zeros, WRONG_STATE
too, which is the model's choice (log 58). -/
def Obligations.JobPausedAndResumed : Prop :=
  ((∀ (s : State) (run : SweepRun) (tag : BitVec 64) (body : SlipBody), s.AtRest → s.sweepAt .slipRead = some run →
     (controlFields 0 body = none →
       ∃ t : State, exec (.jobctlPause tag body) s = .next t ∧ s.Refuses t run tag .badField) ∧
     ∀ f : ControlFields, controlFields 0 body = some f →
       ((s.job f.job).state ≠ .running ∨ (s.job f.job).frontier = (s.job f.job).endRow →
         ∃ t : State, exec (.jobctlPause tag body) s = .next t ∧ s.Refuses t run tag .wrongState) ∧
       ((s.job f.job).state = .running → (s.job f.job).frontier ≠ (s.job f.job).endRow → (s.job f.job).inFlight = [] →
         ∃ t : State, exec (.jobctlPause tag body) s = .next t ∧
           (t.job f.job).agrees { s.job f.job with state := .paused } ∧ s.SameOtherJobs t f.job ∧ s.SameArray t ∧
           s.SameWork t ∧ s.SamePacing t ∧ t.pending = s.pending ∧ s.Publishes t ∧
           s.AnswersAtOnce t run tag (controlAnswer run.slip .good f.job)) ∧
       ((s.job f.job).state = .running → (s.job f.job).frontier ≠ (s.job f.job).endRow → (s.job f.job).inFlight ≠ [] →
         ∃ t : State, exec (.jobctlPause tag body) s = .next t ∧
           (t.job f.job).agrees { s.job f.job with state := .pausing, control := some run.slip } ∧
           s.SameOtherJobs t f.job ∧ s.SameArray t ∧ s.SameWork t ∧ s.SamePacing t ∧ t.pending = s.pending ∧
           s.Publishes t ∧ s.KeepsSlip t run tag none)) ∧
   ∀ (s : State) (j : JobId), s.AtRest → (s.job j).state = .pausing → (s.job j).inFlight = [] →
     (s.job j).frontier ≠ (s.job j).endRow →
     ∃ t : State, exec (.pausingDrainEnd j) s = .next t ∧
       (t.job j).agrees { s.job j with state := .paused, control := none } ∧ s.SameOtherJobs t j ∧
       s.Answers t ((s.job j).control.toList.map fun slip => controlAnswer slip .good j) ∧
       s.SameArray t ∧ s.SameWork t ∧ s.SamePacing t ∧ t.pending = s.pending ∧ s.SameRegisters t ∧ s.SameSweep t ∧
       s.Publishes t ∧ s.AnswerBegins t) ∧
  (∀ (s : State) (run : SweepRun) (tag : BitVec 64) (body : SlipBody), s.AtRest → s.sweepAt .slipRead = some run →
     (controlFields 1 body = none →
       ∃ t : State, exec (.jobctlResume tag body) s = .next t ∧ s.Refuses t run tag .badField) ∧
     ∀ f : ControlFields, controlFields 1 body = some f →
       ((s.job f.job).state ≠ .paused →
         ∃ t : State, exec (.jobctlResume tag body) s = .next t ∧ s.Refuses t run tag .wrongState) ∧
       ((s.job f.job).state = .paused →
         ∃ t : State, exec (.jobctlResume tag body) s = .next t ∧ s.SameOtherJobs t f.job ∧ s.SameArray t ∧
           s.SameWork t ∧ s.SamePacing t ∧ t.pending = s.pending ∧ s.Publishes t ∧
           ((s.job f.job).answering ≠ none →
             (t.job f.job).agrees { s.job f.job with state := .running } ∧
             s.AnswersAtOnce t run tag (controlAnswer run.slip .good f.job)) ∧
           ((s.job f.job).answering = none →
             (t.job f.job).agrees { s.job f.job with state := .running, answering := some run.slip } ∧
             s.KeepsSlip t run tag none))) ∧
  (∀ (s : State) (a : Answer),
    (a.control = none → s.answerFields a = a.body) ∧
    ∀ c, a.control = some c → s.answerFields a =
      (match c.drained with
        | none => s.job c.job
        | some cause => { s.job c.job with state := .aborting, drainCause := some cause } : Job).controlBody c.job) ∧
  ∀ (j : JobId) (x : Job),
    let flag := fun b : Bool => if b then 1 else 0
    let cause := match (if x.state = .ended then x.endCause else x.drainCause) with
      | none => 0 | some .complete => 1 | some .aborted => 2 | some .targetLost => 3 | some .extentLost => 4
    x.controlBody j =
      [field1 j.val, field1 x.state.code, field1 cause, field1 x.mode.code, field8 x.frontier, field8 x.nextRow,
       field8 x.window.length, field8 x.inFlight.length, field1 x.laneCount, field1 x.lanesWanted,
       field2 x.coolCredits, field2 x.hotCredits, field2 x.creditsLeft, field1 (flag x.expedite), field1 (flag x.exposed),
       field1 (flag (x.isOn && x.answering.isNone)), field8 x.rowsDone.toNat, field8 x.rowsCopied.toNat,
       field8 x.rowsReconstructed.toNat, field8 x.blocksReconstructed.toNat, field8 x.blocksLost.toNat,
       field8 x.repairs.toNat]

/-- JOBCTL_ABORT (R101, R104): accepted from STARTING, RUNNING, PAUSING and PAUSED; the job is ABORTING with drain cause
ABORTED, a PAUSE that awaits its answer is answered FAILED with the state ABORTING in its body, and the ABORT slip
becomes the control slip and is not answered. A RUNNING or PAUSING job whose frontier is at its end row completes, and
its ABORT is refused, which is the model's reading of R108 (log 1). A refusal has a body of zeros, WRONG_STATE too, which
is the model's choice (log 58). -/
def Obligations.JobAborted : Prop :=
  ∀ (s : State) (run : SweepRun) (tag : BitVec 64) (body : SlipBody), s.AtRest → s.sweepAt .slipRead = some run →
    (controlFields 2 body = none →
      ∃ t : State, exec (.jobctlAbort tag body) s = .next t ∧ s.Refuses t run tag .badField) ∧
    ∀ f : ControlFields, controlFields 2 body = some f →
      let x := s.job f.job
      let completes := (x.state = .running ∨ x.state = .pausing) ∧ x.frontier = x.endRow
      (x.state ∉ [.starting, .running, .pausing, .paused] ∨ completes →
        ∃ t : State, exec (.jobctlAbort tag body) s = .next t ∧ s.Refuses t run tag .wrongState) ∧
      (x.state ∈ [.starting, .running, .pausing, .paused] → ¬ completes →
        ∃ t : State, exec (.jobctlAbort tag body) s = .next t ∧
          (t.job f.job).agrees
            { x with state := .aborting, drainCause := some .aborted, control := some run.slip } ∧
          s.SameOtherJobs t f.job ∧ s.Answers t (s.supersededPause f.job .aborted) ∧
          s.SameArray t ∧ s.SameWork t ∧ s.SamePacing t ∧ t.pending = s.pending ∧ s.SameRegisters t ∧
          s.Dispatched t run tag none ∧ s.Publishes t ∧ s.AnswerBegins t)

/-- JOBCTL_CHANGE (R101, R105, R146): accepted from STARTING, RUNNING, PAUSING and PAUSED and answered at once, ADJUSTED
where a lanes or credits field was clamped and GOOD otherwise. A non-zero lanes field, clamped to 1 to 4, becomes lanes
wanted and the lane count the greater of it and the rows in flight; a non-zero credits field, clamped to 1 to 1023,
becomes its budget; the expedite flag is set, cleared or kept; and credits left is cut to the budget now chosen. A slip
whose every field keeps its value changes nothing (the model's reading, log 43), and a RUNNING or PAUSING job whose
frontier is at its end row completes and refuses the slip (the model's reading of R108, log 1). A refusal has a body of
zeros, WRONG_STATE too, which is the model's choice (log 58). -/
def Obligations.JobChanged : Prop :=
  ∀ (s : State) (run : SweepRun) (tag : BitVec 64) (body : SlipBody), s.AtRest → s.sweepAt .slipRead = some run →
    (controlFields 3 body = none →
      ∃ t : State, exec (.jobctlChange tag body) s = .next t ∧ s.Refuses t run tag .badField) ∧
    ∀ f : ControlFields, controlFields 3 body = some f →
      let x := s.job f.job
      let completes := (x.state = .running ∨ x.state = .pausing) ∧ x.frontier = x.endRow
      (x.state ∉ [.starting, .running, .pausing, .paused] ∨ completes →
        ∃ t : State, exec (.jobctlChange tag body) s = .next t ∧ s.Refuses t run tag .wrongState) ∧
      (x.state ∈ [.starting, .running, .pausing, .paused] → ¬ completes →
        ∃ t : State, exec (.jobctlChange tag body) s = .next t ∧
          (t.job f.job).lanesWanted = (if f.lanes = 0 then x.lanesWanted else max 1 (min 4 f.lanes)) ∧
          (t.job f.job).laneCount =
            (if f.lanes = 0 then x.laneCount else max (t.job f.job).lanesWanted x.inFlight.length) ∧
          (t.job f.job).coolCredits =
            (if f.coolCredits = 0 then x.coolCredits else max 1 (min 1023 f.coolCredits)) ∧
          (t.job f.job).hotCredits =
            (if f.hotCredits = 0 then x.hotCredits else max 1 (min 1023 f.hotCredits)) ∧
          (t.job f.job).expedite =
            (if f.expedite = .set then true else if f.expedite = .clear then false else x.expedite) ∧
          (t.job f.job).creditsLeft =
            (if f.lanes = 0 ∧ f.coolCredits = 0 ∧ f.hotCredits = 0 ∧ f.expedite = .keep then x.creditsLeft
            else min x.creditsLeft
              (if (t.job f.job).expedite = true ∨ x.exposed = true ∨ s.guard.state = .cool then
                (t.job f.job).coolCredits
              else (t.job f.job).hotCredits)) ∧
          (t.job f.job).agrees
            { x with
              lanesWanted := (t.job f.job).lanesWanted, laneCount := (t.job f.job).laneCount
              coolCredits := (t.job f.job).coolCredits, hotCredits := (t.job f.job).hotCredits
              expedite := (t.job f.job).expedite, creditsLeft := (t.job f.job).creditsLeft } ∧
          s.SameOtherJobs t f.job ∧ s.SameArray t ∧ s.SameWork t ∧ s.SamePacing t ∧ t.pending = s.pending ∧
          (x.agrees (t.job f.job) → s.Silent t) ∧ (¬ x.agrees (t.job f.job) → s.Publishes t) ∧
          s.AnswersAtOnce t run tag
            (controlAnswer run.slip
              (if 4 < f.lanes ∨ 1023 < f.coolCredits ∨ 1023 < f.hotCredits then .adjusted else .good) f.job))

/-- JOB_ROW_START and STARTING_DRAIN_END (R90, R91): a RUNNING job in a RUNNING engine with a credit, a free lane, and N
below F + 64 and the end row starts row N: the credit is spent, N joins the rows in flight and rises by one, and a
REBUILD_ROW request joins the context wait list; the lower-numbered jobs start theirs first. A STARTING job with drain
count 0 enters RUNNING. ABORTING_DRAIN_END (R100, R96): an ABORTING job with no row in flight ends. Said where its
targets are in no target list: each target still TARGET becomes SPARE with its stall cleared, but not a last target that
the job has lost and a later job has taken, which is the model's reading (log 71); the record is ENDED with its drain
cause, the stamp and the exposed flag clear; its answering slip is answered by R96 and its control slip GOOD. -/
def Obligations.JobStartsRowsAndDrains : Prop :=
  ((∀ (s : State) (j : JobId), s.AtRest → s.board.engine = .running →
     (s.job j).state = .running → 1 ≤ (s.job j).creditsLeft → (s.job j).inFlight.length < (s.job j).laneCount →
     (s.job j).nextRow < (s.job j).frontier + 64 → (s.job j).nextRow < (s.job j).endRow →
     (∀ k : JobId, k < j → s.canStartRow k = false) →
     ∃ t : State, exec (.jobRowStart j) s = .next t ∧
       (t.job j).agrees
         { s.job j with
           creditsLeft := (s.job j).creditsLeft - 1, nextRow := (s.job j).nextRow + 1
           inFlight := (s.job j).inFlight ++ [(s.job j).nextRow] } ∧
       t.rows = { s.rows with contextWait := s.rows.contextWait ++
         [{ kind := .rebuildRow, owner := .job j, extent := (s.job j).extent, row := (s.job j).nextRow,
            requested := [], countedBy := none }] } ∧
       s.SameOtherJobs t j ∧ s.SameArray t ∧ t.solver = s.solver ∧ t.holds = s.holds ∧ t.requests = s.requests ∧
       s.SamePacing t ∧ t.pending = s.pending ∧ s.SameRegisters t ∧ s.SameSweep t ∧ s.Answers t [] ∧ s.Silent t ∧
       s.AnswerBegins t) ∧
   (∀ (s : State) (j : JobId),
     s.board.engine ≠ .running ∨ (s.job j).state ≠ .running ∨ (s.job j).creditsLeft = 0 ∨
       (s.job j).laneCount ≤ (s.job j).inFlight.length ∨ (s.job j).frontier + 64 ≤ (s.job j).nextRow ∨
       (s.job j).endRow ≤ (s.job j).nextRow → exec (.jobRowStart j) s = .next s) ∧
   ∀ (s : State) (j : JobId), s.AtRest → (s.job j).state = .starting → (s.job j).drainCount = 0 →
     ∃ t : State, exec (.startingDrainEnd j) s = .next t ∧ (t.job j).agrees { s.job j with state := .running } ∧
       s.SameOtherJobs t j ∧ s.SameArray t ∧ s.SameWork t ∧ s.SamePacing t ∧ t.pending = s.pending ∧
       s.SameRegisters t ∧ s.SameSweep t ∧ s.Answers t [] ∧ s.Publishes t ∧ s.AnswerBegins t) ∧
  (∀ (s : State) (j : JobId), s.AtRest → (s.job j).state = .aborting → (s.job j).inFlight = [] →
     (s.job j).drainCause ≠ some .complete → (∀ x ∈ (s.job j).sources, s.extentOfPort x.target = none) →
     ∃ t : State, exec (.abortingDrainEnd j) s = .next t ∧
       (t.job j).agrees
         { s.job j with
           state := .ended, endCause := (s.job j).drainCause, endStamp := s.time.tick, exposed := false
           control := none } ∧
       s.SameOtherJobs t j ∧
       (∀ p : PortId,
         if (s.port p).memberState = .target ∧ (s.job j).targetless = false ∧ ∃ x ∈ (s.job j).sources, x.target = p then
           (t.port p).memberState = .spare ∧ (t.port p).stalled = false ∧ (t.port p).lapseCount = 0 ∧
             (t.port p).waiting = [] ∧ (t.port p).slots = (s.port p).slots
         else t.port p = s.port p) ∧
       s.Answers t (answersOf
         [((s.job j).answering, .failed,
             (if (s.job j).drainCause = some .extentLost then .extentLost else .none), (t.job j).endBody j),
          ((s.job j).control, .good, .none, (t.job j).controlBody j)]) ∧
       t.extents = s.extents ∧ t.losses = s.losses ∧ t.requests = s.requests ∧ t.holds = s.holds ∧
       s.SamePacing t ∧ t.pending = s.pending ∧ s.SameRegisters t ∧ s.SameSweep t ∧ s.Publishes t ∧ s.AnswerBegins t)

/-- JOB_COMPLETION (R95, R96, R108): a RUNNING or PAUSING job whose frontier has reached its end row, with no row in flight,
completes. Said where every extent has the condition of R9 and the targets and the outgoing port stand in no other target
list: each target that is still TARGET becomes ONLINE, one that has failed meanwhile keeps its state, and both stand in
the list at their source positions (log 1); an outgoing port of a COPY that is ONLINE becomes RELEASED; the condition is
computed by R9; and the record is ENDED with cause COMPLETE. Unless the extent is LOST even so, the answering slip is
answered by R96 and a PAUSE FAILED. -/
def Obligations.JobCompletes : Prop :=
  ∀ (s : State) (j : JobId), s.AtRest → (s.job j).state = .running ∨ (s.job j).state = .pausing →
    (s.job j).frontier = (s.job j).endRow → (s.job j).inFlight = [] →
    (s.extent (s.job j).extent).condition ≠ .unused →
    (∀ k : ExtentId, (s.extent k).condition ≠ .unused → (s.extent k).condition = s.conditionOf k) →
    let e := (s.job j).extent
    let list := (s.job j).sources.foldl (fun l x => l.set x.position x.target) (s.extent e).targets
    (∀ x ∈ (s.job j).sources, ∀ k : ExtentId, (s.extent k).condition ≠ .unused → x.target ∉ (s.extent k).targets) →
    (∀ q, (s.job j).outgoing = some q → q ∉ list ∧ (∀ x ∈ (s.job j).sources, x.target ≠ q) ∧
      ∀ k : ExtentId, k ≠ e → (s.extent k).condition ≠ .unused → q ∉ (s.extent k).targets) →
    ∃ t : State, exec (.jobCompletion j) s = .next t ∧
      (t.job j).state = .ended ∧ (t.job j).endCause = some .complete ∧ (t.job j).endStamp = s.time.tick ∧
      (t.job j).exposed = false ∧ (t.job j).control = none ∧ (t.job j).answering = (s.job j).answering ∧
      (t.job j).frontier = (s.job j).frontier ∧ (t.job j).sources = (s.job j).sources ∧
      (t.job j).mode = (s.job j).mode ∧ (t.job j).rowsDone = (s.job j).rowsDone ∧
      (t.job j).blocksLost = (s.job j).blocksLost ∧
      (∀ x ∈ (s.job j).sources, t.port x.target = { s.port x.target with memberState :=
        if (s.port x.target).memberState = .target then .online else (s.port x.target).memberState }) ∧
      ((s.job j).mode = .copy → ∀ q, (s.job j).outgoing = some q →
        if (s.port q).memberState = .online then
          (t.port q).memberState = .released ∧ (t.port q).stalled = false ∧ (t.port q).lapseCount = 0
        else (t.port q).memberState = (s.port q).memberState) ∧
      t.extent e = { s.extent e with targets := list, condition := t.conditionOf e } ∧
      (∀ x, x ≠ e → t.extent x = s.extent x) ∧
      ((t.extent e).condition ≠ .lost → s.jobOn e = some j →
        s.Answers t (answersOf
          [((s.job j).answering,
              (if (s.job j).blocksLost = 0 then (if (s.job j).clampMark then .adjusted else .good) else .lostData),
              .none, (t.job j).endBody j),
           ((s.job j).control, .failed, .none, (t.job j).controlBody j)]) ∧ s.SameOtherJobs t j) ∧
      t.losses = s.losses ∧ s.SamePacing t ∧ t.pending = s.pending ∧ s.SameRegisters t ∧ s.SameSweep t ∧
      s.Publishes t ∧ s.AnswerBegins t

/-- What a member's failure is to a job (R35, R97, R98, R99, R63, R108), said of LINK_DOWN at an ONLINE or TARGET port. A
job whose last row has ended completes, and takes none of it (log 1). A job that has lost its last target has none to lose
any more, and a job that has taken that port since takes its failure, by the model's reading (log 71). A COPY job whose
outgoing member fails turns to RECONSTRUCT for good, its outgoing port absent. A job with another target still TARGET
drops the failed one with its source position. A job that loses its last target drains with TARGET_LOST, unless it is
ABORTING already: a PAUSE is answered FAILED, and its rows that have nothing running end. A job whose extent's condition
changes has its exposed flag set for EXPOSED and cleared for any other; where the condition becomes LOST it drains with
EXTENT_LOST, the rows on the extent that have nothing running end, and those that run withdraw what is pending and
remember the loss (log 26). -/
def Obligations.JobsSeeMembers : Prop :=
  ∀ (s : State) (p : PortId) (j : JobId), s.AtRest → (s.job j).isOn = true →
    (s.port p).memberState = .online ∨ (s.port p).memberState = .target →
    let x := s.job j
    let completes := (x.state = .running ∨ x.state = .pausing) ∧ x.frontier = x.endRow
    let outgoing := x.mode = .copy ∧ x.outgoing = some p
    let left := x.sources.filter fun y => y.target ≠ p
    let another := ∃ y ∈ left, (s.port y.target).memberState = .target
    (∀ k : JobId, k ≠ j → (s.job k).isOn = true → (s.job k).extent ≠ x.extent ∧ (s.job k).outgoing ≠ some p ∧
      ((s.job k).targetless = true ∨ ∀ y ∈ (s.job k).sources, y.target ≠ p)) →
    ∃ t : State, exec (.linkDown p) s = .next t ∧
      (completes → (t.job j).state = x.state ∧ (t.job j).drainCause = x.drainCause ∧ (t.job j).mode = x.mode ∧
        (t.job j).outgoing = x.outgoing ∧ (t.job j).sources = x.sources ∧ (t.job j).control = x.control) ∧
      (¬ completes → outgoing → (t.job j).mode = .reconstruct ∧ (t.job j).outgoing = none ∧ s.Publishes t) ∧
      (¬ outgoing → (t.job j).mode = x.mode ∧ (t.job j).outgoing = x.outgoing) ∧
      ((∀ y ∈ x.sources, y.target ≠ p) ∨ x.targetless = true →
        (t.job j).sources = x.sources ∧ (t.job j).targetless = x.targetless) ∧
      (x.targetless = true → s.extentOfPort p = none → ¬ outgoing →
        (t.job j).agrees x ∧ s.Answers t [] ∧ ∀ c, (t.context c).map Operation.phase = (s.context c).map Operation.phase) ∧
      (¬ completes → x.targetless = false → (∃ y ∈ x.sources, y.target = p) → s.extentOfPort p = none → ¬ outgoing →
        (another → (t.job j).agrees { x with sources := left } ∧ s.Answers t [] ∧ s.Publishes t ∧
          ∀ c, (t.context c).map Operation.phase = (s.context c).map Operation.phase) ∧
        (¬ another → (t.job j).sources = x.sources ∧ (t.job j).targetless = true ∧ (t.job j).state = .aborting ∧
          (t.job j).drainCause = (if x.state = .aborting then x.drainCause else some .targetLost) ∧
          (t.job j).control = (if x.state = .aborting then x.control else none) ∧
          (t.job j).frontier = x.frontier ∧ (t.job j).nextRow = x.nextRow ∧ (t.job j).rowsDone = x.rowsDone ∧
          s.Answers t (s.supersededPause j .targetLost) ∧
          (∀ r ∈ t.rows.contextWait, r.owner ≠ .job j) ∧
          ∀ c op, s.context c = some op → op.owner = .job j →
            (op.phase ∈ [.holdWait, .frameWait, .awaitMember] → t.context c = none) ∧
            (op.phase ∉ [.holdWait, .frameWait, .awaitMember] →
              (t.context c).map Operation.phase = some op.phase))) ∧
      (s.extentOfPort p = some x.extent → (∀ y ∈ x.sources, y.target ≠ p) ∨ x.targetless = true →
        let new := (t.extent x.extent).condition
        new = t.conditionOf x.extent ∧
        (new = (s.extent x.extent).condition → (t.job j).exposed = x.exposed ∧ (t.job j).state = x.state) ∧
        (new ≠ (s.extent x.extent).condition → (t.job j).exposed = decide (new = .exposed)) ∧
        (new ≠ .lost → (t.job j).state = x.state ∧ (t.job j).drainCause = x.drainCause ∧ s.Answers t []) ∧
        (new = .lost → new ≠ (s.extent x.extent).condition →
          (completes ∨ x.state = .aborting → (t.job j).state = x.state ∧ (t.job j).drainCause = x.drainCause) ∧
          (¬ completes → x.state ≠ .aborting →
            (t.job j).state = .aborting ∧ (t.job j).drainCause = some .extentLost ∧ (t.job j).control = none ∧
              s.Answers t (s.supersededPause j .extentLost)) ∧
          (∀ r ∈ t.rows.contextWait, r.extent ≠ x.extent) ∧
          ∀ c op, s.context c = some op → op.extent = x.extent →
            (op.phase ∈ [.holdWait, .frameWait, .awaitMember] → t.context c = none) ∧
            (op.phase = .solveWait → (t.context c).map Operation.phase = some .solveWait) ∧
            (op.phase ∈ [.gather, .supplement, .solving, .place] →
              (∃ op', t.context c = some op' ∧ op'.phase = op.phase ∧ op'.lostSeen = true ∧ op'.writesLeft = []) ∧
                ∀ q : PortId, ∀ r ∈ (t.port q).waiting, r.owner ≠ some c)))

/-! ## Foreground service -/

/-- READ, WRITE and RESYNC (R115, R116): the checks in their order, each with its refusal, which leaves the TAKEN slip
marked as foreground work on the extent it names (the model's reading, log 48); an accepted slip makes a
request record with its row pieces, none started and every tally 0, is marked as work on its extent, and is not
answered. Its start condition is tested (R118): in RUNNING and QUIESCING up to four of its pieces may start (log 23). -/
def Obligations.ForegroundAccepted : Prop :=
  (∀ (s : State) (run : SweepRun) (tag : BitVec 64) (body : SlipBody), s.AtRest → s.sweepAt .slipRead = some run →
    16 ≤ slipField body 0x20 1 → ∀ c ∈ [Instr.read tag body, .write tag body, .resync tag body],
      ∃ t : State, exec c s = .next t ∧ s.Refuses t run tag .badField) ∧
  ∀ (s : State) (run : SweepRun) (tag : BitVec 64) (body : SlipBody) (e : ExtentId), s.AtRest →
    s.sweepAt .slipRead = some run → slipField body 0x20 1 = e.val →
    let x := s.extent e
    let granted := fun n : Nat =>
      if s.board.engine = .running ∨ s.board.engine = .quiescing then min 4 n else 0
    (∀ (c : Instr) (kind : ForegroundKind), (c = .read tag body ∧ kind = .read) ∨ (c = .write tag body ∧ kind = .write) →
      let f := transferFields body
      let fieldsOk := 1 ≤ f.blockCount ∧ f.blockCount ≤ 1024 ∧ f.buffer % 4096 = 0 ∧
        f.buffer + f.blockCount * 4096 - 1 < 2 ^ 64
      let refused := fun reason => ∃ t : State, exec c s = .next t ∧ s.Dispatched t run tag (some e) ∧
        s.Answers t [{ slip := run.slip, status := .refused, reason := reason, body := [] }] ∧ s.SameRegisters t ∧
        s.SameOutside t ∧ s.Silent t ∧ s.AnswerBegins t
      (¬ fieldsOk → refused .badField) ∧
      (fieldsOk → x.condition = .unused → refused .noExtent) ∧
      (fieldsOk → x.condition = .lost → refused .extentLost) ∧
      (fieldsOk → x.condition ≠ .unused → x.condition ≠ .lost →
        (f.firstBlock < x.arrayStart ∨ x.arrayLimit < f.firstBlock + f.blockCount - 1 → refused .outOfRange) ∧
        (x.arrayStart ≤ f.firstBlock → f.firstBlock + f.blockCount - 1 ≤ x.arrayLimit →
          ∃ t : State, exec c s = .next t ∧
            t.requests = s.requests ++
              [{ slip := run.slip, kind := kind, extent := e, firstBlock := f.firstBlock, blockCount := f.blockCount,
                 buffer := f.buffer, firstRow := 0, rowCount := 0,
                 pieces := x.rowPieces f.firstBlock (f.firstBlock + f.blockCount - 1), nextPiece := 0,
                 granted := granted (x.rowPieces f.firstBlock (f.firstBlock + f.blockCount - 1)).length,
                 inFlight := [], stop := none, tallies := RequestTallies.zero, worst := .good }] ∧
            s.KeepsSlip t run tag (some e) ∧ s.SameArray t ∧ t.rows = s.rows ∧ t.solver = s.solver ∧
            t.holds = s.holds ∧ s.SameJobs t ∧ s.SamePacing t ∧ t.pending = s.pending ∧ s.Silent t))) ∧
    (let f := resyncFields body
      let refused := fun reason => ∃ t : State, exec (.resync tag body) s = .next t ∧
        s.Dispatched t run tag (some e) ∧
        s.Answers t [{ slip := run.slip, status := .refused, reason := reason, body := [] }] ∧ s.SameRegisters t ∧
        s.SameOutside t ∧ s.Silent t ∧ s.AnswerBegins t
      (f.rowCount = 0 ∨ 65536 < f.rowCount → refused .badField) ∧
      (1 ≤ f.rowCount → f.rowCount ≤ 65536 →
        (x.condition = .unused → refused .noExtent) ∧ (x.condition = .lost → refused .extentLost) ∧
        (x.condition ≠ .unused → x.condition ≠ .lost → x.rows < f.firstRow + f.rowCount → refused .outOfRange) ∧
        (x.condition ≠ .unused → x.condition ≠ .lost → f.firstRow + f.rowCount ≤ x.rows →
          ∃ t : State, exec (.resync tag body) s = .next t ∧
            t.requests = s.requests ++
              [{ slip := run.slip, kind := .resync, extent := e, firstBlock := 0, blockCount := 0, buffer := 0,
                 firstRow := f.firstRow, rowCount := f.rowCount,
                 pieces := (List.range f.rowCount).map fun i => { row := f.firstRow + i, runs := [] },
                 nextPiece := 0, granted := granted f.rowCount, inFlight := [], stop := none, tallies := RequestTallies.zero, worst := .good }] ∧
            s.KeepsSlip t run tag (some e) ∧ s.SameArray t ∧ t.rows = s.rows ∧ t.solver = s.solver ∧
            t.holds = s.holds ∧ s.SameJobs t ∧ s.SamePacing t ∧ t.pending = s.pending ∧ s.Silent t)))

/-- The row pieces of a READ or WRITE within the array range (R117): their rows rise strictly, every offset of every run
carries a block of the request, and every block of the request is carried at some offset of some run. The buffer place of
a requested block lies the block's distance from the first, in units of 4096 bytes, past the request's buffer. -/
def Obligations.RowPiecesCover : Prop :=
  (∀ (s : State) (op : Operation) (i : SlipId) (piece : Nat) (r : ForegroundRequest), (s.extent op.extent).legal →
    op.owner = .slip i piece → s.requests.find? (fun x => x.slip == i) = some r →
    let e := s.extent op.extent
    (s.bufferPlaces op).map (fun x => (x.position, x.offset)) = op.requestedBlocks e ∧
    ∀ x ∈ s.bufferPlaces op, ∃ k, k < e.dataCount ∧ e.dataPosition (e.stripeOf op.row) k = x.position ∧
      x.address = r.buffer + (e.arrayBlock op.row k x.offset - r.firstBlock) * 4096) ∧
  ∀ (e : Extent) (first last : Nat), e.legal → e.arrayStart ≤ first → first ≤ last → last ≤ e.arrayLimit →
    ((e.rowPieces first last).map Piece.row).Pairwise (· < ·) ∧
    (∀ piece ∈ e.rowPieces first last, piece.row < e.rows ∧ piece.runs ≠ [] ∧
      (piece.runs.map RequestedRun.strip).Pairwise (· < ·) ∧
      ∀ r ∈ piece.runs, r.strip < e.dataCount ∧ 1 ≤ r.count ∧ r.first + r.count ≤ 16 ∧
        ∀ t, r.first ≤ t → t < r.first + r.count →
          first ≤ e.arrayBlock piece.row r.strip t ∧ e.arrayBlock piece.row r.strip t ≤ last) ∧
    ∀ a, first ≤ a → a ≤ last → ∃ piece ∈ e.rowPieces first last, ∃ r ∈ piece.runs, ∃ t,
      r.first ≤ t ∧ t < r.first + r.count ∧ e.arrayBlock piece.row r.strip t = a

/-- PIECE_START (R118, R161, R127). The test of R118, made when a request is accepted and when a row of it has ended,
lets pieces start in RUNNING and QUIESCING, with no stop cause, until four rows are in flight; that a piece let start is
started though the engine has become FAULTED is R127's, and that none is in STOPPED is R161's (log 23). With fewer than
4 rows in flight, no stop cause, and a piece that was let start, the piece at next piece starts: its row joins the rows
in flight, next piece moves on, and a row request joins the context wait list. On an extent that is LOST the stop cause
EXTENT_LOST is set instead. Otherwise nothing starts. REQUEST_FINISH (R119 step 5, R122, R123, R127): a request with no
rows in flight, and with its last piece started or a stop cause set, is answered with its worst status, or FAILED with
the stop cause as reason, and its record is removed; in FAULTED so is one whose pieces left no test let start (log 24).
One with rows in flight, or with pieces left that may still start, is not. The body of a READ has no place for the kept
mark, which is the model's reading of R122 (log 25). -/
def Obligations.PiecesStartAndRequestsFinish : Prop :=
  ((∀ (s : State) (before after : List ForegroundRequest) (r : ForegroundRequest) (piece : Piece), s.AtRest →
     s.requests = before ++ r :: after → (∀ x ∈ before ++ after, x.slip ≠ r.slip) →
     0 < r.granted → r.inFlight.length < 4 → r.stop = none → s.board.engine ≠ .stopped →
     r.pieces[r.nextPiece]? = some piece →
     ∃ t : State, exec (.pieceStart r.slip) s = .next t ∧
       ((s.extent r.extent).condition = .lost →
         t.requests = before ++ { r with stop := some .extentLost } :: after ∧ t.rows = s.rows) ∧
       ((s.extent r.extent).condition ≠ .lost →
         t.requests =
           before ++
             { r with inFlight := r.inFlight ++ [piece.row], nextPiece := r.nextPiece + 1, granted := r.granted - 1 } ::
             after ∧
         t.rows = { s.rows with contextWait := s.rows.contextWait ++
           [{ kind := match r.kind with
               | .read => .readRow
               | .write => .writeRow
               | .resync => .resyncRow,
              owner := .slip r.slip r.nextPiece, extent := r.extent, row := piece.row, requested := piece.runs,
              countedBy := none }] }) ∧
       s.SameArray t ∧ t.solver = s.solver ∧ t.holds = s.holds ∧ s.SameJobs t ∧ s.SamePacing t ∧
       t.pending = s.pending ∧ s.SameRegisters t ∧ s.SameSweep t ∧ s.Answers t [] ∧ s.Silent t ∧ s.AnswerBegins t) ∧
   (∀ (s : State) (before after : List ForegroundRequest) (r : ForegroundRequest),
     s.requests = before ++ r :: after → (∀ x ∈ before ++ after, x.slip ≠ r.slip) →
     r.granted = 0 ∨ 4 ≤ r.inFlight.length ∨ r.stop ≠ none ∨ s.board.engine = .stopped ∨
       r.pieces.length ≤ r.nextPiece → exec (.pieceStart r.slip) s = .next s) ∧
   ∀ (engine : EngineState) (r : ForegroundRequest),
     r.testPieces engine =
       { r with
         granted :=
           if r.stop = none ∧ (engine = .running ∨ engine = .quiescing) then
             min (4 - r.inFlight.length) (r.pieces.length - r.nextPiece)
           else r.granted }) ∧
  (∀ (s : State) (before after : List ForegroundRequest) (r : ForegroundRequest), s.AtRest →
     s.requests = before ++ r :: after → (∀ x ∈ before ++ after, x.slip ≠ r.slip) →
     (r.inFlight = [] →
       r.pieces.length ≤ r.nextPiece ∨ r.stop ≠ none ∨ (s.board.engine = .faulted ∧ r.granted = 0) →
       ∃ t : State, exec (.requestFinish r.slip) s = .next t ∧ t.requests = before ++ after ∧
         s.Answers t
           [{ slip := r.slip
              status := if r.stop = none then r.worst else .failed
              reason := match r.stop with
                | none => .none
                | some .extentLost => .extentLost
                | some .bufferFault => .bufferFault
              body := match r.kind with
                | .resync =>
                  [field1 r.extent.val, field8 r.firstRow, field8 r.rowCount, field8 r.tallies.done,
                   field8 r.tallies.skipped, fieldOption 8 r.tallies.firstSkipped, field8 r.tallies.settled,
                   field8 (r.pieces.length - r.nextPiece)]
                | _ =>
                  [field1 r.extent.val, field8 r.firstBlock, field8 r.blockCount, field8 r.tallies.served,
                   field8 r.tallies.reconstructed, field8 r.tallies.lost, fieldOption 8 r.tallies.firstLost,
                   field8 r.tallies.sideLosses] ++
                  (if r.kind = .write then [field1 (flagCode r.tallies.kept)] else []) ++
                  [field8 r.tallies.completed, field8 (r.pieces.length - r.nextPiece)] }] ∧
         s.SameArray t ∧ t.rows = s.rows ∧ t.solver = s.solver ∧ t.holds = s.holds ∧ s.SameJobs t ∧
         s.SamePacing t ∧ t.pending = s.pending ∧ s.SameRegisters t ∧ s.SameSweep t ∧ s.Silent t ∧
         s.AnswerBegins t) ∧
     (r.inFlight ≠ [] ∨
         (r.nextPiece < r.pieces.length ∧ r.stop = none ∧ (s.board.engine ≠ .faulted ∨ r.granted ≠ 0)) →
       exec (.requestFinish r.slip) s = .next s))

/-! ## The loss list -/

/-- Insertion (R128, R130, R131): it keeps the form of the list, unlists no block, and lists every block of the range. A
range within an entry changes nothing. Without a coarsening the entry that holds the range afterwards spans it and the
entries it overlaps or touches; it is TO_END where one of those is or where its count would pass 2^32 - 1, and has the
origin and stamp of the oldest (which of two alike in age and first block, and that entries which a new TO_END covers
count, are the model's choices, logs 55 and 56); every entry clear of it stays, and without a new TO_END no block outside
the range becomes listed. A coarsening is made of a full list that the range neither
overlaps nor touches, and then once: the two neighbours of one extent with the
smallest gap, the first in list order of several, become one entry by the same rules, and the range is inserted into what
is left. -/
def Obligations.LossInsertion : Prop :=
  ∀ (now : Stamp) (limits : ExtentId → Nat) (e : LossEntry) (l : List LossEntry), lossesLegal limits l →
    e.legal limits →
    let out := insertLoss now limits e l
    let last := fun x : LossEntry => x.last (limits x.extent)
    let older := fun x y : LossEntry =>
      (now - y.stamp).toNat < (now - x.stamp).toNat ∨ (now - y.stamp = now - x.stamp ∧ x.first ≤ y.first)
    let clear := fun x y : LossEntry => x.extent ≠ y.extent ∨ last x + 1 < y.first ∨ last y + 1 < x.first
    -- `m` is the one entry that the range `r` and the entries of `l` that meet it become
    let merged := fun (m r : LossEntry) (l : List LossEntry) => m.extent = r.extent ∧
      ∃ high, (∀ x ∈ r :: l, ¬ clear x r → m.first ≤ x.first ∧ last x ≤ high) ∧
        (∃ x ∈ r :: l, ¬ clear x r ∧ m.first = x.first) ∧ (∃ x ∈ r :: l, ¬ clear x r ∧ last x = high) ∧
        (m.toEnd = true ↔ (∃ x ∈ r :: l, ¬ clear x r ∧ x.toEnd = true) ∨ 2 ^ 32 - 1 < high + 1 - m.first) ∧
        (m.toEnd = false → last m = high) ∧
        ∃ x ∈ r :: l, ¬ clear x m ∧ m.origin = x.origin ∧ m.stamp = x.stamp ∧ ∀ y ∈ r :: l, ¬ clear y m → older x y
    lossesLegal limits out.1 ∧
      (∀ x block, Listed limits l x block → Listed limits out.1 x block) ∧
      (∀ block, e.first ≤ block → block ≤ last e → Listed limits out.1 e.extent block) ∧
      out.2 ≤ 1 ∧ (out.2 = 1 ↔ l.length = 512 ∧ ∀ x ∈ l, clear x e) ∧
      ((∃ x ∈ l, x.extent = e.extent ∧ x.first ≤ e.first ∧ last e ≤ last x) → out = (l, 0)) ∧
      (out.2 = 0 → (∀ x ∈ l, ¬ (x.extent = e.extent ∧ x.first ≤ e.first ∧ last e ≤ last x)) →
        ∃ m, merged m e l ∧ (∀ x, x ∈ out.1 ↔ x = m ∨ (x ∈ l ∧ clear x m)) ∧
          (m.toEnd = false ∨ (∃ x ∈ e :: l, ¬ clear x e ∧ x.toEnd = true) →
            ∀ x block, Listed limits out.1 x block →
              Listed limits l x block ∨ (x = e.extent ∧ e.first ≤ block ∧ block ≤ last e))) ∧
      (out.2 = 1 → ∃ before a b after m, l = before ++ a :: b :: after ∧ a.extent = b.extent ∧
        (∀ before' c d after', l = before' ++ c :: d :: after' → c.extent = d.extent →
          b.first - last a < d.first - last c ∨
            (b.first - last a = d.first - last c ∧ before.length ≤ before'.length)) ∧
        m.extent = a.extent ∧ m.first = a.first ∧
        (m.toEnd = true ↔ b.toEnd = true ∨ 2 ^ 32 - 1 < last b + 1 - a.first) ∧ (m.toEnd = false → last m = last b) ∧
        (∃ x ∈ a :: b :: after, ¬ clear x m ∧ m.origin = x.origin ∧ m.stamp = x.stamp ∧
          ∀ y ∈ a :: b :: after, ¬ clear y m → older x y) ∧
        out.1 = (insertLoss now limits e (before ++ m :: after.filter fun x => decide (clear x m))).1)

/-- Removal (R132), entry by entry in ascending order. An entry of the extent that lies within the range is deleted; one
that the range overlaps at its lower end is shortened and, where it is TO_END, stays so; one overlapped at its upper end is
shortened to a COUNTED part; one that extends beyond both ends is split into two, each with its origin and stamp, while
fewer than 512 entries are held. An entry whose split has no room, or whose lower part would pass 2^32 - 1 blocks, is left
whole, and counts as kept in either case, which for the second is the model's reading (log 32). Entries clear of the range
stay. The counts are those of the entries so treated. It keeps the form of the list and lists no new block; no block
outside the range leaves the list; and where no entry is kept no block of the range is listed any more. -/
def Obligations.LossRemoval : Prop :=
  ∀ (limits : ExtentId → Nat) (x : ExtentId) (low high : Nat) (l : List LossEntry), lossesLegal limits l → low ≤ high →
    let out := removeLosses (limits x) x low high l.length l
    let reached := fun e : LossEntry => e.extent = x ∧ low ≤ e.last (limits x) ∧ e.first ≤ high
    let lower := fun e : LossEntry => { e with toEnd := false, count := low - e.first }
    let upper := fun e : LossEntry =>
      { e with first := high + 1, count := if e.toEnd then e.count else e.last (limits x) - high }
    -- `parts` pairs each entry with what it becomes
    (∃ parts : List (LossEntry × List LossEntry), parts.map Prod.fst = l ∧ out.entries = parts.flatMap Prod.snd ∧
      (∀ before e became after, parts = before ++ (e, became) :: after →
        let held := (before.flatMap Prod.snd).length + 1 + after.length
        let last := e.last (limits x)
        (¬ reached e → became = [e]) ∧
        (reached e →
          (low ≤ e.first → last ≤ high → became = []) ∧
          (low ≤ e.first → high < last → became = [upper e]) ∧
          (e.first < low → last ≤ high → became = if 2 ^ 32 - 1 < low - e.first then [e] else [lower e]) ∧
          (e.first < low → high < last →
            became = if 2 ^ 32 - 1 < low - e.first ∨ 512 ≤ held then [e] else [lower e, upper e]))) ∧
      let count := fun which : LossEntry → List LossEntry → Prop => fun n : Nat =>
        ∃ l' : List (LossEntry × List LossEntry), l'.Sublist parts ∧ l'.length = n ∧
          ∀ y ∈ parts, y ∈ l' ↔ reached y.1 ∧ which y.1 y.2
      count (fun _ became => became = []) out.deleted ∧
      count (fun e became => became ≠ [e] ∧ became.length = 1) out.shortened ∧
      count (fun _ became => became.length = 2) out.split ∧ count (fun e became => became = [e]) out.kept) ∧
    lossesLegal limits out.entries ∧
      (∀ y block, Listed limits out.entries y block → Listed limits l y block) ∧
      (∀ y block, Listed limits l y block → y ≠ x ∨ block < low ∨ high < block → Listed limits out.entries y block) ∧
      (out.kept = 0 → ∀ block, low ≤ block → block ≤ high → ¬ Listed limits out.entries x block)

/-- LOSSES_REMOVE (R134): the checks, each with its refusal; otherwise the range is taken off the list by R132 at once,
and the slip answered LOSS_KEPT where an entry was kept whole and GOOD otherwise. LOSSES_EXPORT and EXPORT_END (R134,
R135): an operation code that is not EXPORT's (which meets this command by log 30), a bad extent, record count or buffer
is refused with BAD_FIELD; otherwise the chosen entries, up to the record count, are copied, with the counts of the
moment, and the transfer runs; its end answers GOOD from the copy, or refuses with BUFFER_FAULT. Neither changes the
entries. -/
def Obligations.LossesRemovedAndExported : Prop :=
  (∀ (s : State) (run : SweepRun) (tag : BitVec 64) (body : SlipBody), s.AtRest → s.sweepAt .slipRead = some run →
     let f := lossFields body
     (f.operation ≠ 2 ∨ 16 ≤ f.extent ∨ f.blockCount = 0 →
       ∃ t : State, exec (.lossesRemove tag body) s = .next t ∧ s.Refuses t run tag .badField) ∧
     ∀ e : ExtentId, f.operation = 2 → f.extent = e.val → f.blockCount ≠ 0 →
       let x := s.extent e
       (x.condition = .unused →
         ∃ t : State, exec (.lossesRemove tag body) s = .next t ∧ s.Refuses t run tag .noExtent) ∧
       (x.condition ≠ .unused →
         f.firstBlock < x.arrayStart ∨ x.arrayLimit < f.firstBlock + f.blockCount - 1 →
         ∃ t : State, exec (.lossesRemove tag body) s = .next t ∧ s.Refuses t run tag .outOfRange) ∧
       (x.condition ≠ .unused → x.arrayStart ≤ f.firstBlock → f.firstBlock + f.blockCount - 1 ≤ x.arrayLimit →
         let out := removeLosses x.arrayLimit e f.firstBlock (f.firstBlock + f.blockCount - 1) s.losses.entries.length
           s.losses.entries
         ∃ t : State, exec (.lossesRemove tag body) s = .next t ∧
           t.losses = { s.losses with entries := out.entries, kept := s.losses.kept + BitVec.ofNat 32 out.kept } ∧
           t.ports = s.ports ∧ t.extents = s.extents ∧ s.SameWork t ∧ s.SameJobs t ∧ s.SamePacing t ∧
           t.pending = s.pending ∧
           (0 < out.deleted + out.shortened + out.split + out.kept → s.Publishes t) ∧
           (out.deleted + out.shortened + out.split + out.kept = 0 → s.Silent t) ∧
           s.AnswersAtOnce t run tag
             { slip := run.slip, status := if 0 < out.kept then .lossKept else .good, reason := .none,
               body := [field8 (lossBlocks s.arrayLimits s.losses.entries - lossBlocks s.arrayLimits out.entries),
                 field2 out.deleted, field2 out.shortened, field2 out.split, field2 out.entries.length,
                 field4 s.losses.coarsenings.toNat, field4 t.losses.kept.toNat] })) ∧
  ((∀ (s : State) (run : SweepRun) (tag : BitVec 64) (body : SlipBody), s.AtRest → s.sweepAt .slipRead = some run →
     let f := lossFields body
     let ok := f.operation = 0 ∧ (f.extent < 16 ∨ f.extent = 255) ∧ 1 ≤ f.recordCount ∧ f.recordCount ≤ 512 ∧ f.buffer % 4096 = 0 ∧
       f.buffer + f.recordCount * 16 - 1 < 2 ^ 64
     (¬ ok → ∃ t : State, exec (.lossesExport tag body) s = .next t ∧ s.Refuses t run tag .badField) ∧
     (ok →
       let chosen := s.losses.entries.filter fun e =>
         (f.extent = 255 ∨ f.extent = e.extent.val) ∧
           (f.startExtent < e.extent.val ∨ (f.startExtent = e.extent.val ∧ f.startBlock ≤ e.first))
       ∃ t : State, exec (.lossesExport tag body) s = .next t ∧
         t.losses = { s.losses with transfers := s.losses.transfers ++
           [{ slip := run.slip, buffer := f.buffer,
              work := .exporting (chosen.take f.recordCount) (chosen.length - f.recordCount) chosen[f.recordCount]?
                s.losses.entries.length s.losses.coarsenings.toNat s.losses.kept.toNat }] } ∧
         t.ports = s.ports ∧ t.extents = s.extents ∧ s.SameWork t ∧ s.SameJobs t ∧ s.SamePacing t ∧
         t.pending = s.pending ∧ s.KeepsSlip t run tag none ∧ s.Silent t)) ∧
   ∀ (s : State) (slip : SlipId) (x : Transfer) (fault : Bool) (copy : List LossEntry) (unfit : Nat)
     (next : Option LossEntry) (held coarsenings kept : Nat), s.AtRest →
     s.losses.transfers.find? (fun y => y.slip == slip) = some x →
     x.work = .exporting copy unfit next held coarsenings kept →
     ∃ t : State, exec (.exportEnd slip fault) s = .next t ∧
       t.losses = { s.losses with transfers := s.losses.transfers.filter fun y => y.slip ≠ slip } ∧
       s.Answers t [{ slip := slip, status := if fault then .refused else .good,
                      reason := if fault then .bufferFault else .none,
                      body := if fault then [] else
                       [field2 copy.length, field2 unfit, fieldOption 1 (next.map fun e => e.extent.val),
                        fieldOption 8 (next.map LossEntry.first), field2 held, field4 coarsenings, field4 kept] }] ∧
       t.ports = s.ports ∧ t.extents = s.extents ∧ s.SameWork t ∧ s.SameJobs t ∧ s.SamePacing t ∧
       t.pending = s.pending ∧ s.SameRegisters t ∧ s.SameSweep t ∧ s.Silent t ∧ s.AnswerBegins t)

/-- LOSSES_IMPORT and IMPORT_COMPLETION (R134, R136, R154): the checks at the hand-over; at completion a buffer fault,
an extent that is now UNUSED, a record that is unsound and a record out of range are refused in that order, with the
number of the first record that failed, in 2 bytes (log 57), and nothing is inserted; otherwise every record is inserted
by R130 in buffer order, with origin IMPORT and the tick counter as stamp, in one event, and the GOOD answer counts the
records, the blocks that joined the list and the coarsenings. What IMPORT takes of the record
that EXPORT writes for an entry is its extent, its first array block, its reach and, when COUNTED, its count. -/
def Obligations.LossesImported : Prop :=
  ((∀ (s : State) (run : SweepRun) (tag : BitVec 64) (body : SlipBody), s.AtRest → s.sweepAt .slipRead = some run →
     let f := lossFields body
     let ok := f.operation = 1 ∧ f.extent < 16 ∧ 1 ≤ f.recordCount ∧ f.recordCount ≤ 512 ∧ f.buffer % 4096 = 0 ∧
       f.buffer + f.recordCount * 16 - 1 < 2 ^ 64
     (¬ ok → ∃ t : State, exec (.lossesImport tag body) s = .next t ∧ s.Refuses t run tag .badField) ∧
     (ok → ∀ e : ExtentId, f.extent = e.val →
       ((s.extent e).condition = .unused →
         ∃ t : State, exec (.lossesImport tag body) s = .next t ∧ s.Refuses t run tag .noExtent) ∧
       ((s.extent e).condition ≠ .unused →
         ∃ t : State, exec (.lossesImport tag body) s = .next t ∧
           t.losses = { s.losses with transfers := s.losses.transfers ++
             [{ slip := run.slip, buffer := f.buffer, work := .importing e f.recordCount }] } ∧
           t.ports = s.ports ∧ t.extents = s.extents ∧ s.SameWork t ∧ s.SameJobs t ∧ s.SamePacing t ∧
           t.pending = s.pending ∧ s.KeepsSlip t run tag none ∧ s.Silent t))) ∧
   ∀ (s : State) (slip : SlipId) (x : Transfer) (e : ExtentId) (records : Option (List RecordBytes)) (count : Nat),
     s.AtRest → s.losses.transfers.find? (fun y => y.slip == slip) = some x → x.work = .importing e count →
     let rest := s.losses.transfers.filter fun y => y.slip ≠ slip
     let refused := fun reason body => ∃ t : State, exec (.importCompletion slip records) s = .next t ∧
       t.losses = { s.losses with transfers := rest } ∧
       s.Answers t [{ slip := slip, status := .refused, reason := reason, body := body }] ∧ t.ports = s.ports ∧
       t.extents = s.extents ∧ s.SameWork t ∧ s.SameJobs t ∧ s.SamePacing t ∧ t.pending = s.pending ∧
       s.SameRegisters t ∧ s.SameSweep t ∧ s.Silent t ∧ s.AnswerBegins t
     let sound := fun r : RecordFields => r.extent = e.val ∧
       (r.reach = 1 ∨ (r.reach = 0 ∧ 1 ≤ r.count ∧ r.count < 2 ^ 32))
     let inRange := fun r : RecordFields => (s.extent e).arrayStart ≤ r.first ∧ r.first ≤ (s.extent e).arrayLimit ∧
       (r.reach = 1 ∨ r.first + r.count - 1 ≤ (s.extent e).arrayLimit)
     (records = none → refused .bufferFault []) ∧
     ∀ rs, records = some rs → rs.length = count →
       ((s.extent e).condition = .unused → refused .noExtent []) ∧
       ((s.extent e).condition ≠ .unused →
         (∀ (k : Nat) (r : RecordFields), (rs.map recordFields)[k]? = some r → ¬ sound r →
           (∀ q ∈ (rs.map recordFields).take k, sound q) → refused .badField [field2 k]) ∧
         ((∀ r ∈ rs.map recordFields, sound r) →
           (∀ (k : Nat) (r : RecordFields), (rs.map recordFields)[k]? = some r → ¬ inRange r →
             (∀ q ∈ (rs.map recordFields).take k, inRange q) → refused .outOfRange [field2 k]) ∧
           ((∀ r ∈ rs.map recordFields, inRange r) →
             ∃ t : State, exec (.importCompletion slip records) s = .next t ∧
               -- the entries, and the coarsenings that the insertions made
               let made := (rs.map recordFields).foldl (fun acc r =>
                 let out := insertLoss s.time.tick s.arrayLimits
                   { extent := e, first := r.first, toEnd := r.reach == 1, count := if r.reach = 1 then 0 else r.count,
                     origin := .imported, stamp := s.time.tick } acc.1
                 (out.1, acc.2 + out.2)) (s.losses.entries, 0)
               t.losses.entries = made.1 ∧
               t.losses.coarsenings = s.losses.coarsenings + BitVec.ofNat 32 made.2 ∧ t.losses.kept = s.losses.kept ∧ t.losses.transfers = rest ∧
               (t.losses.entries ≠ s.losses.entries → s.Publishes t) ∧
               (t.losses.entries = s.losses.entries → s.Silent t) ∧
               s.Answers t
                 [{ slip := slip, status := .good, reason := .none,
                    body := [field2 count,
                      field8 (lossBlocks s.arrayLimits made.1 - lossBlocks s.arrayLimits s.losses.entries),
                      field4 (BitVec.ofNat 32 made.2).toNat, field2 made.1.length,
                      field4 t.losses.coarsenings.toNat, field4 t.losses.kept.toNat] }] ∧
               t.ports = s.ports ∧ t.extents = s.extents ∧ s.SameWork t ∧ s.SameJobs t ∧ s.SamePacing t ∧
               t.pending = s.pending ∧ s.SameRegisters t ∧ s.SameSweep t ∧ s.AnswerBegins t)))) ∧
  (∀ e : LossEntry, e.first < 2 ^ 40 → e.count < 2 ^ 32 →
     (recordBytes e).length = 16 ∧
     recordFields (recordBytes e) =
       { extent := e.extent.val, first := e.first, reach := if e.toEnd then 1 else 0,
         count := if e.toEnd then 0 else e.count })

/-! ## Member ports -/

/-- LINK_UP and LINK_DOWN (R36, R35): LINK_UP records the link and changes no member state. LINK_DOWN makes an ONLINE or
TARGET member FAILED and a SPARE or RELEASED one ABSENT, leaves ABSENT and FAILED, ends every request on the port, its
owner, if it goes on, having the ending in link loss, and has the condition of the extent that lists the port recomputed.
Both publish. -/
def Obligations.LinkEvents : Prop :=
  ∀ (s : State) (p : PortId), s.AtRest →
    (∃ t : State, exec (.linkUp p) s = .next t ∧ t.port p = { s.port p with link := .up } ∧
      (∀ q, q ≠ p → t.port q = s.port q) ∧ t.extents = s.extents ∧ t.losses = s.losses ∧ s.SameWork t ∧
      s.SameJobs t ∧ s.SamePacing t ∧ t.pending = s.pending ∧ s.SameRegisters t ∧ s.SameSweep t ∧ s.Answers t [] ∧
      s.Publishes t ∧ s.AnswerBegins t) ∧
    ((s.port p).legal →
      ∃ t : State, exec (.linkDown p) s = .next t ∧
        (t.port p).memberState =
          (match (s.port p).memberState with
            | .online | .target | .failed => .failed
            | .spare | .released | .absent => .absent) ∧
        (t.port p).link = .down ∧ (t.port p).stalled = false ∧ (t.port p).lapseCount = 0 ∧
        (t.port p).slots = Vector.replicate 8 none ∧ (t.port p).waiting = [] ∧
        (∀ r ∈ (s.port p).waiting, t.Told p r .linkLost) ∧
        (∀ (i : Tag) o, (s.port p).slots[i.val] = some o → t.Told p o.request .linkLost) ∧
        (t.port p).issueNumber = (s.port p).issueNumber ∧
        (∀ q, q ≠ p → (s.port q).SameMember (t.port q)) ∧
        (∀ e, s.extentOfPort p = some e → (s.port p).memberState = .online ∨ (s.port p).memberState = .target →
          (t.extent e).condition = t.conditionOf e) ∧
        (∀ e, s.extentOfPort p ≠ some e → t.extent e = s.extent e) ∧
        t.losses = s.losses ∧ s.SamePacing t ∧ t.pending = s.pending ∧ s.SameRegisters t ∧ s.SameSweep t ∧
        s.Publishes t)

/-- DRIVE_REPLY on a member that is not stalled (R20, R21, R29, R30, R33, R70). A late reply reaches no row operation; it
is counted. A GOOD or UNREADABLE reply to the outstanding READ of a row operation frees the slot and puts the contents in
the frame of the read's position, at the offsets of the read that it does not report unreadable and nowhere else; the
blocks reported unreadable are counted. A GOOD reply to a WRITE counts its repaired blocks and submits the operation's
next run for the port, or none is left for it; on a member neither ONLINE nor TARGET nothing more is written. A GOOD or
UNREADABLE reply to a PROBE frees the slot and reaches nobody. Each sets the lapse count of an ONLINE or TARGET member to
0. A reply is normalised first; which of the first two bullets of R20 comes first for a WRITE is the model's reading (log
20), as is what becomes of contents missing or past the run (log 50). -/
def Obligations.RepliesTaken : Prop :=
  (∀ (s : State) (p : PortId) (reply : Reply), s.AtRest →
     (∀ o, (s.port p).slots[reply.tag.val] = some o → o.issue ≠ reply.issue) → (s.port p).stalled = false →
     ∃ t : State, exec (.driveReply p reply) s = .next t ∧
       t.port p =
         { s.port p with
           lateReplies := (s.port p).lateReplies + 1
           lapseCount :=
             if (s.port p).memberState = .online ∨ (s.port p).memberState = .target then 0
             else (s.port p).lapseCount } ∧
       (∀ q, q ≠ p → t.port q = s.port q) ∧ t.extents = s.extents ∧ t.losses = s.losses ∧ s.SameWork t ∧
       s.SameJobs t ∧ s.SamePacing t ∧ t.pending = s.pending ∧ s.SameRegisters t ∧ s.SameSweep t ∧ s.Answers t [] ∧
       s.Silent t ∧ s.AnswerBegins t) ∧
  (∀ (s : State) (p : PortId) (reply : Reply) (o : Outstanding) (c : ContextId) (op : Operation)
     (offsets : List Nat) (contents : List Block), s.AtRest →
     (s.port p).slots[reply.tag.val] = some o → o.issue = reply.issue → o.request.kind = .read →
     o.request.owner = some c → s.context c = some op → (s.port p).stalled = false →
     (reply.outcome = .good contents ∧ offsets = []) ∨ reply.outcome = .unreadable offsets contents →
     let bad := (offsets.filter fun x => decide (x < o.request.count)).dedup
     ∃ (t : State) (op' : Operation), exec (.driveReply p reply) s = .next t ∧
       t.port p =
         { s.port p with
           slots := (s.port p).slots.set reply.tag.val none reply.tag.isLt
           unreadableBlocks := (s.port p).unreadableBlocks + BitVec.ofNat 32 bad.length
           lapseCount :=
             if (s.port p).memberState = .online ∨ (s.port p).memberState = .target then 0
             else (s.port p).lapseCount } ∧
       (∀ q, q ≠ p → t.port q = s.port q) ∧
       t.context c = some op' ∧ (∀ d, d ≠ c → t.context d = s.context d) ∧
       t.rows = { s.rows with contexts := t.rows.contexts } ∧
       op' = { op with
         frames := op'.frames
         results := op.results ++
           [{ position := o.request.position, port := p, first := o.request.offset, count := o.request.count,
              ending := if bad = [] then .good else .unreadable (bad.map fun x => o.request.offset + x) }] } ∧
       op'.frames.length = op.frames.length ∧
       (∀ (k : Nat) (f g : Frame), op.frames[k]? = some f → op'.frames[k]? = some g → g.position = f.position ∧
         ∀ i : Fin 16, g.blocks[i.val] =
           if f.position = o.request.position ∧ o.request.offset ≤ i.val ∧
               i.val < o.request.offset + o.request.count ∧ i.val - o.request.offset ∉ bad then
             (contents[i.val - o.request.offset]?).getD f.blocks[i.val]
           else f.blocks[i.val]) ∧
       t.extents = s.extents ∧ t.losses = s.losses ∧ t.solver = s.solver ∧ t.holds = s.holds ∧
       t.requests = s.requests ∧ s.SameJobs t ∧ s.SamePacing t ∧ t.pending = s.pending ∧ s.SameRegisters t ∧
       s.SameSweep t ∧ s.Answers t [] ∧ s.Silent t ∧ s.AnswerBegins t) ∧
  (∀ (s : State) (p : PortId) (reply : Reply) (o : Outstanding) (c : ContextId) (op : Operation)
     (contents : List Block), s.AtRest →
     (s.port p).slots[reply.tag.val] = some o → o.issue = reply.issue → o.request.kind = .write →
     o.request.owner = some c → s.context c = some op → reply.outcome = .good contents →
     (s.port p).memberState = .online ∨ (s.port p).memberState = .target → (s.port p).stalled = false →
     let repaired := if o.request.repair then o.request.count else 0
     let runs := ((op.writesLeft.find? fun w => w.port == p).map PortRuns.runs).getD []
     ∃ t : State, exec (.driveReply p reply) s = .next t ∧
       t.port p =
         { s.port p with
           slots := (s.port p).slots.set reply.tag.val none reply.tag.isLt
           repairs := (s.port p).repairs + BitVec.ofNat 32 repaired
           lapseCount := 0
           waiting := (s.port p).waiting ++ runs.head?.toList.map (s.writeRequest c op) } ∧
       (∀ q, q ≠ p → t.port q = s.port q) ∧
       t.context c = some { op with
         tallies := { op.tallies with repairs := op.tallies.repairs + repaired }
         writesLeft :=
           if runs = [] then op.writesLeft.filter fun w => w.port ≠ p
           else op.writesLeft.map fun w => if w.port = p then { w with runs := runs.tail } else w } ∧
       (∀ d, d ≠ c → t.context d = s.context d) ∧ t.rows = { s.rows with contexts := t.rows.contexts } ∧
       t.extents = s.extents ∧ t.losses = s.losses ∧ t.solver = s.solver ∧ t.holds = s.holds ∧
       t.requests = s.requests ∧ s.SameJobs t ∧ s.SamePacing t ∧ t.pending = s.pending ∧ s.SameRegisters t ∧
       s.SameSweep t ∧ s.Answers t [] ∧ s.Silent t ∧ s.AnswerBegins t) ∧
  (∀ (s : State) (p : PortId) (reply : Reply) (o : Outstanding) (c : ContextId) (op : Operation)
     (contents : List Block), s.AtRest →
     (s.port p).slots[reply.tag.val] = some o → o.issue = reply.issue → o.request.kind = .write →
     o.request.owner = some c → s.context c = some op → reply.outcome = .good contents →
     (s.port p).memberState ≠ .online → (s.port p).memberState ≠ .target →
     let repaired := if o.request.repair then o.request.count else 0
     ∃ t : State, exec (.driveReply p reply) s = .next t ∧
       t.port p =
         { s.port p with
           slots := (s.port p).slots.set reply.tag.val none reply.tag.isLt
           repairs := (s.port p).repairs + BitVec.ofNat 32 repaired } ∧
       (∀ q, q ≠ p → t.port q = s.port q) ∧
       t.context c = some { op with
         tallies := { op.tallies with repairs := op.tallies.repairs + repaired }
         writesLeft := op.writesLeft.filter fun w => w.port ≠ p } ∧
       (∀ d, d ≠ c → t.context d = s.context d) ∧ t.rows = { s.rows with contexts := t.rows.contexts } ∧
       t.extents = s.extents ∧ t.losses = s.losses ∧ t.solver = s.solver ∧ t.holds = s.holds ∧
       t.requests = s.requests ∧ s.SameJobs t ∧ s.SamePacing t ∧ t.pending = s.pending ∧ s.SameRegisters t ∧
       s.SameSweep t ∧ s.Answers t [] ∧ s.Silent t ∧ s.AnswerBegins t) ∧
  (∀ (s : State) (p : PortId) (reply : Reply) (o : Outstanding) (offsets : List Nat) (contents : List Block), s.AtRest →
     (s.port p).slots[reply.tag.val] = some o → o.issue = reply.issue → o.request.kind = .probe →
     (s.port p).stalled = false →
     (reply.outcome = .good contents ∧ offsets = []) ∨ reply.outcome = .unreadable offsets contents →
     ∃ t : State, exec (.driveReply p reply) s = .next t ∧
       t.port p =
         { s.port p with
           slots := (s.port p).slots.set reply.tag.val none reply.tag.isLt
           unreadableBlocks := (s.port p).unreadableBlocks +
             BitVec.ofNat 32 (offsets.filter fun x => decide (x < o.request.count)).dedup.length
           lapseCount :=
             if (s.port p).memberState = .online ∨ (s.port p).memberState = .target then 0
             else (s.port p).lapseCount } ∧
       (∀ q, q ≠ p → t.port q = s.port q) ∧ t.extents = s.extents ∧ t.losses = s.losses ∧ s.SameWork t ∧
       s.SameJobs t ∧ s.SamePacing t ∧ t.pending = s.pending ∧ s.SameRegisters t ∧ s.SameSweep t ∧ s.Answers t [] ∧
       s.Silent t ∧ s.AnswerBegins t) ∧
  (∀ (kind : RequestKind) (count : Nat),
     (∀ contents, normalise kind count (.good contents) = .good contents) ∧
     normalise kind count .notReady = .notReady ∧
     normalise kind count .writeFault = (if kind = .write then .writeFault else .notReady) ∧
     ∀ offsets contents,
       ((∀ o ∈ offsets, count ≤ o) → normalise kind count (.unreadable offsets contents) = .good contents) ∧
       ((∃ o ∈ offsets, o < count) → kind = .write →
         normalise kind count (.unreadable offsets contents) = .writeFault) ∧
       ((∃ o ∈ offsets, o < count) → kind ≠ .write →
         ∃ kept, normalise kind count (.unreadable offsets contents) = .unreadable kept contents ∧ kept.Nodup ∧
           ∀ o, o ∈ kept ↔ o ∈ offsets ∧ o < count))

/-- Requests that end without being carried out (R28 to R32, R34, R35): LAPSE once a request's ticks left is 0, and not
before, and a reply that comes to NOT_READY or WRITE_FAULT. The slot is freed, a lapse is counted, and the READ of a row
operation reaches its owner as it ended. On a member neither ONLINE nor TARGET nothing more comes of it. On one that is,
a READ or PROBE adds to the lapse count: below the stall limit the member is stalled, and where no other probe is
outstanding a probe of the block that began the stall takes the slot. At the stall limit, and for a WRITE at once, the
member is FAILED, with its stall cleared and every other request on it ended in link loss, as its owner learns. -/
def Obligations.UnansweredRequests : Prop :=
  (∀ (s : State) (p : PortId) (slot : Tag) (o : Outstanding) (cmd : Instr) (ending : Ending), s.AtRest →
    (s.port p).slots[slot.val] = some o →
    (cmd = .lapse p slot ∧ o.ticksLeft = 0 ∧ ending = .lapsed) ∨
      (∃ reply, cmd = .driveReply p reply ∧ reply.tag = slot ∧ reply.issue = o.issue ∧
        ((normalise o.request.kind o.request.count reply.outcome = .notReady ∧ ending = .notReady) ∨
          (normalise o.request.kind o.request.count reply.outcome = .writeFault ∧ ending = .writeFault))) →
    let x := s.port p
    let carries := x.memberState = .online ∨ x.memberState = .target
    let fails := o.request.kind = .write ∨ s.settings.stallLimit ≤ x.lapseCount + 1
    let lapses := if ending = .lapsed then x.lapses + 1 else x.lapses
    let told := fun t : State => ∀ d, t.context d = (s.context d).map fun op =>
      if o.request.kind = .read ∧ o.request.owner = some d then
        { op with results := op.results ++
          [{ position := o.request.position, port := p, first := o.request.offset, count := o.request.count,
             ending := ending }] }
      else if o.request.kind = .write ∧ o.request.owner = some d then
        { op with writesLeft := op.writesLeft.filter fun w => w.port ≠ p }
      else op
    (¬ carries →
      ∃ t : State, exec cmd s = .next t ∧
        t.port p = { x with slots := x.slots.set slot.val none slot.isLt, lapses := lapses } ∧
        (∀ q, q ≠ p → t.port q = s.port q) ∧ told t ∧ t.rows = { s.rows with contexts := t.rows.contexts } ∧
        t.extents = s.extents ∧ t.losses = s.losses ∧ t.solver = s.solver ∧ t.holds = s.holds ∧
        t.requests = s.requests ∧ s.SameJobs t ∧ s.SamePacing t ∧ t.pending = s.pending ∧ s.SameRegisters t ∧
        s.SameSweep t ∧ s.Answers t [] ∧ s.Silent t ∧ s.AnswerBegins t) ∧
    (carries → ¬ fails →
      let probed := ∃ i : Tag, i ≠ slot ∧ ∃ y, x.slots[i.val] = some y ∧ y.request.kind = .probe
      let block := if x.stalled then x.stallBlock else o.request.memberBlock
      ∃ t : State, exec cmd s = .next t ∧
        (t.port p).memberState = x.memberState ∧ (t.port p).stalled = true ∧
        (t.port p).lapseCount = x.lapseCount + 1 ∧ (t.port p).lapses = lapses ∧
        (t.port p).waiting = x.waiting ∧
        (∀ i : Tag, i ≠ slot → (t.port p).slots[i.val] = x.slots[i.val]) ∧
        (probed → (t.port p).slots[slot.val] = none ∧ (t.port p).probes = x.probes ∧
          (t.port p).issueNumber = x.issueNumber) ∧
        (¬ probed → (∃ y, (t.port p).slots[slot.val] = some y ∧ y.request.kind = .probe ∧
            y.request.memberBlock = block ∧ y.request.count = 1 ∧ y.issue = x.issueNumber ∧
            y.ticksLeft = s.settings.memberTimeout) ∧
          (t.port p).probes = x.probes + 1 ∧ (t.port p).issueNumber = x.issueNumber + 1) ∧
        (∀ q, q ≠ p → t.port q = s.port q) ∧ told t ∧
        t.rows = { s.rows with contexts := t.rows.contexts } ∧ t.extents = s.extents ∧ t.losses = s.losses ∧
        t.solver = s.solver ∧ t.holds = s.holds ∧ t.requests = s.requests ∧ s.SameJobs t ∧ s.SamePacing t ∧
        t.pending = s.pending ∧ s.SameRegisters t ∧ s.SameSweep t ∧ s.Answers t [] ∧
        (x.stalled = false → s.Publishes t) ∧ (x.stalled = true → s.Silent t) ∧ s.AnswerBegins t) ∧
    (carries → fails →
      ∃ t : State, exec cmd s = .next t ∧
        (t.port p).memberState = .failed ∧ (t.port p).stalled = false ∧ (t.port p).lapseCount = 0 ∧
        (t.port p).slots = Vector.replicate 8 none ∧ (t.port p).waiting = [] ∧ (t.port p).link = x.link ∧
        (t.port p).lapses = lapses ∧ (t.port p).probes = x.probes ∧ (t.port p).issueNumber = x.issueNumber ∧
        t.Told p o.request ending ∧ (∀ r ∈ x.waiting, t.Told p r .linkLost) ∧
        (∀ (i : Tag) y, i ≠ slot → x.slots[i.val] = some y → t.Told p y.request .linkLost) ∧
        (∀ q, q ≠ p → (s.port q).SameMember (t.port q)) ∧
        (∀ e, s.extentOfPort p = some e → (t.extent e).condition = t.conditionOf e) ∧
        (∀ e, s.extentOfPort p ≠ some e → t.extent e = s.extent e) ∧ t.losses = s.losses ∧ s.SamePacing t ∧
        t.pending = s.pending ∧ s.SameRegisters t ∧ s.SameSweep t ∧ s.Publishes t)) ∧
  ∀ (s : State) (p : PortId) (slot : Tag) (o : Outstanding),
    (s.port p).slots[slot.val] = some o → 0 < o.ticksLeft → exec (.lapse p slot) s = .next s

/-- The end of a stall (R32, R33, R68): on a stalled ONLINE or TARGET member, a late reply, whatever it carries, and a
reply that comes to GOOD or UNREADABLE, to a probe as to any other request, clear the stall and the lapse count; the owner
of a READ takes its ending and its contents, and that of a WRITE has its repaired blocks counted and its next run for the
port pending or issued, as without a stall; no other operation changes but by waking. The change is published, every
operation that waits for the port wakes, and the arbiter issues, in the same step by the model's reading (log 40), until
nothing more may be issued, no pending request being lost. That a next run joins the pending list before that is the
model's choice (log 61), of which this says nothing. -/
def Obligations.StallsClear : Prop :=
  ∀ (s : State) (p : PortId) (reply : Reply), s.AtRest → (s.port p).stalled = true →
    (s.port p).memberState = .online ∨ (s.port p).memberState = .target →
    (∀ o, (s.port p).slots[reply.tag.val] = some o → o.issue = reply.issue →
      normalise o.request.kind o.request.count reply.outcome ≠ .notReady ∧
        normalise o.request.kind o.request.count reply.outcome ≠ .writeFault) →
    let late := ∀ o, (s.port p).slots[reply.tag.val] = some o → o.issue ≠ reply.issue
    let named := fun o => (s.port p).slots[reply.tag.val] = some o ∧ o.issue = reply.issue
    ∃ t : State, exec (.driveReply p reply) s = .next t ∧
      (t.port p).memberState = (s.port p).memberState ∧ (t.port p).stalled = false ∧ (t.port p).lapseCount = 0 ∧
      (t.port p).link = (s.port p).link ∧ (t.port p).lapses = (s.port p).lapses ∧
      (t.port p).probes = (s.port p).probes ∧
      (late → (t.port p).lateReplies = (s.port p).lateReplies + 1 ∧
        (t.port p).unreadableBlocks = (s.port p).unreadableBlocks ∧ (t.port p).repairs = (s.port p).repairs) ∧
      (¬ late → (t.port p).lateReplies = (s.port p).lateReplies) ∧
      (∀ c op op', s.context c = some op → t.context c = some op' →
        (∀ o, named o → o.request.owner = some c → o.request.kind = .probe) → op' = { op with woken := op'.woken }) ∧
      (∀ o, named o → o.request.kind ≠ .write → ∀ offsets contents,
        (reply.outcome = .good contents ∧ offsets = []) ∨ reply.outcome = .unreadable offsets contents →
        let bad := (offsets.filter fun x => decide (x < o.request.count)).dedup
        (t.port p).unreadableBlocks = (s.port p).unreadableBlocks + BitVec.ofNat 32 bad.length ∧
        (t.port p).repairs = (s.port p).repairs ∧
        (o.request.kind = .read → ∀ c op op', o.request.owner = some c → s.context c = some op →
          t.context c = some op' →
          op' = { op with
            woken := op'.woken, frames := op'.frames
            results := op.results ++
              [{ position := o.request.position, port := p, first := o.request.offset, count := o.request.count,
                 ending := if bad = [] then .good else .unreadable (bad.map fun x => o.request.offset + x) }] } ∧
          op'.frames.length = op.frames.length ∧
          ∀ (k : Nat) (f g : Frame), op.frames[k]? = some f → op'.frames[k]? = some g → g.position = f.position ∧
            ∀ i : Fin 16, g.blocks[i.val] =
              if f.position = o.request.position ∧ o.request.offset ≤ i.val ∧
                  i.val < o.request.offset + o.request.count ∧ i.val - o.request.offset ∉ bad then
                (contents[i.val - o.request.offset]?).getD f.blocks[i.val]
              else f.blocks[i.val])) ∧
      (∀ o, named o → o.request.kind = .write →
        let repaired := if o.request.repair then o.request.count else 0
        (t.port p).unreadableBlocks = (s.port p).unreadableBlocks ∧
        (t.port p).repairs = (s.port p).repairs + BitVec.ofNat 32 repaired ∧
        ∀ c op op', o.request.owner = some c → s.context c = some op → t.context c = some op' →
          let runs := ((op.writesLeft.find? fun w => w.port == p).map PortRuns.runs).getD []
          op' = { op with
            woken := op'.woken
            tallies := { op.tallies with repairs := op.tallies.repairs + repaired }
            writesLeft :=
              if runs = [] then op.writesLeft.filter fun w => w.port ≠ p
              else op.writesLeft.map fun w => if w.port = p then { w with runs := runs.tail } else w } ∧
          ∀ run, runs.head? = some run → s.writeRequest c op run ∈ (t.port p).waiting ∨
            ∃ (i : Tag) (y : Outstanding), (t.port p).slots[i.val] = some y ∧ y.request = s.writeRequest c op run) ∧
      t.issueOne p = none ∧
      (∀ r ∈ (s.port p).waiting, r ∈ (t.port p).waiting ∨
        ∃ (i : Tag) (o : Outstanding), (t.port p).slots[i.val] = some o ∧ o.request = r) ∧
      (∀ i : Tag, (late ∨ i ≠ reply.tag) → ∀ o, (s.port p).slots[i.val] = some o →
        (t.port p).slots[i.val] = some o) ∧
      (∀ q, q ≠ p → t.port q = s.port q) ∧
      (∀ c op, s.context c = some op → ∃ op', t.context c = some op' ∧ op'.phase = op.phase ∧
        (op.phase = .awaitMember → p ∈ op.waitSet → op'.woken = true) ∧
        (op.phase ≠ .awaitMember ∨ p ∉ op.waitSet → op'.woken = op.woken)) ∧
      (∀ c, s.context c = none → t.context c = none) ∧ t.rows = { s.rows with contexts := t.rows.contexts } ∧
      t.extents = s.extents ∧ t.losses = s.losses ∧ t.solver = s.solver ∧ t.holds = s.holds ∧
      t.requests = s.requests ∧ s.SameJobs t ∧ s.SamePacing t ∧ t.pending = s.pending ∧ s.SameRegisters t ∧
      s.SameSweep t ∧ s.Answers t [] ∧ s.Publishes t ∧ s.AnswerBegins t

/-- REQUEST_ISSUE (R27): a stalled port, one with no free slot, and one with nothing that may be issued issue nothing.
Otherwise the oldest foreground request, or with none pending and fewer than 6 rebuild requests outstanding the oldest
rebuild request, leaves the pending list for the lowest free slot, with the issue number, which then rises, and the
member timeout. A WRITE carries the blocks of its run from its operation's frame of the position (R19), and no other
request carries any. -/
def Obligations.RequestIssues : Prop :=
  ∀ (s : State) (p : PortId), s.AtRest →
    let x := s.port p
    ((x.stalled = true ∨ (∀ i : Tag, x.slots[i.val] ≠ none) ∨
        ((∀ r ∈ x.waiting, r.cls ≠ .foreground) ∧
          ((∀ r ∈ x.waiting, r.cls ≠ .rebuild) ∨ 6 ≤ x.outstandingOf .rebuild))) →
      exec (.requestIssue p) s = .next s) ∧
    ∀ (slot : Tag) (before after : List Request) (r : Request), x.stalled = false →
      x.slots[slot.val] = none → (∀ i : Tag, i < slot → x.slots[i.val] ≠ none) → x.waiting = before ++ r :: after →
      (r.cls = .foreground ∧ (∀ q ∈ before, q.cls ≠ .foreground)) ∨
        (r.cls = .rebuild ∧ (∀ q ∈ x.waiting, q.cls ≠ .foreground) ∧ (∀ q ∈ before, q.cls ≠ .rebuild) ∧
          x.outstandingOf .rebuild < 6) →
      ∃ (t : State) (o : Outstanding), exec (.requestIssue p) s = .next t ∧
        o.request = r ∧ o.issue = x.issueNumber ∧ o.ticksLeft = s.settings.memberTimeout ∧
        (r.kind ≠ .write → o.contents = []) ∧
        (∀ c op f, r.kind = .write → r.owner = some c → s.context c = some op →
          op.frames.find? (fun y => y.position == r.position) = some f →
          o.contents.length = r.count ∧
            ∀ (i : Nat) (h : r.offset + i < 16), i < r.count → o.contents[i]? = some f.blocks[r.offset + i]) ∧
        t.port p =
          { x with
            waiting := before ++ after, issueNumber := x.issueNumber + 1
            slots := x.slots.set slot.val (some o) slot.isLt } ∧
        (∀ q, q ≠ p → t.port q = s.port q) ∧ t.extents = s.extents ∧ t.losses = s.losses ∧ s.SameWork t ∧
        s.SameJobs t ∧ s.SamePacing t ∧ t.pending = s.pending ∧ s.SameRegisters t ∧ s.SameSweep t ∧
        s.Answers t [] ∧ s.Silent t ∧ s.AnswerBegins t

/-! ## The row engine -/

/-- CONTEXT_GRANT and HOLD_GRANT (R60, R63, R110, R111, R113, R64): the first request that may be granted takes the lowest
free context and asks for its hold, or ends where its extent is LOST or its job drains after the loss of its last target;
rebuild-class requests are passed over while they hold 12 contexts. The operation granted its hold longest ago fixes its
target decision and plans. -/
def Obligations.ContextsAndHoldsGranted : Prop :=
  (∀ (s : State) (c : ContextId) (before after : List RowRequest) (r : RowRequest), s.AtRest →
    s.context c = none → (∀ d, d < c → s.context d ≠ none) → s.rows.contextWait = before ++ r :: after →
    r.kind ≠ .rebuildRow ∨ s.rebuildContextCount < 12 →
    (∀ q ∈ before, q.kind = .rebuildRow ∧ 12 ≤ s.rebuildContextCount) →
    (s.Passes r.operation →
      ∃ (t : State) (op : Operation), exec .contextGrant s = .next t ∧ t.context c = some op ∧
        op.kind = r.kind ∧ op.owner = r.owner ∧ op.extent = r.extent ∧ op.row = r.row ∧
        op.requested = r.requested ∧ op.countedBy = r.countedBy ∧ op.phase = .holdWait ∧ op.decision = none ∧
        op.frames = [] ∧ op.results = [] ∧ op.written = false ∧ op.lostSeen = false ∧ op.tallies = RowTallies.zero ∧
        (∀ d, d ≠ c → t.context d = s.context d) ∧ t.rows.contextWait = before ++ after ∧
        t.rows.frameWait = s.rows.frameWait ∧ t.rows.unsettled = s.rows.unsettled ∧
        t.holds = s.holds.request r.extent r.row c (if r.kind = .readRow then .shared else .sole) ∧
        s.SameArray t ∧ t.solver = s.solver ∧ t.requests = s.requests ∧ s.SameJobs t ∧ s.SamePacing t ∧
        t.pending = s.pending ∧ s.SameRegisters t ∧ s.SameSweep t ∧ s.Answers t [] ∧ s.Silent t ∧ s.AnswerBegins t) ∧
    let ends := fun outcome => ∃ t : State, exec .contextGrant s = .next t ∧
      s.OwnerTakes t r.operation outcome false false ∧ (∀ d, t.context d = s.context d) ∧
      t.rows.contextWait = s.rows.contextWait.filter (fun x => x ≠ r) ∧ t.rows.frameWait = s.rows.frameWait ∧
      t.rows.unsettled = s.rows.unsettled ∧ s.SameArray t ∧ t.holds = s.holds ∧ t.solver = s.solver ∧
      s.SamePacing t ∧ t.pending = s.pending ∧ s.SameRegisters t ∧ s.SameSweep t ∧ s.Answers t [] ∧ s.Silent t ∧
      s.AnswerBegins t
    (s.LosesRow r.operation → ends .extentLost) ∧
      (¬ s.LosesRow r.operation → s.LosesTarget r.operation → ends .targetLost)) ∧
  (∀ s : State,
    (∀ c, s.context c ≠ none) ∨ (∀ r ∈ s.rows.contextWait, r.kind = .rebuildRow ∧ 12 ≤ s.rebuildContextCount) →
    exec .contextGrant s = .next s) ∧
  (∀ (s : State) (c : ContextId) (rest : List ContextId) (op : Operation), s.AtRest → s.holds.granted = c :: rest →
    s.context c = some op →
    let decision := if op.kind = .writeRow ∨ op.kind = .resyncRow then
        some (match s.jobOn op.extent with
          | none => []
          | some j =>
            if op.row < (s.job j).frontier ∨ op.row ∈ (s.job j).window then
              (s.job j).sources.map fun x => (x.position, x.target)
            else [])
      else op.decision
    ∃ t : State, exec .holdGrant s = .next t ∧ s.PlanTaken t c { op with decision := decision } ∧
      ((∀ o, s.makePlan { op with decision := decision } ≠ .ended o) →
        t.holds = { s.holds with granted := rest } ∧ s.SameJobs t ∧ t.requests = s.requests ∧ t.solver = s.solver)) ∧
  ∀ s : State, s.holds.granted = [] → exec .holdGrant s = .next s

/-- What a plan holds, by the kind of the operation (R64, R72, R73, R75, R77, R79, R61, R63): the boundary tests, then a
RESYNC_ROW's SKIPPED; AWAIT_MEMBER with exactly the stalled ports that the plan would write to; or a plan with the positions
unavailable, the listed blocks, the outputs (State.Produces), for each position that it calls on and that is available one
READ at the serving port over the span of the blocks called on (State.ReadsFor, and with what is carried State.ReadsAgain),
the reserved Q frame, and a frame for each of these positions; so a READ_ROW that serves no block reads, produces and
reserves nothing. And where the writes of an operation go (State.Writes): each port and position once, with the offsets in
order, in runs as long as consecutive offsets allow that are each of one repair mark, set where a read of the port itself
reported the block unreadable (R70). The model's readings and choices: what is carried (logs 10, 11), the one span of a
READ_ROW (log 12), the cut of a run where the mark changes (log 13), the writes of a REBUILD_ROW and of a WRITE_ROW whose
target has entered the list (logs 14, 37), that a widened copy row stays one (log 39), that a write port which receives
no block sends nothing to AWAIT_MEMBER (log 62), and that a widened copy row repairs its survivors (log 63). A job has no
target any more once it has lost its last one (log 71). -/
def Obligations.PlansByKind : Prop :=
  (∀ (s : State) (op : Operation), (s.extent op.extent).legal → (∀ w ∈ op.carried, 1 ≤ w.count) →
    let e := s.extent op.extent
    let port := fun p => s.servingPort op.extent p op.row
    let skips := op.kind = .resyncRow ∧ ∃ p ∈ e.dataPositions op.row, port p = none
    let waits := fun q => op.kind ≠ .readRow ∧ (s.port q).stalled = true ∧
      ∃ p i, s.Writes { op with results := [], closed := [], record := [] } q p i
    let calls := fun p i => s.ReadsFor op p i ∨ s.ReadsAgain op p i
    (s.LosesRow op → s.makePlan op = .ended .extentLost) ∧
    (¬ s.LosesRow op → s.LosesTarget op → s.makePlan op = .ended .targetLost) ∧
    (s.Passes op →
      (skips → s.makePlan op = .ended .skipped) ∧
      (¬ skips → (∃ q, waits q) →
        ∃ ports, s.makePlan op = .await ports ∧ ports.Nodup ∧ ∀ q, q ∈ ports ↔ waits q) ∧
      (¬ skips → (∀ q, ¬ waits q) →
        ∃ plan, s.makePlan op = .ready plan ∧
          (∀ p, p ∈ plan.unavailable ↔ p < e.memberCount ∧ port p = none) ∧
          (plan.copy = true ↔ ∃ p, s.CopiesFrom op p) ∧
          (∀ p i, (p, i) ∈ plan.listed ↔ op.kind = .readRow ∧ s.AskedListed op p i) ∧
          (∀ p i, plan.outputAt i p = true ↔ s.Produces op p i) ∧ (∀ o ∈ plan.outputs, o.offsets ≠ []) ∧
          (plan.reads.map PlanRead.position).Nodup ∧
          (∀ p, (∃ r ∈ plan.reads, r.position = p) ↔ port p ≠ none ∧ ∃ i, calls p i) ∧
          (∀ r ∈ plan.reads, port r.position = some r.port ∧ 1 ≤ r.count ∧ calls r.position r.first ∧
            calls r.position (r.first + r.count - 1) ∧
            ∀ i, calls r.position i → r.first ≤ i ∧ i < r.first + r.count) ∧
          (∀ q, plan.reservedQ = some q ↔ e.qPosition (e.stripeOf op.row) = some q ∧ port q ≠ none ∧
            (∀ r ∈ plan.reads, r.position ≠ q) ∧ (∀ o ∈ plan.outputs, o.position ≠ q) ∧
            ¬ (plan.reads = [] ∧ plan.outputs = [])) ∧
          (∀ p, p ∈ plan.framePositions ↔ (∃ r ∈ plan.reads, r.position = p) ∨ (∃ o ∈ plan.outputs, o.position = p) ∨
            plan.reservedQ = some p) ∧
          plan.framePositions.Nodup ∧ plan.frameNeed = plan.framePositions.length))) ∧
  ∀ (s : State) (op : Operation), (s.extent op.extent).legal →
    (∀ q p i, (∃ d ∈ s.destinations op, d.1 = q ∧ d.2.1 = p ∧ i ∈ d.2.2) ↔ s.Writes op q p i) ∧
    (∀ d ∈ s.destinations op, d.2.2 ≠ [] ∧ d.2.2.Pairwise (· < ·) ∧
      let runs := op.runsFor d.1 d.2.1 d.2.2
      let unreadable := fun i =>
        ∃ r ∈ op.results, r.position = d.2.1 ∧ r.port = d.1 ∧ ∃ l, r.ending = .unreadable l ∧ i ∈ l
      (∀ i, i ∈ d.2.2 ↔ ∃ r ∈ runs, r.first ≤ i ∧ i < r.first + r.count) ∧
      (∀ r ∈ runs, r.position = d.2.1 ∧ 1 ≤ r.count ∧
        ∀ i, r.first ≤ i → i < r.first + r.count → (r.repair = true ↔ unreadable i)) ∧
      runs.Pairwise fun a b => a.first + a.count < b.first ∨ (a.first + a.count = b.first ∧ a.repair ≠ b.repair)) ∧
    ((s.destinations op).map fun d => (d.1, d.2.1)).Nodup

/-- The hold table (R110, R111, R112): a request for a row that no entry names, or for a row held SHARED that nobody waits for
by a READ_ROW, is granted; any other joins the tail of the waiters. A holder that leaves lets waiters in from the head:
a run of heads each compatible with the holders then left, and at least the head where none is left; the others keep
their places. So does a waiter that leaves as the head; one that leaves from behind the head lets nobody in. An entry left
with neither holder nor waiter leaves use, and those let in join the operations that are to plan, in order. -/
def Obligations.HoldsRequestedAndReleased : Prop :=
  (∀ (x : HoldTable) (e : ExtentId) (row : Nat) (c : ContextId) (want : HoldMode), x.legal →
    ((∀ h ∈ x.entries, ¬ (h.extent = e ∧ h.row = row)) →
      x.request e row c want =
        { entries := x.entries ++ [{ extent := e, row := row, mode := want, holders := [c], waiters := [] }]
          granted := x.granted ++ [c] }) ∧
    ∀ (before after : List HoldEntry) (h : HoldEntry), x.entries = before ++ h :: after → h.extent = e → h.row = row →
      x.request e row c want =
        if h.waiters = [] ∧ h.mode = .shared ∧ want = .shared then
          { entries := before ++ { h with holders := h.holders ++ [c] } :: after, granted := x.granted ++ [c] }
        else { x with entries := before ++ { h with waiters := h.waiters ++ [(c, want)] } :: after }) ∧
  (∀ (h : HoldEntry) (c : ContextId), c ∈ h.holders ∨ (h.waiters.head?.map Prod.fst) = some c →
    let left := h.holders.filter fun d => d ≠ c
    let rest := if c ∈ h.holders then h.waiters else h.waiters.tail
    ∃ n, n ≤ rest.length ∧ (h.leave c).2 = (rest.take n).map Prod.fst ∧
      (h.leave c).1 =
        { h with
          mode := (h.leave c).1.mode, holders := left ++ (rest.take n).map Prod.fst
          waiters := rest.drop n } ∧
      (left ≠ [] ∨ n = 0 → (h.leave c).1.mode = h.mode) ∧
      (left = [] → ∀ w, rest.head? = some w → 1 ≤ n ∧ (h.leave c).1.mode = w.2) ∧
      (left ≠ [] ∨ 2 ≤ n → ∀ w ∈ rest.take n, (h.leave c).1.mode = .shared ∧ w.2 = .shared) ∧
      ∀ w, rest[n]? = some w → ¬ ((h.leave c).1.mode = .shared ∧ w.2 = .shared)) ∧
  (∀ (h : HoldEntry) (c : ContextId), c ∉ h.holders → (h.waiters.head?.map Prod.fst) ≠ some c →
    h.leave c = ({ h with waiters := h.waiters.filter fun w => w.1 ≠ c }, [])) ∧
  ∀ (x : HoldTable) (c : ContextId),
    (x.leave c).entries =
      (x.entries.map fun h => (h.leave c).1).filter (fun h => decide (h.holders ≠ [] ∨ h.waiters ≠ [])) ∧
    (x.leave c).granted = (x.granted.filter fun d => d ≠ c) ++ x.entries.flatMap fun h => (h.leave c).2

/-- FRAME_GRANT and BUFFER_FETCH_END (R61, R62, R65, R80, R63, R117): the head of the frame wait list is granted its whole
need when that is free, and otherwise nothing is granted; it enters GATHER with a frame for each position of its plan, a
WRITE_ROW begins its fetch from the buffer places of its blocks, and each read goes to the pending list of its port, or
fails at once where that port's member is neither ONLINE nor TARGET. On an extent that is LOST, or with its job draining
after the loss of its last target, the head ends. A fetch ends with the new contents, or with a buffer fault. -/
def Obligations.FramesGranted : Prop :=
  (∀ (s : State) (c : ContextId) (rest : List ContextId) (op : Operation), s.AtRest → s.rows.frameWait = c :: rest →
    s.context c = some op →
    (s.Passes op →
      (s.framesFree < op.plan.frameNeed → exec .frameGrant s = .next s) ∧
      (op.plan.frameNeed ≤ s.framesFree →
        ∃ (t : State) (op' : Operation), exec .frameGrant s = .next t ∧ t.context c = some op' ∧
          op' = { op with
            phase := .gather, frames := op'.frames, results := s.readFailures op.plan.reads, fetched := none
            fetching := op.fetching || op.kind == .writeRow
            fetch := if op.kind = .writeRow then s.bufferPlaces op else op.fetch } ∧
          op'.frames.map Frame.position = op.plan.framePositions ∧ s.ReadsSubmitted t c op op.plan.reads ∧
          (∀ d, d ≠ c → t.context d = s.context d) ∧ t.rows.frameWait = rest ∧
          t.rows.contextWait = s.rows.contextWait ∧ t.rows.unsettled = s.rows.unsettled ∧ t.extents = s.extents ∧
          t.losses = s.losses ∧ t.solver = s.solver ∧ t.holds = s.holds ∧ t.requests = s.requests ∧
          s.SameJobs t ∧ s.SamePacing t ∧ t.pending = s.pending ∧ s.SameRegisters t ∧ s.SameSweep t ∧
          s.Answers t [] ∧ s.Silent t ∧ s.AnswerBegins t)) ∧
    (s.LosesRow op → ∃ t : State, exec .frameGrant s = .next t ∧ s.OperationFails t c op .extentLost) ∧
    (¬ s.LosesRow op → s.LosesTarget op →
      ∃ t : State, exec .frameGrant s = .next t ∧ s.OperationFails t c op .targetLost)) ∧
  (∀ s : State, s.rows.frameWait = [] → exec .frameGrant s = .next s) ∧
  (∀ (s : State) (c : ContextId) (op : Operation) (fetched : Option (List Block)), s.AtRest →
    s.context c = some op → op.fetching = true →
    let blocks := fun contents => (op.fetch.zip contents).map fun x =>
      ({ position := x.1.position, offset := x.1.offset, contents := x.2 } : NewBlock)
    ∃ t : State, exec (.bufferFetchEnd c fetched) s = .next t ∧
      t.context c = some { op with
        fetching := false, fetched := fetched.elim op.fetched fun contents => some (blocks contents)
        bufferFault := op.bufferFault || fetched.isNone } ∧
      (∀ d, d ≠ c → t.context d = s.context d) ∧ t.rows = { s.rows with contexts := t.rows.contexts } ∧
      s.SameArray t ∧ t.solver = s.solver ∧ t.holds = s.holds ∧ t.requests = s.requests ∧ s.SameJobs t ∧
      s.SamePacing t ∧ t.pending = s.pending ∧ s.SameRegisters t ∧ s.SameSweep t ∧ s.Answers t [] ∧ s.Silent t ∧
      s.AnswerBegins t) ∧
  ∀ (s : State) (c : ContextId) (fetched : Option (List Block)),
    (∀ op, s.context c = some op → op.fetching = false) → exec (.bufferFetchEnd c fetched) s = .next s

/-- What the evaluation of a row finds (R45, R66, R67, R69, R11, R12, R52, R72, R76), in the terms of Safety.lean: which
position is erased at an offset and which read has failed; which offsets are unsolvable; when a row is placed as it was
read; for each position the run of blocks that are called on and were not read; the positions without a frame that a
re-plan names; the stalled ports that count; which port serves a position; which blocks the solver is asked for; and what a
READ_ROW delivers to each buffer place. The model's readings and choices in these terms: a copy row read GOOD goes on
(log 9), what is called on and named where an offset is about to be closed (log 10), a position unavailable at the plan
stays erased in it (log 41), a called-on position is named though it has become unavailable (log 51), the repairs of a
widened copy row (log 63), and that a job which has lost its last target has none (log 71). -/
def Obligations.EvaluationSays : Prop :=
  (∀ (s : State) (op : Operation), (s.extent op.extent).legal →
    let e := s.extent op.extent
    let stripe := e.stripeOf op.row
    let parity := fun p => e.pPosition stripe = p ∨ e.qPosition stripe = some p
    let spans := fun (l : List ReadWant) (which : Nat → Nat → Prop) =>
      (l.map ReadWant.position).Nodup ∧ (∀ p, (∃ w ∈ l, w.position = p) ↔ ∃ i, which p i) ∧
        ∀ w ∈ l, 1 ≤ w.count ∧ which w.position w.first ∧ which w.position (w.first + w.count - 1) ∧
          ∀ i, which w.position i → w.first ≤ i ∧ i < w.first + w.count
    (∀ p i, i < 16 → (op.erased i p = true ↔ op.InErasureSet p i)) ∧
    (∀ p, op.failedAt p = true ↔ op.ReadFailed p) ∧
    (∀ i, i ∈ op.unsolvables e ↔ s.Unsolvable op i) ∧
    (op.isAsRead e = true ↔ (op.kind = .readRow ∨ op.plan.copy = true) ∧ s.AllPresent op) ∧
    (∀ closing, spans (op.missing e closing) fun p i => s.CallsOn op closing p i ∧ ¬ op.WasRead p i) ∧
    (∀ closing,
      (∀ p, (∃ w ∈ s.namedForPlan op closing, w.position = p) ↔
        (∀ f ∈ op.frames, f.position ≠ p) ∧
          ((∃ i, s.CallsOn op closing p i ∧ ¬ op.WasRead p i) ∨
            (op.kind = .rebuildRow ∧ s.servingPort op.extent p op.row ≠ none ∧
              ((op.plan.copy = true ∧ (∃ o ∈ op.plan.outputs, ∃ i, i < 16 ∧ op.Reported o.position i) ∧
                  p ∉ op.plan.unavailable ∧
                  (p ∈ e.dataPositions op.row ∨ e.pPosition stripe = p ∨
                    (e.qPosition stripe = some p ∧ 2 ≤ op.plan.unavailable.length))) ∨
                (closing = true ∧ (∃ i, s.Unsolvable op i) ∧ parity p))))) ∧
      ∀ w ∈ s.namedForPlan op closing, w ∈ op.missing e closing ∨ (w.first = 0 ∧ w.count = 16)) ∧
    ((s.countedStalls op).Nodup ∧ ∀ q, q ∈ s.countedStalls op ↔ (s.port q).stalled = true ∧
      ∃ p, p < e.memberCount ∧ s.servingPort op.extent p op.row = none ∧
        (e.targets[p]? = some q ∨ ∃ j, s.jobOn op.extent = some j ∧ (s.job j).targetOf p = some q ∧
          (s.port q).memberState = .target ∧ (op.row < (s.job j).frontier ∨ op.row ∈ (s.job j).window))) ∧
    (∀ p i, i < 16 → (op.asks e i p = true ↔
      match op.kind with
      | .rebuildRow => op.plan.outputAt i p = true ∨ op.Reported p i ∨ (parity p ∧ i ∈ op.closed)
      | .readRow => s.Wanted op p i ∧ ¬ (i ∈ op.lost ∧ op.InErasureSet p i)
      | .writeRow => op.plan.outputAt i p = true ∨ op.Reported p i
      | .resyncRow => op.plan.outputAt i p = true)) ∧
    (s.deliveryOf op).length = (s.bufferPlaces op).length ∧
    ∀ (k : Nat) (x : BufferPlace), (s.bufferPlaces op)[k]? = some x →
      ((x.position, x.offset) ∈ op.plan.listed ∨ (x.offset ∈ op.lost ∧ op.InErasureSet x.position x.offset) →
        (s.deliveryOf op)[k]? = some (x.address, Block.void)) ∧
      (¬ ((x.position, x.offset) ∈ op.plan.listed ∨ (x.offset ∈ op.lost ∧ op.InErasureSet x.position x.offset)) →
        (s.deliveryOf op)[k]? = some (x.address, op.frameBlock x.position x.offset))) ∧
  (∀ (j : Job) (p : Nat) (q : PortId), (j.sources.map Source.position).Nodup →
    (j.targetOf p = some q ↔ j.targetless = false ∧ { position := p, target := q } ∈ j.sources)) ∧
  ∀ (s : State) (e : ExtentId) (p row : Nat) (q : PortId), s.servingPort e p row = some q ↔
    ∃ listed, (s.extent e).targets[p]? = some listed ∧
      (((s.port listed).memberState = .online ∧ (s.port listed).stalled = false ∧ q = listed) ∨
        (¬ ((s.port listed).memberState = .online ∧ (s.port listed).stalled = false) ∧
          ∃ j, s.jobOn e = some j ∧ (s.job j).targetOf p = some q ∧ (s.port q).memberState = .target ∧
            (s.port q).stalled = false ∧ (row < (s.job j).frontier ∨ row ∈ (s.job j).window)))

/-- GATHER_END, SUPPLEMENT_END and AWAIT_MEMBER_WAKE (R63, R65 to R69, R79, R80). Once every read and the fetch have ended,
an operation whose extent is LOST, or became LOST meanwhile (log 26), or whose job drains after the loss of its last
target (log 27) ends, and one whose fetch faulted ends; a RESYNC_ROW with data erased ends and with all of it joins the
solve queue. Any other plans anew over the widened read set where a position that it calls on has no frame (a member that
has become unavailable among them, log 51) or a failed position is available again; reads what it is called to and has not
read, a position unavailable since the plan from its port of the target list (log 36); waits for the stalled ports where
an offset is unsolvable; closes such offsets where no port is stalled; and otherwise joins the solve queue or is placed as
it was read. A woken operation plans anew. The model's readings and choices: a copy row read GOOD goes on (log 9), what is
called on and named once no port is stalled (log 10), the read set that is carried to the next plan (log 11), that a
position unavailable at the plan stays erased in it (log 41), and the repairs of a widened copy row (log 63). -/
def Obligations.ReadsEnd : Prop :=
  (∀ (s : State) (c : ContextId) (op : Operation) (cmd : Instr), s.AtRest → s.context c = some op →
    (cmd = .gatherEnd c ∧ op.phase = .gather ∧ op.fetching = false) ∨ (cmd = .supplementEnd c ∧ op.phase = .supplement) →
    s.NothingOpen c →
    let e := s.extent op.extent
    let stays := fun t : State => (∀ d, d ≠ c → t.context d = s.context d) ∧
      t.rows = { s.rows with contexts := t.rows.contexts } ∧ t.extents = s.extents ∧ t.losses = s.losses ∧
      t.holds = s.holds ∧ t.requests = s.requests ∧ s.SameJobs t ∧ s.SamePacing t ∧ t.pending = s.pending ∧
      s.SameRegisters t ∧ s.SameSweep t ∧ s.Answers t [] ∧ s.Silent t ∧ s.AnswerBegins t
    let joins := fun op' : Operation => ∃ t : State, exec cmd s = .next t ∧
      t.context c = some { op' with phase := .solveWait } ∧
      t.solver = { s.solver with queue := s.solver.queue ++ [c] } ∧ t.ports = s.ports ∧ stays t
    let ends := fun outcome => ∃ t : State, exec cmd s = .next t ∧ s.OperationFails t c op outcome
    (s.LosesRow op → ends .extentLost) ∧
    (¬ s.LosesRow op → s.LosesTarget op → ends .targetLost) ∧
    (s.Passes op →
      (op.bufferFault = true → ends .bufferFault) ∧
      (op.bufferFault = false →
        (op.kind = .resyncRow → (∃ p ∈ e.dataPositions op.row, ∃ i, i < 16 ∧ op.erased i p = true) →
          ends .skipped) ∧
        (op.kind = .resyncRow → (∀ p ∈ e.dataPositions op.row, ∀ i, i < 16 → op.erased i p = false) → joins op) ∧
        (op.kind ≠ .resyncRow →
          let stalls := s.countedStalls op
          let missing := op.missing e stalls.isEmpty
          let named := s.namedForPlan op stalls.isEmpty
          let again := named ≠ [] ∨
            ∃ p, p < e.memberCount ∧ op.failedAt p = true ∧ s.available op.extent p op.row = true
          (again →
            ∃ t : State, exec cmd s = .next t ∧ s.PlanTaken t c (op.widen named) ∧
              ((∀ o, s.makePlan (op.widen named) ≠ .ended o) →
                t.holds = s.holds ∧ s.SameJobs t ∧ t.requests = s.requests ∧ t.solver = s.solver)) ∧
          (¬ again → missing ≠ [] →
            let reads := missing.filterMap fun w =>
              ((s.servingPort op.extent w.position op.row).or (s.listedPort op.extent w.position)).map fun q =>
                ({ position := w.position, port := q, first := w.first, count := w.count } : PlanRead)
            ∃ t : State, exec cmd s = .next t ∧
              t.context c = some { op with
                phase := .supplement
                plan := { op.plan with reads := reads.foldl (fun l r => addRead r l) op.plan.reads }
                results := op.results ++ s.readFailures reads } ∧
              s.ReadsSubmitted t c op reads ∧ t.solver = s.solver ∧ stays t) ∧
          (¬ again → missing = [] → op.unsolvables e ≠ [] → stalls ≠ [] →
            ∃ t : State, exec cmd s = .next t ∧ t.context c = some (op.await stalls) ∧ t.ports = s.ports ∧
              t.solver = s.solver ∧ stays t) ∧
          (¬ again → missing = [] → op.unsolvables e ≠ [] → stalls = [] →
            joins (if op.kind = .readRow then { op with lost := op.unsolvables e }
              else { op with closed := op.unsolvables e })) ∧
          (¬ again → missing = [] → op.unsolvables e = [] → op.isAsRead e = false → joins op) ∧
          (¬ again → missing = [] → op.unsolvables e = [] → op.isAsRead e = true →
            ∃ (t : State) (op' : Operation), exec cmd s = .next t ∧ t.context c = some op' ∧
              s.PlaceEntered t c (op.solved e) op' ∧ t.solver = s.solver ∧ stays t))))) ∧
  (∀ (s : State) (c : ContextId) (op : Operation), s.context c = some op →
    (op.phase ≠ .gather ∨ op.fetching = true ∨ ¬ s.NothingOpen c → exec (.gatherEnd c) s = .next s) ∧
    (op.phase ≠ .supplement ∨ ¬ s.NothingOpen c → exec (.supplementEnd c) s = .next s) ∧
    (op.phase ≠ .awaitMember ∨ op.woken = false → exec (.awaitMemberWake c) s = .next s)) ∧
  ∀ (s : State) (c : ContextId) (op : Operation), s.AtRest → s.context c = some op → op.phase = .awaitMember →
    op.woken = true →
    ∃ t : State, exec (.awaitMemberWake c) s = .next t ∧ s.PlanTaken t c op ∧
      ((∀ o, s.makePlan op ≠ .ended o) →
        t.holds = s.holds ∧ s.SameJobs t ∧ t.requests = s.requests ∧ t.solver = s.solver)

/-- SOLVER_TAKE_HEAD and SOLVE_COMPLETION (R53 to R56, R51, R63, R69, R70, R76): the IDLE solver takes the head of its
queue, or the head ends on a LOST extent or with its job draining after the loss of its last target. At the completion
every block that the solver is asked for stands in its frame with the value that the solve gives and the other blocks
stay; the record and the tallies are handed over, the void blocks are listed by R130, and the solver is IDLE. The
operation ends without writes where its extent is LOST or became LOST meanwhile (log 26), or its job drains after the loss
of its last target (log 27); otherwise, its job draining for another cause or not, it is in PLACE: a READ_ROW delivering,
another with the first run for each of its ports submitted and the others left. What the tallies count (R74, R76, R78), and
that exactly the void blocks are listed, in runs of each strip (R51), is said of operations whose closed offsets ascend
within the row. That a widened copy row asks for the blocks of R72 to be repaired is the model's choice (log 63). -/
def Obligations.SolverSteps : Prop :=
  (∀ (s : State) (c : ContextId) (rest : List ContextId) (op : Operation), s.AtRest → s.solver.busy = none →
    s.solver.queue = c :: rest → s.context c = some op →
    (s.Passes op →
      ∃ t : State, exec .solverTakeHead s = .next t ∧ t.solver = { busy := some c, queue := rest } ∧
        t.context c = some { op with phase := .solving } ∧ (∀ d, d ≠ c → t.context d = s.context d) ∧
        t.rows = { s.rows with contexts := t.rows.contexts } ∧ s.SameArray t ∧ t.holds = s.holds ∧
        t.requests = s.requests ∧ s.SameJobs t ∧ s.SamePacing t ∧ t.pending = s.pending ∧ s.SameRegisters t ∧
        s.SameSweep t ∧ s.Answers t [] ∧ s.Silent t ∧ s.AnswerBegins t) ∧
    (s.LosesRow op → ∃ t : State, exec .solverTakeHead s = .next t ∧ s.OperationFails t c op .extentLost) ∧
    (¬ s.LosesRow op → s.LosesTarget op →
      ∃ t : State, exec .solverTakeHead s = .next t ∧ s.OperationFails t c op .targetLost)) ∧
  (∀ s : State, s.solver.busy ≠ none ∨ s.solver.queue = [] → exec .solverTakeHead s = .next s) ∧
  (∀ (s : State) (c : ContextId) (op : Operation), s.AtRest → s.solver.busy = some c → s.context c = some op →
    let e := s.extent op.extent
    let out := op.solved e
    ∃ t : State, exec .solveCompletion s = .next t ∧
      out = { op with frames := out.frames, record := op.solveRecord e
                      tallies := op.solveTallies e (op.solveRecord e) } ∧
      out.frames.length = op.frames.length ∧
      (∀ (k : Nat) (f g : Frame), op.frames[k]? = some f → out.frames[k]? = some g → g.position = f.position ∧
        ∀ i : Fin 16, g.blocks[i.val] =
          if op.asks e i.val f.position = true then (op.valueAt e i.val f.position).1 else f.blocks[i.val]) ∧
      -- the entries, and the coarsenings that the insertions made
      let made := (op.lossRuns e s.time.tick).foldl (fun acc r =>
        let put := insertLoss s.time.tick s.arrayLimits r acc.1
        (put.1, acc.2 + put.2)) (s.losses.entries, 0)
      t.losses.entries = made.1 ∧ t.losses.coarsenings = s.losses.coarsenings + BitVec.ofNat 32 made.2 ∧
      t.losses.kept = s.losses.kept ∧ t.losses.transfers = s.losses.transfers ∧
      (t.losses.entries = s.losses.entries → s.Silent t) ∧ (t.losses.entries ≠ s.losses.entries → s.Publishes t) ∧
      t.rows.unsettled = s.rows.unsettled ∧
      (s.LosesRow op → s.OperationEnded t c out .extentLost false false) ∧
      (¬ s.LosesRow op → s.LosesTarget op → s.OperationEnded t c out .targetLost false false) ∧
      (s.Passes op →
        t.solver = { s.solver with busy := none } ∧
        (∃ op', t.context c = some op' ∧ s.PlaceEntered t c out op') ∧
        (∀ d, d ≠ c → t.context d = s.context d) ∧ t.rows = { s.rows with contexts := t.rows.contexts } ∧
        t.extents = s.extents ∧ t.holds = s.holds ∧ t.requests = s.requests ∧ s.SameJobs t ∧ s.SamePacing t ∧
        t.pending = s.pending ∧ s.SameRegisters t ∧ s.SameSweep t ∧ s.Answers t [] ∧ s.AnswerBegins t)) ∧
  (∀ s : State, s.solver.busy = none → exec .solveCompletion s = .next s) ∧
  ∀ (e : Extent) (op : Operation) (now : Stamp), e.legal → op.row < e.rows → op.closed.Pairwise (· < ·) →
    (∀ i ∈ op.closed, i < 16) →
    let out := op.solveTallies e (op.solveRecord e)
    let blocks := (List.range e.memberCount).flatMap fun p => (List.range 16).map fun i => (p, i)
    let data := e.dataPositions op.row
    let count := fun which : Nat → Nat → Bool => (blocks.filter fun x => which x.1 x.2).length
    let asked := fun p i => (op.requestedAt e p).contains i
    let void := fun p i => data.contains p && op.closed.contains i && op.erased i p && !op.covers e i p
    let solved := fun p i => (op.valueAt e i p).2 == .solved
    let undelivered := fun p i =>
      asked p i && (op.plan.listed.contains (p, i) || (op.lost.contains i && op.erased i p))
    -- `first` is the lowest array block among those that `which` picks
    let lowest := fun (first : Option Nat) (which : Nat → Nat → Bool) =>
      (∀ b, first = some b → ∃ x ∈ blocks, which x.1 x.2 = true ∧ e.arrayBlockAt op.row x.1 x.2 = some b) ∧
        ∀ x ∈ blocks, which x.1 x.2 = true → ∃ b c, first = some b ∧ e.arrayBlockAt op.row x.1 x.2 = some c ∧ b ≤ c
    (op.kind = .rebuildRow →
      out = { RowTallies.zero with reconstructed := count fun p i => op.plan.outputAt i p && solved p i
                                   lost := count void }) ∧
    (op.kind = .readRow → op.plan.listed.Nodup → (∀ x ∈ op.plan.listed, asked x.1 x.2 = true) →
      lowest out.firstLost undelivered ∧
      out = { RowTallies.zero with
        served := count fun p i => asked p i && !undelivered p i
        reconstructed := count fun p i => asked p i && !op.plan.listed.contains (p, i) && solved p i
        lost := count undelivered, firstLost := out.firstLost }) ∧
    (op.kind = .writeRow →
      lowest out.firstLost void ∧
      out = { RowTallies.zero with
        served := count asked, reconstructed := count fun p i => data.contains p && !op.covers e i p && solved p i
        firstLost := out.firstLost, sideLosses := count void }) ∧
    (op.kind = .resyncRow → out = RowTallies.zero) ∧
    let runs := op.lossRuns e now
    (∀ r ∈ runs, r.extent = op.extent ∧ r.toEnd = false ∧ 1 ≤ r.count ∧ r.stamp = now ∧
      r.origin = (if op.kind = .rebuildRow then .rebuild else .foreground) ∧
      ∃ j i, j < e.dataCount ∧ r.first = e.arrayBlock op.row j i ∧ i + r.count ≤ 16) ∧
    (∀ b, (∃ r ∈ runs, r.first ≤ b ∧ b < r.first + r.count) ↔
      ∃ j i, j < e.dataCount ∧ void (e.dataPosition (e.stripeOf op.row) j) i = true ∧ b = e.arrayBlock op.row j i) ∧
    runs.Pairwise fun a b => a.first + a.count < b.first ∨
      (a.first + a.count = b.first ∧ ∃ j, j < e.dataCount ∧ b.first = e.arrayBlock op.row j 0)

/-- How a row operation's end is judged and taken (R71, R74, R76, R78, R79, R93, R119, R120, R121). The outcome that its
kind gives: of a REBUILD_ROW and a READ_ROW by the blocks lost, of a WRITE_ROW by the closed offsets, RECOVERED of a
READ_ROW or WRITE_ROW that lost nothing where some block was SOLVED. What a request does with it: the row leaves the rows in
flight; the tallies of a READ or WRITE row enter where it completed, a WRITE's side losses and first lost block always; a
RESYNC counts the rows done, settled and skipped; the worst status rises to the row's by the ranking of R121; EXTENT_LOST
and BUFFER_FAULT set an absent stop cause. What a job does with a row that did not complete: it leaves the rows in flight,
the lane count follows, and the blocks that it listed as lost are counted. -/
def Obligations.RowEndsTaken : Prop :=
  (∀ op : Operation,
    (op.kind = .rebuildRow → op.outcome = if op.tallies.lost = 0 then .done else .doneWithLoss) ∧
    (op.kind = .readRow → op.outcome =
      if op.tallies.lost ≠ 0 then .doneWithLoss else if op.tallies.reconstructed ≠ 0 then .recovered else .done) ∧
    (op.kind = .writeRow → op.outcome =
      if op.closed ≠ [] then .doneWithLoss else if op.tallies.reconstructed ≠ 0 then .recovered else .done) ∧
    (op.kind = .resyncRow → op.outcome = .done)) ∧
  (∀ (r : ForegroundRequest) (row : Nat) (outcome : RowOutcome) (t : RowTallies) (kept settled : Bool),
    let after := r.takeRow row outcome t kept settled
    let completed := outcome = .done ∨ outcome = .recovered ∨ outcome = .doneWithLoss
    let ranking := [Status.good, .recovered, .lossKept, .lostData, .failed]
    let status := match outcome with
      | .done => if kept then Status.lossKept else .good
      | .recovered => if kept then Status.lossKept else .recovered
      | .doneWithLoss => .lostData
      | .skipped => .good
      | .extentLost | .bufferFault | .targetLost => .failed
    -- `x` is the lower of `a` and `b`, absent where both are
    let lower := fun x a b : Option Nat => (x = none ↔ a = none ∧ b = none) ∧ (x = none ∨ x = a ∨ x = b) ∧
      ∀ n, x = some n → (∀ m, a = some m → n ≤ m) ∧ ∀ m, b = some m → n ≤ m
    let adds := fun n m : Nat => if outcome = .done ∨ outcome = .recovered ∨ outcome = .doneWithLoss then n + m else n
    after = { r with
      inFlight := r.inFlight.filter (fun x => x ≠ row), tallies := after.tallies, worst := after.worst
      stop := after.stop } ∧
    (r.stop ≠ none → after.stop = r.stop) ∧
    (r.stop = none → after.stop = match outcome with
      | .extentLost => some .extentLost
      | .bufferFault => some .bufferFault
      | .done | .recovered | .doneWithLoss | .targetLost | .skipped => none) ∧
    (r.worst ∈ ranking → (after.worst = r.worst ∨ after.worst = status) ∧
      ranking.idxOf r.worst ≤ ranking.idxOf after.worst ∧ ranking.idxOf status ≤ ranking.idxOf after.worst) ∧
    (r.kind ≠ .resync →
      after.tallies = { r.tallies with
        served := adds r.tallies.served t.served, reconstructed := adds r.tallies.reconstructed t.reconstructed
        lost := adds r.tallies.lost t.lost, completed := adds r.tallies.completed 1
        sideLosses := r.tallies.sideLosses + t.sideLosses, firstLost := after.tallies.firstLost
        kept := after.tallies.kept } ∧
      (completed ∨ r.kind = .write → lower after.tallies.firstLost r.tallies.firstLost t.firstLost) ∧
      (¬ completed → r.kind = .read → after.tallies.firstLost = r.tallies.firstLost) ∧
      (after.tallies.kept = true ↔ r.tallies.kept = true ∨ (r.kind = .write ∧ completed ∧ kept = true))) ∧
    (r.kind = .resync →
      (outcome = .done → after.tallies =
        { r.tallies with done := r.tallies.done + 1, settled := r.tallies.settled + (if settled then 1 else 0) }) ∧
      (outcome = .skipped →
        after.tallies = { r.tallies with
          skipped := r.tallies.skipped + 1, firstSkipped := after.tallies.firstSkipped } ∧
        lower after.tallies.firstSkipped r.tallies.firstSkipped (some row)) ∧
      (outcome ≠ .done → outcome ≠ .skipped → after.tallies = r.tallies))) ∧
  ∀ (j : Job) (row : Nat) (t : RowTallies),
    let inFlight := j.inFlight.filter fun x => x ≠ row
    j.takeFailure row t = { j with
      inFlight := inFlight, laneCount := max j.lanesWanted inFlight.length
      blocksLost := j.blocksLost + BitVec.ofNat 64 t.lost }

/-- BUFFER_DELIVERY_END and PLACE_END (R71, R70, R76, R80, R63, R83, R92, R119, R133): a delivery that faults ends its
READ_ROW, BUFFER_FAULT only where the boundary tests do not end it, which is the model's reading (log 47); one that does
not leaves it with its repair writes submitted, or none on an extent that is LOST or became LOST (log 26). When the writes
and the delivery have ended, an operation whose extent is LOST or became LOST (log 26), or whose job drains after the loss
of its last target (log 27), ends without completing. Otherwise a WRITE_ROW's covered ranges leave the loss list and a
RESYNC_ROW's row the unsettled rows, the owner takes the outcome, and frames, hold and context are given back. Of a legal
job on its extent, draining or not, the row leaves the rows in flight, the counters rise, and exactly the rows rebuilt
before and this one are rebuilt now (R92). -/
def Obligations.PlaceEnds : Prop :=
  (∀ (s : State) (c : ContextId) (op : Operation), s.AtRest → s.context c = some op → op.phase = .place →
    op.delivering = true →
    let ends := fun outcome => ∃ t : State, exec (.bufferDeliveryEnd c true) s = .next t ∧
      s.OperationFails t c op outcome
    (s.LosesRow op → ends .extentLost) ∧ (¬ s.LosesRow op → s.LosesTarget op → ends .targetLost) ∧
    (s.Passes op → ends .bufferFault) ∧
    ∃ (t : State) (op' : Operation), exec (.bufferDeliveryEnd c false) s = .next t ∧ t.context c = some op' ∧
      (s.LosesRow op → op' = { op with delivering := false } ∧ t.ports = s.ports) ∧
      (¬ s.LosesRow op → s.WritesSubmitted t c { op with delivering := false } op') ∧
      (∀ d, d ≠ c → t.context d = s.context d) ∧ t.rows = { s.rows with contexts := t.rows.contexts } ∧
      t.extents = s.extents ∧ t.losses = s.losses ∧ t.solver = s.solver ∧ t.holds = s.holds ∧
      t.requests = s.requests ∧ s.SameJobs t ∧ s.SamePacing t ∧ t.pending = s.pending ∧ s.SameRegisters t ∧
      s.SameSweep t ∧ s.Answers t [] ∧ s.Silent t ∧ s.AnswerBegins t) ∧
  (∀ (s : State) (c : ContextId) (op : Operation), s.context c = some op →
    (op.phase ≠ .place ∨ op.delivering = false →
      ∀ fault, exec (.bufferDeliveryEnd c fault) s = .next s) ∧
    (op.phase ≠ .place ∨ op.delivering = true ∨ ¬ s.NothingOpen c → exec (.placeEnd c) s = .next s)) ∧
  ∀ (s : State) (c : ContextId) (op : Operation), s.AtRest → s.context c = some op → op.phase = .place →
    op.delivering = false → s.NothingOpen c →
    let e := s.extent op.extent
    (s.LosesRow op → ∃ t : State, exec (.placeEnd c) s = .next t ∧ s.OperationFails t c op .extentLost) ∧
    (¬ s.LosesRow op → s.LosesTarget op →
      ∃ t : State, exec (.placeEnd c) s = .next t ∧ s.OperationFails t c op .targetLost) ∧
    (s.Passes op →
      -- entries left, entries kept whole, and entries that the removals touched
      let removed := op.requested.foldl (fun acc r =>
        let first := e.arrayBlock op.row r.strip r.first
        let out := removeLosses e.arrayLimit op.extent first (first + r.count - 1) acc.1.length acc.1
        (out.entries, acc.2.1 + out.kept, acc.2.2 + (out.deleted + out.shortened + out.split + out.kept)))
        (s.losses.entries, 0, 0)
      let settled := removeUnsettled (s.lastRows op.extent) (decide (64 ≤ s.rows.unsettled.length)) op.extent op.row
        s.rows.unsettled
      ∃ t : State, exec (.placeEnd c) s = .next t ∧
        s.OperationEnded t c op op.outcome (op.kind == .writeRow && decide (0 < removed.2.1))
          (op.kind == .resyncRow && settled.isSome) ∧
        t.losses = (if op.kind = .writeRow then
            { s.losses with entries := removed.1, kept := s.losses.kept + BitVec.ofNat 32 removed.2.1 }
          else s.losses) ∧
        t.rows.unsettled = (if op.kind = .resyncRow then settled.getD s.rows.unsettled else s.rows.unsettled) ∧
        (∀ i piece, op.owner = .slip i piece →
          ((op.kind = .writeRow ∧ 0 < removed.2.2) ∨ (op.kind = .resyncRow ∧ settled ≠ none) → s.Publishes t) ∧
          (¬ ((op.kind = .writeRow ∧ 0 < removed.2.2) ∨ (op.kind = .resyncRow ∧ settled ≠ none)) → s.Silent t)) ∧
        ∀ j, op.owner = .job j → op.kind = .rebuildRow → (s.job j).isOn = true → (s.job j).legal →
          op.row ∈ (s.job j).inFlight →
          (t.job j).inFlight = (s.job j).inFlight.filter (fun r => r ≠ op.row) ∧
          (t.job j).laneCount = max (s.job j).lanesWanted (t.job j).inFlight.length ∧
          (t.job j).rowsDone = (s.job j).rowsDone + 1 ∧
          (t.job j).rowsCopied = (s.job j).rowsCopied + (if op.plan.copy then 1 else 0) ∧
          (t.job j).rowsReconstructed = (s.job j).rowsReconstructed + (if op.plan.copy then 0 else 1) ∧
          (t.job j).blocksReconstructed =
            (s.job j).blocksReconstructed + BitVec.ofNat 64 op.tallies.reconstructed ∧
          (t.job j).blocksLost = (s.job j).blocksLost + BitVec.ofNat 64 op.tallies.lost ∧
          (t.job j).repairs = (s.job j).repairs + BitVec.ofNat 64 op.tallies.repairs ∧
          (t.job j).frontier ∉ (t.job j).window ∧
          (∀ r, (r < (t.job j).frontier ∨ r ∈ (t.job j).window) ↔
            (r < (s.job j).frontier ∨ r ∈ (s.job j).window ∨ r = op.row)) ∧
          (t.job j).state = (s.job j).state ∧ (t.job j).drainCause = (s.job j).drainCause ∧
          (t.job j).nextRow = (s.job j).nextRow ∧ (t.job j).creditsLeft = (s.job j).creditsLeft ∧
          let checkpoint := ((t.job j).frontier ≠ (s.job j).endRow ∨ (s.job j).state = .aborting) ∧
            256 ≤ (t.job j).frontier - (s.job j).publishedFrontier
          (checkpoint → s.Publishes t) ∧ (¬ checkpoint → s.Silent t))

/-! ## Address arithmetic and parity -/

/-- Parity placement (R6): the P position by the rotation from its base, Q after it on DOUBLE alone, and the data strips
after the last parity position, wrapping; together they take every position of the stripe once. -/
def Obligations.ParityPlacement : Prop :=
  ∀ (e : Extent) (s : Nat), e.legal →
    let n := e.memberCount
    let base := if e.kind = .double then n - 2 else n - 1
    ((e.pPosition s : Nat) : Int) =
      (match e.rotation with
        | .fixed => (base : Int)
        | .descending => ((base : Int) - s) % n
        | .ascending => ((base : Int) + s) % n) ∧
    e.qPosition s = (if e.kind = .double then some ((e.pPosition s + 1) % n) else none) ∧
    (∀ j, j < e.dataCount → e.dataPosition s j =
      ((if e.kind = .double then (e.pPosition s + 1) % n else e.pPosition s) + 1 + j) % n) ∧
    e.dataCount + (if e.kind = .double then 2 else 1) = n ∧
    ∀ p, p < n →
      (p = e.pPosition s ∧ e.dataIndex s p = none) ∨
      (p ≠ e.pPosition s ∧ e.qPosition s = some p ∧ e.dataIndex s p = none) ∨
      (p ≠ e.pPosition s ∧ e.qPosition s ≠ some p ∧ ∃ j, j < e.dataCount ∧ e.dataIndex s p = some j ∧
        e.dataPosition s j = p ∧ ∀ i, i < e.dataCount → e.dataPosition s i = p → i = j)

/-- Translation (R4, R5, R8): a block outside the array range does not translate; one inside translates to its stripe,
strip, row, position, port and member block, its row geometry gives it back, and so does reverse translation of the port
and member block. A parity position, and a member block outside the extent, carry no array block. -/
def Obligations.TranslationRoundTrip : Prop :=
  ∀ (s : State) (x : ExtentId) (a : Nat), (s.extent x).legal →
    let e := s.extent x
    let k := e.dataCount
    let sb := e.stripSize
    (a < e.arrayStart ∨ e.arrayLimit < a → e.translate a = none) ∧
    (e.arrayStart ≤ a → a ≤ e.arrayLimit →
      ∃ (tr : Translation) (p : PortId), e.translate a = some tr ∧
        tr.stripe = (a - e.arrayStart) / (k * sb) ∧ tr.dataIndex = (a - e.arrayStart) % (k * sb) / sb ∧
        tr.blockInStrip = (a - e.arrayStart) % (k * sb) % sb ∧
        tr.row = tr.stripe * (sb / 16) + tr.blockInStrip / 16 ∧ tr.blockOffset = tr.blockInStrip % 16 ∧
        tr.position = e.dataPosition tr.stripe tr.dataIndex ∧ tr.port = some p ∧ e.targets[tr.position]? = some p ∧
        tr.memberBlock = e.memberBase + tr.stripe * sb + tr.blockInStrip ∧
        tr.dataIndex < k ∧ tr.row < e.rows ∧ tr.memberBlock ≤ e.memberLimit ∧
        e.memberBlock tr.row tr.blockOffset = tr.memberBlock ∧ e.arrayBlock tr.row tr.dataIndex tr.blockOffset = a ∧
        s.reverseTranslate x p tr.memberBlock = some a) ∧
    ∀ p b, (b < e.memberBase ∨ e.memberLimit < b ∨ e.isParity ((b - e.memberBase) / sb) p = true) →
      e.reverse p b = none

/-- The field tables (R43): each power of g is the one before it doubled by R42's rule; the log and the antilog undo each
other; product, quotient and negative power are as the tables give them; no power and no sum of two powers of different
exponents among the data indices is 00h; the weights are those of the table. -/
def Obligations.FieldTables : Prop :=
  (gPow 0 = 1 ∧ gPow 255 = 1 ∧ ∀ i,
    let doubled := 2 * (gPow i).toNat
    gPow (i + 1) = BitVec.ofNat 8 (if 255 < doubled then doubled ^^^ 0x11D else doubled)) ∧
  (∀ i, i < 255 → gLog (gPow i) = i) ∧
  (∀ v : Byte, v ≠ 0 → gLog v < 255 ∧ gPow (gLog v) = v) ∧
  (∀ x y : Byte, gMul x y = if x = 0 ∨ y = 0 then 0 else gPow ((gLog x + gLog y) % 255)) ∧
  (∀ x y : Byte, y ≠ 0 →
    gDiv x y = if x = 0 then 0 else gPow (((gLog x : Int) - gLog y) % 255).toNat) ∧
  (∀ i, i < 255 → gPowNeg i = gPow ((255 - i) % 255) ∧ ∀ x : Byte, gMul x (gPowNeg i) = gDiv x (gPow i)) ∧
  (∀ x y, x ≤ 13 → y ≤ 13 → gPow x ≠ 0 ∧ (x ≠ y → gPow x ^^^ gPow y ≠ 0)) ∧
  (List.range 14).map gPow =
    [0x01, 0x02, 0x04, 0x08, 0x10, 0x20, 0x40, 0x80, 0x1D, 0x3A, 0x74, 0xE8, 0xCD, 0x87] ∧
  gLog 0x1D = 8 ∧ gLog 0x87 = 13 ∧ gPow 25 = 0x03 ∧ gPow 26 = 0x06 ∧ gLog 0x03 = 25 ∧ gLog 0x06 = 26

/-- Parity (R44): byte by byte, P is the sum of the data and Q the sum of the data weighted by the powers of g of their
data indices. Q exists on DOUBLE alone, and a MIRROR has one data strip, which P equals. Where an offset's parity is
recomputed, it is the parity of the data that the solve leaves there, each strip with its data index in the row's
stripe. -/
def Obligations.ParityDefined : Prop :=
  (∀ (k : Nat) (d : Nat → Block) (i : Nat), (∀ j, j < k → (d j).wf = true) →
    (parityP k d).wf = true ∧ (parityQ k d).wf = true ∧
    (parityP k d).byteAt i = (List.range k).foldl (fun sum j => sum ^^^ (d j).byteAt i) 0 ∧
    (parityQ k d).byteAt i = (List.range k).foldl (fun sum j => sum ^^^ gMul (gPow j) ((d j).byteAt i)) 0) ∧
  (∀ (e : Extent) (s : Nat), e.legal →
    (e.qPosition s ≠ none ↔ e.kind = .double) ∧
    (e.kind = .mirror → e.dataCount = 1 ∧ ∀ d : Nat → Block, (d 0).wf = true → parityP e.dataCount d = d 0)) ∧
  ∀ (e : Extent) (op : Operation) (i : Nat), e.legal → op.recomputes i = true →
    let s := e.stripeOf op.row
    let data := fun j => (op.valueAt e i (e.dataPosition s j)).1
    op.valueAt e i (e.pPosition s) = (parityP e.dataCount data, .recomputed) ∧
      ∀ q, e.qPosition s = some q → op.valueAt e i q = (parityQ e.dataCount data, .recomputed)

/-- The solve of an offset (R46, R47, R48, R49, R50, R76). A consistent row is one whose blocks that are not erased are
those of data and of its parity. Of such a row, with no more positions erased than the extent has parity, every data strip
comes out with the row's own block, SOLVED where it was erased and READ where it was not, and every parity strip with the
row's parity. Of a WRITE_ROW a covered block takes its new contents, NEW; uncovered data come out as before, restored from
the old parity where erased, and parity is recomputed over the data so formed; where nothing uncovered is erased the old
parity does not enter. At a closed offset the erased data without new contents are zeros, VOID; covered blocks are NEW,
other data READ, and parity is recomputed over these. At an offset that a READ_ROW has marked lost the erased data are
zeros. -/
def Obligations.SolverRestores : Prop :=
  ∀ (e : Extent) (op : Operation) (i : Nat), e.legal →
    let s := e.stripeOf op.row
    let k := e.dataCount
    let position := e.dataPosition s
    let value := fun j => (op.valueAt e i (position j)).1
    let consistent := fun d : Nat → Block =>
      (∀ j, j < k → (d j).wf = true) ∧
      (∀ j, j < k → op.erased i (position j) = false → op.frameBlock (position j) i = d j) ∧
      (op.erased i (e.pPosition s) = false → op.frameBlock (e.pPosition s) i = parityP k d) ∧
      ∀ q, e.qPosition s = some q → op.erased i q = false → op.frameBlock q i = parityQ k d
    let renews := ∀ j blocks b, j < k → op.covers e i (position j) = true → op.fetched = some blocks →
      blocks.find? (fun y => y.position == position j && y.offset == i) = some b →
      op.valueAt e i (position j) = (b.contents, .new)
    let recomputes := op.valueAt e i (e.pPosition s) = (parityP k value, .recomputed) ∧
      ∀ q, e.qPosition s = some q → op.valueAt e i q = (parityQ k value, .recomputed)
    (∀ d, consistent d → (∀ p, op.covers e i p = false) → i ∉ op.closed → i ∉ op.lost →
      (op.erasures e i).length ≤ e.parityCount →
      (∀ j, j < k → op.valueAt e i (position j) = (d j, if op.erased i (position j) then .solved else .read)) ∧
      (op.valueAt e i (e.pPosition s)).1 = parityP k d ∧
      ∀ q, e.qPosition s = some q → (op.valueAt e i q).1 = parityQ k d) ∧
    (∀ d, op.kind = .writeRow → i ∉ op.closed → i ∉ op.lost →
      (consistent d ∧ (op.erasures e i).length ≤ e.parityCount) ∨
        (∀ j, j < k → op.covers e i (position j) = false →
          op.erased i (position j) = false ∧ op.frameBlock (position j) i = d j) →
      renews ∧ recomputes ∧
      ∀ j, j < k → op.covers e i (position j) = false →
        op.valueAt e i (position j) = (d j, if op.erased i (position j) then .solved else .read)) ∧
    (i ∈ op.closed →
      renews ∧ recomputes ∧
      ∀ j, j < k → op.covers e i (position j) = false →
        op.valueAt e i (position j) =
          if op.erased i (position j) then (Block.void, .void) else (op.frameBlock (position j) i, .read)) ∧
    (i ∈ op.lost → op.kind = .readRow → ∀ j, j < k →
      op.valueAt e i (position j) =
        if op.erased i (position j) then (Block.void, .void) else (op.frameBlock (position j) i, .read))

/-! ## Invariants -/

/-- A port whose member is neither ONLINE nor TARGET carries no stall and no lapses after any step, if every such port
did not before (R23). -/
def Obligations.PortsStayLegal : Prop := ∀ s t : State, s.PortsLegal → step s = .next t → t.PortsLegal

/-- The relations of R86 among a job's start row, frontier, next row, end row, window and rows in flight hold after any
step, if they did before. -/
def Obligations.JobsStayLegal : Prop := ∀ s t : State, s.JobsLegal → step s = .next t → t.JobsLegal

/-- At most 48 slips are TAKEN, each once, and no sweep takes a slip that is TAKEN, after any step, if so before (R156,
R157). -/
def Obligations.AdmissionStaysLegal : Prop :=
  ∀ s t : State, s.board.admissionLegal → step s = .next t → t.board.admissionLegal

/-- Every entry of the hold table in use has a holder, a row held SOLE has one, and a row has one entry, after any step,
if so before (R109). -/
def Obligations.HoldsStayLegal : Prop := ∀ s t : State, s.holds.legal → step s = .next t → t.holds.legal

/-- Every step acts on the publish causes it takes (log 4), and leaves every setting in its range if it was before
(R141, R142). -/
def Obligations.AtRestAndSettingsKept : Prop :=
  ∀ s t : State, step s = .next t → (s.AtRest → t.AtRest) ∧ (s.settings.legal → t.settings.legal)

/-- The layout map keeps its form, and every row that is worked on or is to be lies in its extent, after any step, if so
before (R1, R3, R5, R89, R115, R117). -/
def Obligations.RowsStayInRange : Prop :=
  ∀ s t : State, s.MapLegal → s.RowsLegal → step s = .next t → t.MapLegal ∧ t.RowsLegal

/-- The loss list and the published unsettled-row list keep their forms after any step, where the layout map and the rows
worked on are legal (R128, R82). -/
def Obligations.ListsStayLegal : Prop :=
  ∀ s t : State, s.MapLegal → s.RowsLegal → step s = .next t →
    (lossesLegal s.arrayLimits s.losses.entries → lossesLegal t.arrayLimits t.losses.entries) ∧
      (unsettledLegal s.lastRows s.rows.unsettled → unsettledLegal t.lastRows t.rows.unsettled)

/-- The invariants hold after power-on reset. -/
def Obligations.InvariantsAtReset : Prop :=
  State.reset.AtRest ∧ State.reset.PortsLegal ∧ State.reset.JobsLegal ∧ State.reset.board.admissionLegal ∧
    State.reset.holds.legal ∧ State.reset.settings.legal ∧
    lossesLegal State.reset.arrayLimits State.reset.losses.entries ∧
    unsettledLegal State.reset.lastRows State.reset.rows.unsettled ∧ State.reset.MapLegal ∧ State.reset.RowsLegal
end

