-- ==== Sys2Proof/Laws/State.lean ====
section
/-! SUPPORT. Laws/State.lean: one lemma for each field under each named update of State. -/

namespace Sys2Proof.Machine

/-! ## withPort -/

@[simp] theorem State.withPort_ports (s : State) (p : PortId) (f : Port → Port) :
    (s.withPort p f).ports =
      bankModify s.ports p f := rfl
@[simp] theorem State.withPort_extents (s : State) (p : PortId) (f : Port → Port) :
    (s.withPort p f).extents =
      s.extents := rfl
@[simp] theorem State.withPort_rows (s : State) (p : PortId) (f : Port → Port) : (s.withPort p f).rows = s.rows := rfl
@[simp] theorem State.withPort_solver (s : State) (p : PortId) (f : Port → Port) :
    (s.withPort p f).solver =
      s.solver := rfl
@[simp] theorem State.withPort_holds (s : State) (p : PortId) (f : Port → Port) :
    (s.withPort p f).holds =
      s.holds := rfl
@[simp] theorem State.withPort_requests (s : State) (p : PortId) (f : Port → Port) :
    (s.withPort p f).requests =
      s.requests := rfl
@[simp] theorem State.withPort_jobs (s : State) (p : PortId) (f : Port → Port) : (s.withPort p f).jobs = s.jobs := rfl
@[simp] theorem State.withPort_losses (s : State) (p : PortId) (f : Port → Port) :
    (s.withPort p f).losses =
      s.losses := rfl
@[simp] theorem State.withPort_settings (s : State) (p : PortId) (f : Port → Port) :
    (s.withPort p f).settings =
      s.settings := rfl
@[simp] theorem State.withPort_time (s : State) (p : PortId) (f : Port → Port) : (s.withPort p f).time = s.time := rfl
@[simp] theorem State.withPort_guard (s : State) (p : PortId) (f : Port → Port) :
    (s.withPort p f).guard =
      s.guard := rfl
@[simp] theorem State.withPort_board (s : State) (p : PortId) (f : Port → Port) :
    (s.withPort p f).board =
      s.board := rfl
@[simp] theorem State.withPort_pending (s : State) (p : PortId) (f : Port → Port) :
    (s.withPort p f).pending =
      s.pending := rfl

/-! ## withExtent -/

@[simp] theorem State.withExtent_ports (s : State) (e : ExtentId) (f : Extent → Extent) :
    (s.withExtent e f).ports =
      s.ports := rfl
@[simp] theorem State.withExtent_extents (s : State) (e : ExtentId) (f : Extent → Extent) :
    (s.withExtent e f).extents =
      bankModify s.extents e f := rfl
@[simp] theorem State.withExtent_rows (s : State) (e : ExtentId) (f : Extent → Extent) :
    (s.withExtent e f).rows =
      s.rows := rfl
@[simp] theorem State.withExtent_solver (s : State) (e : ExtentId) (f : Extent → Extent) :
    (s.withExtent e f).solver =
      s.solver := rfl
@[simp] theorem State.withExtent_holds (s : State) (e : ExtentId) (f : Extent → Extent) :
    (s.withExtent e f).holds =
      s.holds := rfl
@[simp] theorem State.withExtent_requests (s : State) (e : ExtentId) (f : Extent → Extent) :
    (s.withExtent e f).requests =
      s.requests := rfl
@[simp] theorem State.withExtent_jobs (s : State) (e : ExtentId) (f : Extent → Extent) :
    (s.withExtent e f).jobs =
      s.jobs := rfl
@[simp] theorem State.withExtent_losses (s : State) (e : ExtentId) (f : Extent → Extent) :
    (s.withExtent e f).losses =
      s.losses := rfl
@[simp] theorem State.withExtent_settings (s : State) (e : ExtentId) (f : Extent → Extent) :
    (s.withExtent e f).settings =
      s.settings := rfl
@[simp] theorem State.withExtent_time (s : State) (e : ExtentId) (f : Extent → Extent) :
    (s.withExtent e f).time =
      s.time := rfl
@[simp] theorem State.withExtent_guard (s : State) (e : ExtentId) (f : Extent → Extent) :
    (s.withExtent e f).guard =
      s.guard := rfl
@[simp] theorem State.withExtent_board (s : State) (e : ExtentId) (f : Extent → Extent) :
    (s.withExtent e f).board =
      s.board := rfl
@[simp] theorem State.withExtent_pending (s : State) (e : ExtentId) (f : Extent → Extent) :
    (s.withExtent e f).pending =
      s.pending := rfl

/-! ## withJob -/

@[simp] theorem State.withJob_ports (s : State) (j : JobId) (f : Job → Job) : (s.withJob j f).ports = s.ports := rfl
@[simp] theorem State.withJob_extents (s : State) (j : JobId) (f : Job → Job) :
    (s.withJob j f).extents =
      s.extents := rfl
@[simp] theorem State.withJob_rows (s : State) (j : JobId) (f : Job → Job) : (s.withJob j f).rows = s.rows := rfl
@[simp] theorem State.withJob_solver (s : State) (j : JobId) (f : Job → Job) :
    (s.withJob j f).solver =
      s.solver := rfl
@[simp] theorem State.withJob_holds (s : State) (j : JobId) (f : Job → Job) : (s.withJob j f).holds = s.holds := rfl
@[simp] theorem State.withJob_requests (s : State) (j : JobId) (f : Job → Job) :
    (s.withJob j f).requests =
      s.requests := rfl
@[simp] theorem State.withJob_jobs (s : State) (j : JobId) (f : Job → Job) :
    (s.withJob j f).jobs =
      bankModify s.jobs j f := rfl
@[simp] theorem State.withJob_losses (s : State) (j : JobId) (f : Job → Job) :
    (s.withJob j f).losses =
      s.losses := rfl
@[simp] theorem State.withJob_settings (s : State) (j : JobId) (f : Job → Job) :
    (s.withJob j f).settings =
      s.settings := rfl
@[simp] theorem State.withJob_time (s : State) (j : JobId) (f : Job → Job) : (s.withJob j f).time = s.time := rfl
@[simp] theorem State.withJob_guard (s : State) (j : JobId) (f : Job → Job) : (s.withJob j f).guard = s.guard := rfl
@[simp] theorem State.withJob_board (s : State) (j : JobId) (f : Job → Job) : (s.withJob j f).board = s.board := rfl
@[simp] theorem State.withJob_pending (s : State) (j : JobId) (f : Job → Job) :
    (s.withJob j f).pending =
      s.pending := rfl

/-! ## withRows -/

@[simp] theorem State.withRows_ports (s : State) (f : RowEngine → RowEngine) : (s.withRows f).ports = s.ports := rfl
@[simp] theorem State.withRows_extents (s : State) (f : RowEngine → RowEngine) :
    (s.withRows f).extents =
      s.extents := rfl
@[simp] theorem State.withRows_rows (s : State) (f : RowEngine → RowEngine) : (s.withRows f).rows = f s.rows := rfl
@[simp] theorem State.withRows_solver (s : State) (f : RowEngine → RowEngine) :
    (s.withRows f).solver =
      s.solver := rfl
@[simp] theorem State.withRows_holds (s : State) (f : RowEngine → RowEngine) : (s.withRows f).holds = s.holds := rfl
@[simp] theorem State.withRows_requests (s : State) (f : RowEngine → RowEngine) :
    (s.withRows f).requests =
      s.requests := rfl
@[simp] theorem State.withRows_jobs (s : State) (f : RowEngine → RowEngine) : (s.withRows f).jobs = s.jobs := rfl
@[simp] theorem State.withRows_losses (s : State) (f : RowEngine → RowEngine) :
    (s.withRows f).losses =
      s.losses := rfl
@[simp] theorem State.withRows_settings (s : State) (f : RowEngine → RowEngine) :
    (s.withRows f).settings =
      s.settings := rfl
@[simp] theorem State.withRows_time (s : State) (f : RowEngine → RowEngine) : (s.withRows f).time = s.time := rfl
@[simp] theorem State.withRows_guard (s : State) (f : RowEngine → RowEngine) : (s.withRows f).guard = s.guard := rfl
@[simp] theorem State.withRows_board (s : State) (f : RowEngine → RowEngine) : (s.withRows f).board = s.board := rfl
@[simp] theorem State.withRows_pending (s : State) (f : RowEngine → RowEngine) :
    (s.withRows f).pending =
      s.pending := rfl

/-! ## withSolver -/

@[simp] theorem State.withSolver_ports (s : State) (f : Solver → Solver) : (s.withSolver f).ports = s.ports := rfl
@[simp] theorem State.withSolver_extents (s : State) (f : Solver → Solver) :
    (s.withSolver f).extents =
      s.extents := rfl
@[simp] theorem State.withSolver_rows (s : State) (f : Solver → Solver) : (s.withSolver f).rows = s.rows := rfl
@[simp] theorem State.withSolver_solver (s : State) (f : Solver → Solver) :
    (s.withSolver f).solver =
      f s.solver := rfl
@[simp] theorem State.withSolver_holds (s : State) (f : Solver → Solver) : (s.withSolver f).holds = s.holds := rfl
@[simp] theorem State.withSolver_requests (s : State) (f : Solver → Solver) :
    (s.withSolver f).requests =
      s.requests := rfl
@[simp] theorem State.withSolver_jobs (s : State) (f : Solver → Solver) : (s.withSolver f).jobs = s.jobs := rfl
@[simp] theorem State.withSolver_losses (s : State) (f : Solver → Solver) : (s.withSolver f).losses = s.losses := rfl
@[simp] theorem State.withSolver_settings (s : State) (f : Solver → Solver) :
    (s.withSolver f).settings =
      s.settings := rfl
@[simp] theorem State.withSolver_time (s : State) (f : Solver → Solver) : (s.withSolver f).time = s.time := rfl
@[simp] theorem State.withSolver_guard (s : State) (f : Solver → Solver) : (s.withSolver f).guard = s.guard := rfl
@[simp] theorem State.withSolver_board (s : State) (f : Solver → Solver) : (s.withSolver f).board = s.board := rfl
@[simp] theorem State.withSolver_pending (s : State) (f : Solver → Solver) :
    (s.withSolver f).pending =
      s.pending := rfl

/-! ## withHolds -/

@[simp] theorem State.withHolds_ports (s : State) (f : HoldTable → HoldTable) : (s.withHolds f).ports = s.ports := rfl
@[simp] theorem State.withHolds_extents (s : State) (f : HoldTable → HoldTable) :
    (s.withHolds f).extents =
      s.extents := rfl
@[simp] theorem State.withHolds_rows (s : State) (f : HoldTable → HoldTable) : (s.withHolds f).rows = s.rows := rfl
@[simp] theorem State.withHolds_solver (s : State) (f : HoldTable → HoldTable) :
    (s.withHolds f).solver =
      s.solver := rfl
@[simp] theorem State.withHolds_holds (s : State) (f : HoldTable → HoldTable) :
    (s.withHolds f).holds =
      f s.holds := rfl
@[simp] theorem State.withHolds_requests (s : State) (f : HoldTable → HoldTable) :
    (s.withHolds f).requests =
      s.requests := rfl
@[simp] theorem State.withHolds_jobs (s : State) (f : HoldTable → HoldTable) : (s.withHolds f).jobs = s.jobs := rfl
@[simp] theorem State.withHolds_losses (s : State) (f : HoldTable → HoldTable) :
    (s.withHolds f).losses =
      s.losses := rfl
@[simp] theorem State.withHolds_settings (s : State) (f : HoldTable → HoldTable) :
    (s.withHolds f).settings =
      s.settings := rfl
@[simp] theorem State.withHolds_time (s : State) (f : HoldTable → HoldTable) : (s.withHolds f).time = s.time := rfl
@[simp] theorem State.withHolds_guard (s : State) (f : HoldTable → HoldTable) : (s.withHolds f).guard = s.guard := rfl
@[simp] theorem State.withHolds_board (s : State) (f : HoldTable → HoldTable) : (s.withHolds f).board = s.board := rfl
@[simp] theorem State.withHolds_pending (s : State) (f : HoldTable → HoldTable) :
    (s.withHolds f).pending =
      s.pending := rfl

/-! ## withRequests -/

@[simp] theorem State.withRequests_ports (s : State) (f : List ForegroundRequest → List ForegroundRequest) :
    (s.withRequests f).ports =
      s.ports := rfl
@[simp] theorem State.withRequests_extents (s : State) (f : List ForegroundRequest → List ForegroundRequest) :
    (s.withRequests f).extents =
      s.extents := rfl
@[simp] theorem State.withRequests_rows (s : State) (f : List ForegroundRequest → List ForegroundRequest) :
    (s.withRequests f).rows =
      s.rows := rfl
@[simp] theorem State.withRequests_solver (s : State) (f : List ForegroundRequest → List ForegroundRequest) :
    (s.withRequests f).solver =
      s.solver := rfl
@[simp] theorem State.withRequests_holds (s : State) (f : List ForegroundRequest → List ForegroundRequest) :
    (s.withRequests f).holds =
      s.holds := rfl
@[simp] theorem State.withRequests_requests (s : State) (f : List ForegroundRequest → List ForegroundRequest) :
    (s.withRequests f).requests =
      f s.requests := rfl
@[simp] theorem State.withRequests_jobs (s : State) (f : List ForegroundRequest → List ForegroundRequest) :
    (s.withRequests f).jobs =
      s.jobs := rfl
@[simp] theorem State.withRequests_losses (s : State) (f : List ForegroundRequest → List ForegroundRequest) :
    (s.withRequests f).losses =
      s.losses := rfl
@[simp] theorem State.withRequests_settings (s : State) (f : List ForegroundRequest → List ForegroundRequest) :
    (s.withRequests f).settings =
      s.settings := rfl
@[simp] theorem State.withRequests_time (s : State) (f : List ForegroundRequest → List ForegroundRequest) :
    (s.withRequests f).time =
      s.time := rfl
@[simp] theorem State.withRequests_guard (s : State) (f : List ForegroundRequest → List ForegroundRequest) :
    (s.withRequests f).guard =
      s.guard := rfl
@[simp] theorem State.withRequests_board (s : State) (f : List ForegroundRequest → List ForegroundRequest) :
    (s.withRequests f).board =
      s.board := rfl
@[simp] theorem State.withRequests_pending (s : State) (f : List ForegroundRequest → List ForegroundRequest) :
    (s.withRequests f).pending =
      s.pending := rfl

/-! ## withLosses -/

@[simp] theorem State.withLosses_ports (s : State) (f : LossList → LossList) : (s.withLosses f).ports = s.ports := rfl
@[simp] theorem State.withLosses_extents (s : State) (f : LossList → LossList) :
    (s.withLosses f).extents =
      s.extents := rfl
@[simp] theorem State.withLosses_rows (s : State) (f : LossList → LossList) : (s.withLosses f).rows = s.rows := rfl
@[simp] theorem State.withLosses_solver (s : State) (f : LossList → LossList) :
    (s.withLosses f).solver =
      s.solver := rfl
@[simp] theorem State.withLosses_holds (s : State) (f : LossList → LossList) : (s.withLosses f).holds = s.holds := rfl
@[simp] theorem State.withLosses_requests (s : State) (f : LossList → LossList) :
    (s.withLosses f).requests =
      s.requests := rfl
@[simp] theorem State.withLosses_jobs (s : State) (f : LossList → LossList) : (s.withLosses f).jobs = s.jobs := rfl
@[simp] theorem State.withLosses_losses (s : State) (f : LossList → LossList) :
    (s.withLosses f).losses =
      f s.losses := rfl
@[simp] theorem State.withLosses_settings (s : State) (f : LossList → LossList) :
    (s.withLosses f).settings =
      s.settings := rfl
@[simp] theorem State.withLosses_time (s : State) (f : LossList → LossList) : (s.withLosses f).time = s.time := rfl
@[simp] theorem State.withLosses_guard (s : State) (f : LossList → LossList) : (s.withLosses f).guard = s.guard := rfl
@[simp] theorem State.withLosses_board (s : State) (f : LossList → LossList) : (s.withLosses f).board = s.board := rfl
@[simp] theorem State.withLosses_pending (s : State) (f : LossList → LossList) :
    (s.withLosses f).pending =
      s.pending := rfl

/-! ## withSettings -/

@[simp] theorem State.withSettings_ports (s : State) (f : Settings → Settings) :
    (s.withSettings f).ports =
      s.ports := rfl
@[simp] theorem State.withSettings_extents (s : State) (f : Settings → Settings) :
    (s.withSettings f).extents =
      s.extents := rfl
@[simp] theorem State.withSettings_rows (s : State) (f : Settings → Settings) :
    (s.withSettings f).rows =
      s.rows := rfl
@[simp] theorem State.withSettings_solver (s : State) (f : Settings → Settings) :
    (s.withSettings f).solver =
      s.solver := rfl
@[simp] theorem State.withSettings_holds (s : State) (f : Settings → Settings) :
    (s.withSettings f).holds =
      s.holds := rfl
@[simp] theorem State.withSettings_requests (s : State) (f : Settings → Settings) :
    (s.withSettings f).requests =
      s.requests := rfl
@[simp] theorem State.withSettings_jobs (s : State) (f : Settings → Settings) :
    (s.withSettings f).jobs =
      s.jobs := rfl
@[simp] theorem State.withSettings_losses (s : State) (f : Settings → Settings) :
    (s.withSettings f).losses =
      s.losses := rfl
@[simp] theorem State.withSettings_settings (s : State) (f : Settings → Settings) :
    (s.withSettings f).settings =
      f s.settings := rfl
@[simp] theorem State.withSettings_time (s : State) (f : Settings → Settings) :
    (s.withSettings f).time =
      s.time := rfl
@[simp] theorem State.withSettings_guard (s : State) (f : Settings → Settings) :
    (s.withSettings f).guard =
      s.guard := rfl
@[simp] theorem State.withSettings_board (s : State) (f : Settings → Settings) :
    (s.withSettings f).board =
      s.board := rfl
@[simp] theorem State.withSettings_pending (s : State) (f : Settings → Settings) :
    (s.withSettings f).pending =
      s.pending := rfl

/-! ## withTime -/

@[simp] theorem State.withTime_ports (s : State) (f : TimeBase → TimeBase) : (s.withTime f).ports = s.ports := rfl
@[simp] theorem State.withTime_extents (s : State) (f : TimeBase → TimeBase) :
    (s.withTime f).extents =
      s.extents := rfl
@[simp] theorem State.withTime_rows (s : State) (f : TimeBase → TimeBase) : (s.withTime f).rows = s.rows := rfl
@[simp] theorem State.withTime_solver (s : State) (f : TimeBase → TimeBase) : (s.withTime f).solver = s.solver := rfl
@[simp] theorem State.withTime_holds (s : State) (f : TimeBase → TimeBase) : (s.withTime f).holds = s.holds := rfl
@[simp] theorem State.withTime_requests (s : State) (f : TimeBase → TimeBase) :
    (s.withTime f).requests =
      s.requests := rfl
@[simp] theorem State.withTime_jobs (s : State) (f : TimeBase → TimeBase) : (s.withTime f).jobs = s.jobs := rfl
@[simp] theorem State.withTime_losses (s : State) (f : TimeBase → TimeBase) : (s.withTime f).losses = s.losses := rfl
@[simp] theorem State.withTime_settings (s : State) (f : TimeBase → TimeBase) :
    (s.withTime f).settings =
      s.settings := rfl
@[simp] theorem State.withTime_time (s : State) (f : TimeBase → TimeBase) : (s.withTime f).time = f s.time := rfl
@[simp] theorem State.withTime_guard (s : State) (f : TimeBase → TimeBase) : (s.withTime f).guard = s.guard := rfl
@[simp] theorem State.withTime_board (s : State) (f : TimeBase → TimeBase) : (s.withTime f).board = s.board := rfl
@[simp] theorem State.withTime_pending (s : State) (f : TimeBase → TimeBase) :
    (s.withTime f).pending =
      s.pending := rfl

/-! ## withGuard -/

@[simp] theorem State.withGuard_ports (s : State) (f : LoadGuard → LoadGuard) : (s.withGuard f).ports = s.ports := rfl
@[simp] theorem State.withGuard_extents (s : State) (f : LoadGuard → LoadGuard) :
    (s.withGuard f).extents =
      s.extents := rfl
@[simp] theorem State.withGuard_rows (s : State) (f : LoadGuard → LoadGuard) : (s.withGuard f).rows = s.rows := rfl
@[simp] theorem State.withGuard_solver (s : State) (f : LoadGuard → LoadGuard) :
    (s.withGuard f).solver =
      s.solver := rfl
@[simp] theorem State.withGuard_holds (s : State) (f : LoadGuard → LoadGuard) : (s.withGuard f).holds = s.holds := rfl
@[simp] theorem State.withGuard_requests (s : State) (f : LoadGuard → LoadGuard) :
    (s.withGuard f).requests =
      s.requests := rfl
@[simp] theorem State.withGuard_jobs (s : State) (f : LoadGuard → LoadGuard) : (s.withGuard f).jobs = s.jobs := rfl
@[simp] theorem State.withGuard_losses (s : State) (f : LoadGuard → LoadGuard) :
    (s.withGuard f).losses =
      s.losses := rfl
@[simp] theorem State.withGuard_settings (s : State) (f : LoadGuard → LoadGuard) :
    (s.withGuard f).settings =
      s.settings := rfl
@[simp] theorem State.withGuard_time (s : State) (f : LoadGuard → LoadGuard) : (s.withGuard f).time = s.time := rfl
@[simp] theorem State.withGuard_guard (s : State) (f : LoadGuard → LoadGuard) :
    (s.withGuard f).guard =
      f s.guard := rfl
@[simp] theorem State.withGuard_board (s : State) (f : LoadGuard → LoadGuard) : (s.withGuard f).board = s.board := rfl
@[simp] theorem State.withGuard_pending (s : State) (f : LoadGuard → LoadGuard) :
    (s.withGuard f).pending =
      s.pending := rfl

/-! ## withBoard -/

@[simp] theorem State.withBoard_ports (s : State) (f : Board → Board) : (s.withBoard f).ports = s.ports := rfl
@[simp] theorem State.withBoard_extents (s : State) (f : Board → Board) : (s.withBoard f).extents = s.extents := rfl
@[simp] theorem State.withBoard_rows (s : State) (f : Board → Board) : (s.withBoard f).rows = s.rows := rfl
@[simp] theorem State.withBoard_solver (s : State) (f : Board → Board) : (s.withBoard f).solver = s.solver := rfl
@[simp] theorem State.withBoard_holds (s : State) (f : Board → Board) : (s.withBoard f).holds = s.holds := rfl
@[simp] theorem State.withBoard_requests (s : State) (f : Board → Board) :
    (s.withBoard f).requests =
      s.requests := rfl
@[simp] theorem State.withBoard_jobs (s : State) (f : Board → Board) : (s.withBoard f).jobs = s.jobs := rfl
@[simp] theorem State.withBoard_losses (s : State) (f : Board → Board) : (s.withBoard f).losses = s.losses := rfl
@[simp] theorem State.withBoard_settings (s : State) (f : Board → Board) :
    (s.withBoard f).settings =
      s.settings := rfl
@[simp] theorem State.withBoard_time (s : State) (f : Board → Board) : (s.withBoard f).time = s.time := rfl
@[simp] theorem State.withBoard_guard (s : State) (f : Board → Board) : (s.withBoard f).guard = s.guard := rfl
@[simp] theorem State.withBoard_board (s : State) (f : Board → Board) : (s.withBoard f).board = f s.board := rfl
@[simp] theorem State.withBoard_pending (s : State) (f : Board → Board) : (s.withBoard f).pending = s.pending := rfl

/-! ## setContext -/

@[simp] theorem State.setContext_ports (s : State) (c : ContextId) (op : Option Operation) :
    (s.setContext c op).ports =
      s.ports := rfl
@[simp] theorem State.setContext_extents (s : State) (c : ContextId) (op : Option Operation) :
    (s.setContext c op).extents =
      s.extents := rfl
@[simp] theorem State.setContext_rows (s : State) (c : ContextId) (op : Option Operation) :
    (s.setContext c op).rows =
      { s.rows with contexts := bankModify s.rows.contexts c fun _ => op } := rfl
@[simp] theorem State.setContext_solver (s : State) (c : ContextId) (op : Option Operation) :
    (s.setContext c op).solver =
      s.solver := rfl
@[simp] theorem State.setContext_holds (s : State) (c : ContextId) (op : Option Operation) :
    (s.setContext c op).holds =
      s.holds := rfl
@[simp] theorem State.setContext_requests (s : State) (c : ContextId) (op : Option Operation) :
    (s.setContext c op).requests =
      s.requests := rfl
@[simp] theorem State.setContext_jobs (s : State) (c : ContextId) (op : Option Operation) :
    (s.setContext c op).jobs =
      s.jobs := rfl
@[simp] theorem State.setContext_losses (s : State) (c : ContextId) (op : Option Operation) :
    (s.setContext c op).losses =
      s.losses := rfl
@[simp] theorem State.setContext_settings (s : State) (c : ContextId) (op : Option Operation) :
    (s.setContext c op).settings =
      s.settings := rfl
@[simp] theorem State.setContext_time (s : State) (c : ContextId) (op : Option Operation) :
    (s.setContext c op).time =
      s.time := rfl
@[simp] theorem State.setContext_guard (s : State) (c : ContextId) (op : Option Operation) :
    (s.setContext c op).guard =
      s.guard := rfl
@[simp] theorem State.setContext_board (s : State) (c : ContextId) (op : Option Operation) :
    (s.setContext c op).board =
      s.board := rfl
@[simp] theorem State.setContext_pending (s : State) (c : ContextId) (op : Option Operation) :
    (s.setContext c op).pending =
      s.pending := rfl

/-! ## withOperation -/

@[simp] theorem State.withOperation_ports (s : State) (c : ContextId) (f : Operation → Operation) :
    (s.withOperation c f).ports =
      s.ports := rfl
@[simp] theorem State.withOperation_extents (s : State) (c : ContextId) (f : Operation → Operation) :
    (s.withOperation c f).extents =
      s.extents := rfl
@[simp] theorem State.withOperation_rows (s : State) (c : ContextId) (f : Operation → Operation) :
    (s.withOperation c f).rows =
      { s.rows with contexts := bankModify s.rows.contexts c fun op => op.map f } := rfl
@[simp] theorem State.withOperation_solver (s : State) (c : ContextId) (f : Operation → Operation) :
    (s.withOperation c f).solver =
      s.solver := rfl
@[simp] theorem State.withOperation_holds (s : State) (c : ContextId) (f : Operation → Operation) :
    (s.withOperation c f).holds =
      s.holds := rfl
@[simp] theorem State.withOperation_requests (s : State) (c : ContextId) (f : Operation → Operation) :
    (s.withOperation c f).requests =
      s.requests := rfl
@[simp] theorem State.withOperation_jobs (s : State) (c : ContextId) (f : Operation → Operation) :
    (s.withOperation c f).jobs =
      s.jobs := rfl
@[simp] theorem State.withOperation_losses (s : State) (c : ContextId) (f : Operation → Operation) :
    (s.withOperation c f).losses =
      s.losses := rfl
@[simp] theorem State.withOperation_settings (s : State) (c : ContextId) (f : Operation → Operation) :
    (s.withOperation c f).settings =
      s.settings := rfl
@[simp] theorem State.withOperation_time (s : State) (c : ContextId) (f : Operation → Operation) :
    (s.withOperation c f).time =
      s.time := rfl
@[simp] theorem State.withOperation_guard (s : State) (c : ContextId) (f : Operation → Operation) :
    (s.withOperation c f).guard =
      s.guard := rfl
@[simp] theorem State.withOperation_board (s : State) (c : ContextId) (f : Operation → Operation) :
    (s.withOperation c f).board =
      s.board := rfl
@[simp] theorem State.withOperation_pending (s : State) (c : ContextId) (f : Operation → Operation) :
    (s.withOperation c f).pending =
      s.pending := rfl

/-! ## askPublish -/

@[simp] theorem State.askPublish_ports (s : State) : s.askPublish.ports = s.ports := rfl
@[simp] theorem State.askPublish_extents (s : State) : s.askPublish.extents = s.extents := rfl
@[simp] theorem State.askPublish_rows (s : State) : s.askPublish.rows = s.rows := rfl
@[simp] theorem State.askPublish_solver (s : State) : s.askPublish.solver = s.solver := rfl
@[simp] theorem State.askPublish_holds (s : State) : s.askPublish.holds = s.holds := rfl
@[simp] theorem State.askPublish_requests (s : State) : s.askPublish.requests = s.requests := rfl
@[simp] theorem State.askPublish_jobs (s : State) : s.askPublish.jobs = s.jobs := rfl
@[simp] theorem State.askPublish_losses (s : State) : s.askPublish.losses = s.losses := rfl
@[simp] theorem State.askPublish_settings (s : State) : s.askPublish.settings = s.settings := rfl
@[simp] theorem State.askPublish_time (s : State) : s.askPublish.time = s.time := rfl
@[simp] theorem State.askPublish_guard (s : State) : s.askPublish.guard = s.guard := rfl
@[simp] theorem State.askPublish_board (s : State) : s.askPublish.board = { s.board with publishAsked := true } := rfl
@[simp] theorem State.askPublish_pending (s : State) : s.askPublish.pending = s.pending := rfl

/-! ## answer -/

@[simp] theorem State.answer_ports (s : State) (i : SlipId) (st : Status) (r : Reason) (b : List BodyField) :
    (s.answer i st r b).ports =
      s.ports := rfl
@[simp] theorem State.answer_extents (s : State) (i : SlipId) (st : Status) (r : Reason) (b : List BodyField) :
    (s.answer i st r b).extents =
      s.extents := rfl
@[simp] theorem State.answer_rows (s : State) (i : SlipId) (st : Status) (r : Reason) (b : List BodyField) :
    (s.answer i st r b).rows =
      s.rows := rfl
@[simp] theorem State.answer_solver (s : State) (i : SlipId) (st : Status) (r : Reason) (b : List BodyField) :
    (s.answer i st r b).solver =
      s.solver := rfl
@[simp] theorem State.answer_holds (s : State) (i : SlipId) (st : Status) (r : Reason) (b : List BodyField) :
    (s.answer i st r b).holds =
      s.holds := rfl
@[simp] theorem State.answer_requests (s : State) (i : SlipId) (st : Status) (r : Reason) (b : List BodyField) :
    (s.answer i st r b).requests =
      s.requests := rfl
@[simp] theorem State.answer_jobs (s : State) (i : SlipId) (st : Status) (r : Reason) (b : List BodyField) :
    (s.answer i st r b).jobs =
      s.jobs := rfl
@[simp] theorem State.answer_losses (s : State) (i : SlipId) (st : Status) (r : Reason) (b : List BodyField) :
    (s.answer i st r b).losses =
      s.losses := rfl
@[simp] theorem State.answer_settings (s : State) (i : SlipId) (st : Status) (r : Reason) (b : List BodyField) :
    (s.answer i st r b).settings =
      s.settings := rfl
@[simp] theorem State.answer_time (s : State) (i : SlipId) (st : Status) (r : Reason) (b : List BodyField) :
    (s.answer i st r b).time =
      s.time := rfl
@[simp] theorem State.answer_guard (s : State) (i : SlipId) (st : Status) (r : Reason) (b : List BodyField) :
    (s.answer i st r b).guard =
      s.guard := rfl
@[simp] theorem State.answer_board (s : State) (i : SlipId) (st : Status) (r : Reason) (b : List BodyField) :
    (s.answer i st r b).board =
      { s.board with answers := s.board.answers ++ [{ slip := i, status := st, reason := r, body := b }] } := rfl
@[simp] theorem State.answer_pending (s : State) (i : SlipId) (st : Status) (r : Reason) (b : List BodyField) :
    (s.answer i st r b).pending =
      s.pending := rfl

/-! ## answerJob -/

@[simp] theorem State.answerJob_ports (s : State) (i : SlipId) (st : Status) (c : ControlAnswer) :
    (s.answerJob i st c).ports =
      s.ports := rfl
@[simp] theorem State.answerJob_extents (s : State) (i : SlipId) (st : Status) (c : ControlAnswer) :
    (s.answerJob i st c).extents =
      s.extents := rfl
@[simp] theorem State.answerJob_rows (s : State) (i : SlipId) (st : Status) (c : ControlAnswer) :
    (s.answerJob i st c).rows =
      s.rows := rfl
@[simp] theorem State.answerJob_solver (s : State) (i : SlipId) (st : Status) (c : ControlAnswer) :
    (s.answerJob i st c).solver =
      s.solver := rfl
@[simp] theorem State.answerJob_holds (s : State) (i : SlipId) (st : Status) (c : ControlAnswer) :
    (s.answerJob i st c).holds =
      s.holds := rfl
@[simp] theorem State.answerJob_requests (s : State) (i : SlipId) (st : Status) (c : ControlAnswer) :
    (s.answerJob i st c).requests =
      s.requests := rfl
@[simp] theorem State.answerJob_jobs (s : State) (i : SlipId) (st : Status) (c : ControlAnswer) :
    (s.answerJob i st c).jobs =
      s.jobs := rfl
@[simp] theorem State.answerJob_losses (s : State) (i : SlipId) (st : Status) (c : ControlAnswer) :
    (s.answerJob i st c).losses =
      s.losses := rfl
@[simp] theorem State.answerJob_settings (s : State) (i : SlipId) (st : Status) (c : ControlAnswer) :
    (s.answerJob i st c).settings =
      s.settings := rfl
@[simp] theorem State.answerJob_time (s : State) (i : SlipId) (st : Status) (c : ControlAnswer) :
    (s.answerJob i st c).time =
      s.time := rfl
@[simp] theorem State.answerJob_guard (s : State) (i : SlipId) (st : Status) (c : ControlAnswer) :
    (s.answerJob i st c).guard =
      s.guard := rfl
@[simp] theorem State.answerJob_pending (s : State) (i : SlipId) (st : Status) (c : ControlAnswer) :
    (s.answerJob i st c).pending =
      s.pending := rfl
@[simp] theorem State.answerJob_board (s : State) (i : SlipId) (st : Status) (c : ControlAnswer) :
    (s.answerJob i st c).board =
      { s.board with
        answers := s.board.answers ++ [{ slip := i, status := st, reason := .none, body := [], control := some c }] } :=
  rfl

/-! ## refuse -/

@[simp] theorem State.refuse_ports (s : State) (i : SlipId) (r : Reason) : (s.refuse i r).ports = s.ports := rfl
@[simp] theorem State.refuse_extents (s : State) (i : SlipId) (r : Reason) : (s.refuse i r).extents = s.extents := rfl
@[simp] theorem State.refuse_rows (s : State) (i : SlipId) (r : Reason) : (s.refuse i r).rows = s.rows := rfl
@[simp] theorem State.refuse_solver (s : State) (i : SlipId) (r : Reason) : (s.refuse i r).solver = s.solver := rfl
@[simp] theorem State.refuse_holds (s : State) (i : SlipId) (r : Reason) : (s.refuse i r).holds = s.holds := rfl
@[simp] theorem State.refuse_requests (s : State) (i : SlipId) (r : Reason) :
    (s.refuse i r).requests =
      s.requests := rfl
@[simp] theorem State.refuse_jobs (s : State) (i : SlipId) (r : Reason) : (s.refuse i r).jobs = s.jobs := rfl
@[simp] theorem State.refuse_losses (s : State) (i : SlipId) (r : Reason) : (s.refuse i r).losses = s.losses := rfl
@[simp] theorem State.refuse_settings (s : State) (i : SlipId) (r : Reason) :
    (s.refuse i r).settings =
      s.settings := rfl
@[simp] theorem State.refuse_time (s : State) (i : SlipId) (r : Reason) : (s.refuse i r).time = s.time := rfl
@[simp] theorem State.refuse_guard (s : State) (i : SlipId) (r : Reason) : (s.refuse i r).guard = s.guard := rfl
@[simp] theorem State.refuse_board (s : State) (i : SlipId) (r : Reason) :
    (s.refuse i r).board =
      { s.board with answers := s.board.answers ++ [{ slip := i, status := .refused, reason := r, body := [] }] } := rfl
@[simp] theorem State.refuse_pending (s : State) (i : SlipId) (r : Reason) : (s.refuse i r).pending = s.pending := rfl

end Sys2Proof.Machine
end

