-- ==== Sys2Proof/Laws/Bank.lean ====
section
/-! SUPPORT. Laws/Bank.lean: numbered banks: what an entry reads after one entry, or every entry, is changed. -/

namespace Sys2Proof.Machine

/-! ## One entry -/

theorem bankModify_getElem {α : Type} {n : Nat} (v : Vector α n) (i j : Fin n) (f : α → α) :
    (bankModify v i f)[j.val] = if i = j then f v[j.val] else v[j.val] := by
  unfold bankModify
  by_cases h : i = j
  · subst h; simp
  · have : i.val ≠ j.val := fun e => h (Fin.ext e)
    simp [h, this]

@[simp] theorem bankModify_getElem_self {α : Type} {n : Nat} (v : Vector α n) (i : Fin n) (f : α → α) :
    (bankModify v i f)[i.val] = f v[i.val] := by simp [bankModify_getElem]

theorem bankModify_getElem_other {α : Type} {n : Nat} (v : Vector α n) {i j : Fin n} (f : α → α) (h : i ≠ j) :
    (bankModify v i f)[j.val] = v[j.val] := by simp [bankModify_getElem, h]

/-! ## Every entry -/

@[simp] theorem bankMap_getElem {α : Type} {n : Nat} (f : α → α) (v : Vector α n) (j : Fin n) :
    (bankMap f v)[j.val] = f v[j.val] := by
  rcases v with ⟨⟨l⟩, h⟩
  simp [bankMap]

/-- Two banks with the same entries are the same. -/
theorem bank_ext {α : Type} {n : Nat} {v w : Vector α n} (h : ∀ j : Fin n, v[j.val] = w[j.val]) : v = w := by
  apply Vector.ext
  intro i hi
  exact h ⟨i, hi⟩

/-! ## Indices -/

@[simp] theorem mem_bankIndices : ∀ {n : Nat} (i : Fin n), i ∈ bankIndices n
  | 0, i => i.elim0
  | n + 1, i => by
    refine Fin.cases ?_ (fun j => ?_) i
    · simp [bankIndices]
    · simp only [bankIndices, List.mem_cons, List.mem_map]
      exact .inr ⟨j, mem_bankIndices j, rfl⟩

/-! ## The entries of a state -/

theorem State.port_withPort (s : State) (p q : PortId) (f : Port → Port) :
    (s.withPort p f).port q = if p = q then f (s.port q) else s.port q := bankModify_getElem _ _ _ _

@[simp] theorem State.port_withPort_self (s : State) (p : PortId) (f : Port → Port) :
    (s.withPort p f).port p = f (s.port p) := by simp [State.port_withPort]

theorem State.extent_withExtent (s : State) (e x : ExtentId) (f : Extent → Extent) :
    (s.withExtent e f).extent x = if e = x then f (s.extent x) else s.extent x := bankModify_getElem _ _ _ _

@[simp] theorem State.extent_withExtent_self (s : State) (e : ExtentId) (f : Extent → Extent) :
    (s.withExtent e f).extent e = f (s.extent e) := by simp [State.extent_withExtent]

theorem State.job_withJob (s : State) (j k : JobId) (f : Job → Job) :
    (s.withJob j f).job k = if j = k then f (s.job k) else s.job k := bankModify_getElem _ _ _ _

@[simp] theorem State.job_withJob_self (s : State) (j : JobId) (f : Job → Job) :
    (s.withJob j f).job j = f (s.job j) := by simp [State.job_withJob]

theorem State.context_setContext (s : State) (c d : ContextId) (op : Option Operation) :
    (s.setContext c op).context d = if c = d then op else s.context d := bankModify_getElem _ _ _ _

@[simp] theorem State.context_setContext_self (s : State) (c : ContextId) (op : Option Operation) :
    (s.setContext c op).context c = op := by simp [State.context_setContext]

theorem State.context_withOperation (s : State) (c d : ContextId) (f : Operation → Operation) :
    (s.withOperation c f).context d = if c = d then (s.context d).map f else s.context d :=
  bankModify_getElem _ _ _ _

@[simp] theorem State.context_withOperation_self (s : State) (c : ContextId) (f : Operation → Operation) :
    (s.withOperation c f).context c = (s.context c).map f := by simp [State.context_withOperation]

end Sys2Proof.Machine
end

