-- ==== Sys2Proof/Laws/Block.lean ====
section
/-! SUPPORT. Laws/Block.lean: every operation on the contents of a block keeps their canonical form, and what each does to
the byte at a place. -/

namespace Sys2Proof

/-! ## The canonical form -/

theorem Block.wfFrom_cons (low place : Nat) (value : Byte) (rest : Block) :
    Block.wfFrom low ((place, value) :: rest) = true ↔
      low ≤ place ∧ place < Config.blockBytes ∧ value ≠ 0 ∧ Block.wfFrom (place + 1) rest = true := by
  simp [Block.wfFrom, and_assoc]

/-- A block whose places rise from one place rises from every lower one. -/
theorem Block.wfFrom_mono {low high : Nat} {b : Block} (le : low ≤ high) (h : Block.wfFrom high b = true) :
    Block.wfFrom low b = true := by
  cases b with
  | nil => rfl
  | cons x rest =>
    obtain ⟨place, value⟩ := x
    rw [Block.wfFrom_cons] at h ⊢
    exact ⟨le.trans h.1, h.2⟩

theorem Block.void_wf : Block.void.wf = true := rfl

theorem Block.map_wfFrom (f : Byte → Byte) {low : Nat} {b : Block} (h : Block.wfFrom low b = true) :
    Block.wfFrom low (Block.map f b) = true := by
  induction b generalizing low with
  | nil => rfl
  | cons x rest ih =>
    obtain ⟨place, value⟩ := x
    rw [Block.wfFrom_cons] at h
    unfold Block.map
    split
    · exact ih (Block.wfFrom_mono (by omega) h.2.2.2)
    · exact (Block.wfFrom_cons _ _ _ _).mpr ⟨h.1, h.2.1, ‹_›, ih h.2.2.2⟩

theorem Block.xorHead_wfFrom {p : Host.Cell} {tail : Block} {f : Block → Block}
    (hf : ∀ {low : Nat} {b : Block}, Block.wfFrom low tail = true → Block.wfFrom low b = true →
      Block.wfFrom low (f b) = true)
    {low : Nat} {b : Block} (ha : Block.wfFrom low (p :: tail) = true) (hb : Block.wfFrom low b = true) :
    Block.wfFrom low (Block.xorHead p tail f b) = true := by
  obtain ⟨pp, pv⟩ := p
  induction b generalizing low with
  | nil => exact ha
  | cons q rest ih =>
    obtain ⟨qp, qv⟩ := q
    have hp := (Block.wfFrom_cons _ _ _ _).mp ha
    have hq := (Block.wfFrom_cons _ _ _ _).mp hb
    unfold Block.xorHead
    split
    · exact (Block.wfFrom_cons _ _ _ _).mpr
        ⟨hp.1, hp.2.1, hp.2.2.1, hf hp.2.2.2 ((Block.wfFrom_cons _ _ _ _).mpr ⟨by simpa using ‹pp < qp›, hq.2⟩)⟩
    · split
      · exact (Block.wfFrom_cons _ _ _ _).mpr
          ⟨hq.1, hq.2.1, hq.2.2.1,
            ih hq.2.2.2 ((Block.wfFrom_cons _ _ _ _).mpr ⟨Nat.succ_le_of_lt ‹qp < pp›, hp.2⟩)⟩
      · have same : pp = qp := by simp at *; omega
        subst same
        split
        · exact hf (Block.wfFrom_mono (by omega) hp.2.2.2) (Block.wfFrom_mono (by omega) hq.2.2.2)
        · exact (Block.wfFrom_cons _ _ _ _).mpr ⟨hp.1, hp.2.1, ‹_›, hf hp.2.2.2 hq.2.2.2⟩

theorem Block.xor_wfFrom {low : Nat} {a b : Block} (ha : Block.wfFrom low a = true) (hb : Block.wfFrom low b = true) :
    Block.wfFrom low (a.xor b) = true := by
  induction a generalizing low b with
  | nil => exact hb
  | cons p tail ih => exact Block.xorHead_wfFrom (fun h => ih h) ha hb

/-- The sum of two blocks in canonical form is in canonical form. -/
theorem Block.xor_wf {a b : Block} (ha : a.wf = true) (hb : b.wf = true) : (a.xor b).wf = true := Block.xor_wfFrom ha hb

/-- The sum of blocks in canonical form is in canonical form. -/
theorem Block.sum_wf {bs : List Block} (h : ∀ b ∈ bs, b.wf = true) : (Block.sum bs).wf = true := by
  suffices ∀ (acc : Block), acc.wf = true → (bs.foldl Block.xor acc).wf = true from this _ Block.void_wf
  induction bs with
  | nil => exact fun _ h => h
  | cons b rest ih =>
    exact fun acc ha => ih (fun x hx => h x (List.mem_cons_of_mem _ hx)) _ (Block.xor_wf ha (h b List.mem_cons_self))

theorem Block.map_wf (f : Byte → Byte) {b : Block} (h : b.wf = true) : (Block.map f b).wf = true := Block.map_wfFrom f h

theorem Block.scale_wf (c : Byte) {b : Block} (h : b.wf = true) : (Block.scale c b).wf = true := Block.map_wf _ h

theorem Block.divide_wf (c : Byte) {b : Block} (h : b.wf = true) : (b.divide c).wf = true := Block.map_wf _ h

/-! ## The byte at a place -/

/-- A place below the first that may be listed reads 00h. -/
theorem Block.byteAt_below {low i : Nat} {b : Block} (h : Block.wfFrom low b = true) (lt : i < low) : b.byteAt i = 0 := by
  induction b generalizing low with
  | nil => rfl
  | cons x rest ih =>
    obtain ⟨place, value⟩ := x
    rw [Block.wfFrom_cons] at h
    unfold Block.byteAt
    rw [if_neg (by omega)]
    exact ih h.2.2.2 (by omega)

/-- A function that keeps 00h is applied byte by byte. -/
theorem Block.byteAt_map {f : Byte → Byte} (zero : f 0 = 0) {low : Nat} {b : Block} (h : Block.wfFrom low b = true)
    (i : Nat) : (Block.map f b).byteAt i = f (b.byteAt i) := by
  induction b generalizing low with
  | nil => exact zero.symm
  | cons x rest ih =>
    obtain ⟨place, value⟩ := x
    rw [Block.wfFrom_cons] at h
    unfold Block.map
    split
    · rw [ih h.2.2.2]
      conv_rhs => unfold Block.byteAt
      split
      · rw [Block.byteAt_below h.2.2.2 (by omega), zero, ‹f value = 0›]
      · rfl
    · unfold Block.byteAt
      split
      · rfl
      · exact ih h.2.2.2

/-- Two blocks in canonical form with the same bytes are the same. -/
theorem Block.ext_byteAt {low : Nat} {a b : Block} (ha : Block.wfFrom low a = true) (hb : Block.wfFrom low b = true)
    (h : ∀ i, a.byteAt i = b.byteAt i) : a = b := by
  induction a generalizing low b with
  | nil =>
    cases b with
    | nil => rfl
    | cons y rest =>
      obtain ⟨q, v⟩ := y
      have := h q
      simp [Block.byteAt] at this
      exact absurd this.symm ((Block.wfFrom_cons _ _ _ _).mp hb).2.2.1
  | cons x ta ih =>
    obtain ⟨p, u⟩ := x
    have hp := (Block.wfFrom_cons _ _ _ _).mp ha
    cases b with
    | nil =>
      have := h p
      simp [Block.byteAt] at this
      exact absurd this hp.2.2.1
    | cons y tb =>
      obtain ⟨q, v⟩ := y
      have hq := (Block.wfFrom_cons _ _ _ _).mp hb
      have pq : p = q := by
        rcases Nat.lt_trichotomy p q with lt | eq | gt
        · have := h p
          rw [Block.byteAt_below (low := q) ((Block.wfFrom_cons _ _ _ _).mpr ⟨Nat.le_refl _, hq.2⟩) lt] at this
          simp [Block.byteAt] at this
          exact absurd this hp.2.2.1
        · exact eq
        · have := h q
          rw [Block.byteAt_below (low := p) ((Block.wfFrom_cons _ _ _ _).mpr ⟨Nat.le_refl _, hp.2⟩) gt] at this
          simp [Block.byteAt] at this
          exact absurd this.symm hq.2.2.1
      subst pq
      have uv : u = v := by simpa [Block.byteAt] using h p
      subst uv
      congr 1
      refine ih hp.2.2.2 hq.2.2.2 fun i => ?_
      have := h i
      unfold Block.byteAt at this
      by_cases hi : p = i
      · subst hi
        rw [Block.byteAt_below hp.2.2.2 (by omega), Block.byteAt_below hq.2.2.2 (by omega)]
      · simpa [hi] using this

theorem Block.byteAt_xorHead {p : Host.Cell} {tail : Block} {f : Block → Block}
    (hf : ∀ {low : Nat} {b : Block}, Block.wfFrom low tail = true → Block.wfFrom low b = true →
      ∀ i, (f b).byteAt i = tail.byteAt i ^^^ b.byteAt i)
    {low : Nat} {b : Block} (ha : Block.wfFrom low (p :: tail) = true) (hb : Block.wfFrom low b = true) (i : Nat) :
    (Block.xorHead p tail f b).byteAt i = Block.byteAt (p :: tail) i ^^^ b.byteAt i := by
  obtain ⟨pp, pv⟩ := p
  induction b generalizing low with
  | nil => simp [Block.xorHead, Block.byteAt]
  | cons q rest ih =>
    obtain ⟨qp, qv⟩ := q
    have hp := (Block.wfFrom_cons _ _ _ _).mp ha
    have hq := (Block.wfFrom_cons _ _ _ _).mp hb
    unfold Block.xorHead
    split
    · have up : Block.wfFrom (pp + 1) ((qp, qv) :: rest) = true :=
        (Block.wfFrom_cons _ _ _ _).mpr ⟨by simpa using ‹pp < qp›, hq.2⟩
      by_cases hi : pp = i
      · subst hi
        rw [Block.byteAt_below up (Nat.lt_succ_self _)]
        simp [Block.byteAt]
      · simp only [Block.byteAt, if_neg hi]
        simpa [Block.byteAt] using hf hp.2.2.2 up i
    · split
      · have up : Block.wfFrom (qp + 1) ((pp, pv) :: tail) = true :=
          (Block.wfFrom_cons _ _ _ _).mpr ⟨by simpa using ‹qp < pp›, hp.2⟩
        by_cases hi : qp = i
        · subst hi
          have := Block.byteAt_below up (Nat.lt_succ_self _)
          rw [this]
          simp [Block.byteAt]
        · have := ih hq.2.2.2 up
          conv_lhs => unfold Block.byteAt
          conv_rhs => rhs; unfold Block.byteAt
          rw [if_neg hi, if_neg hi]
          exact this
      · have same : pp = qp := by simp at *; omega
        subst same
        by_cases hi : pp = i
        · subst hi
          split
          · rw [hf (low := pp + 1) hp.2.2.2 hq.2.2.2, Block.byteAt_below hp.2.2.2 (by omega),
              Block.byteAt_below hq.2.2.2 (by omega)]
            simp_all [Block.byteAt]
          · simp [Block.byteAt]
        · split
          · simpa [Block.byteAt, hi] using hf (low := pp + 1) hp.2.2.2 hq.2.2.2 i
          · simpa [Block.byteAt, hi] using hf (low := pp + 1) hp.2.2.2 hq.2.2.2 i

theorem Block.byteAt_xor_from {low : Nat} {a b : Block} (ha : Block.wfFrom low a = true)
    (hb : Block.wfFrom low b = true) (i : Nat) : (a.xor b).byteAt i = a.byteAt i ^^^ b.byteAt i := by
  induction a generalizing low b i with
  | nil => simp [Block.xor, Block.byteAt]
  | cons p tail ih => exact Block.byteAt_xorHead (fun h h' i => ih h h' i) ha hb i

/-- The sum of two blocks is taken byte by byte (R42). -/
theorem Block.byteAt_xor {a b : Block} (ha : a.wf = true) (hb : b.wf = true) (i : Nat) :
    (a.xor b).byteAt i = a.byteAt i ^^^ b.byteAt i := Block.byteAt_xor_from ha hb i

/-! ## What a row's solve holds -/

namespace Machine

theorem dataSum_wf (k : Nat) (skip : List Nat) {d : Nat → Block} (h : ∀ j, j < k → (d j).wf = true) :
    (dataSum k skip d).wf = true := by
  refine Block.sum_wf fun b hb => ?_
  obtain ⟨j, hj, rfl⟩ := List.mem_map.mp hb
  exact h j (List.mem_range.mp (List.mem_filter.mp hj).1)

theorem weightedSum_wf (k : Nat) (skip : List Nat) {d : Nat → Block} (h : ∀ j, j < k → (d j).wf = true) :
    (weightedSum k skip d).wf = true := by
  refine Block.sum_wf fun b hb => ?_
  obtain ⟨j, hj, rfl⟩ := List.mem_map.mp hb
  exact Block.scale_wf _ (h j (List.mem_range.mp (List.mem_filter.mp hj).1))

/-- What the solver restores is in canonical form where what it is given is. -/
theorem restoreData_wf (k : Nat) (erased : List Nat) (noP : Bool) {p q : Block} {d : Nat → Block} (x : Nat)
    (hp : p.wf = true) (hq : q.wf = true) (hd : ∀ j, j < k → (d j).wf = true) :
    (restoreData k erased noP p q d x).wf = true := by
  have lower : ∀ a b, (restoreLower k a b p q d).wf = true := fun a b =>
    Block.divide_wf _ (Block.xor_wf (Block.xor_wf hq (weightedSum_wf k _ hd))
      (Block.scale_wf _ (Block.xor_wf hp (dataSum_wf k _ hd))))
  have fromP : (restoreFromP k x p d).wf = true := Block.xor_wf hp (dataSum_wf k _ hd)
  have fromQ : (restoreFromQ k x q d).wf = true := Block.scale_wf _ (Block.xor_wf hq (weightedSum_wf k _ hd))
  unfold restoreData
  split
  · split
    · exact lower _ _
    · exact Block.xor_wf (Block.xor_wf hp (dataSum_wf k _ hd)) (lower _ _)
  · split
    · exact fromQ
    · exact fromP

end Machine

end Sys2Proof
end

