-- ==== Sys2Proof/Laws/Kept.lean ====
section
/-! SUPPORT. Laws/Kept.lean: what no shared operation on ports, jobs and row operations can reach. Each leaves the loss
list, the settings, the time base, the load guard, the commands waiting, and of the board all but the answer queue and
the mark of a publish asked for. A proof that a meaning keeps one of these cites the lemma of the operation it calls. -/

namespace Sys2Proof.Machine

/-- The loss list, the settings, the time base, the load guard and the commands waiting of `s` stand in `t`, and of the
board all but the answer queue and the publish asked for. -/
structure State.RestKept (s t : State) : Prop where
  losses : t.losses = s.losses
  settings : t.settings = s.settings
  time : t.time = s.time
  guard : t.guard = s.guard
  pending : t.pending = s.pending
  board : t.board = { s.board with answers := t.board.answers, publishAsked := t.board.publishAsked }

theorem State.RestKept.refl (s : State) : s.RestKept s := ⟨rfl, rfl, rfl, rfl, rfl, rfl⟩

theorem State.RestKept.trans {s t u : State} (a : s.RestKept t) (b : t.RestKept u) : s.RestKept u :=
  ⟨b.losses.trans a.losses, b.settings.trans a.settings, b.time.trans a.time, b.guard.trans a.guard,
    b.pending.trans a.pending, by rw [b.board, a.board]⟩

theorem State.RestKept.ite {s t u : State} {c : Prop} [Decidable c] (a : s.RestKept t) (b : s.RestKept u) :
    s.RestKept (if c then t else u) := by
  split
  · exact a
  · exact b

/-- A fold of an operation that keeps the rest keeps the rest. -/
theorem State.RestKept.foldl {α : Type} {f : State → α → State} (h : ∀ (s : State) (x : α), s.RestKept (f s x)) (l : List α)
    (s : State) : s.RestKept (l.foldl f s) := by
  induction l generalizing s with
  | nil => exact .refl s
  | cons x rest ih => exact (h s x).trans (ih _)

/-! ## The named updates -/

theorem State.restKept_withPort (s : State) (p : PortId) (f : Port → Port) : s.RestKept (s.withPort p f) :=
  ⟨rfl, rfl, rfl, rfl, rfl, rfl⟩
theorem State.restKept_withExtent (s : State) (e : ExtentId) (f : Extent → Extent) : s.RestKept (s.withExtent e f) :=
  ⟨rfl, rfl, rfl, rfl, rfl, rfl⟩
theorem State.restKept_withJob (s : State) (j : JobId) (f : Job → Job) : s.RestKept (s.withJob j f) :=
  ⟨rfl, rfl, rfl, rfl, rfl, rfl⟩
theorem State.restKept_withRows (s : State) (f : RowEngine → RowEngine) : s.RestKept (s.withRows f) :=
  ⟨rfl, rfl, rfl, rfl, rfl, rfl⟩
theorem State.restKept_withSolver (s : State) (f : Solver → Solver) : s.RestKept (s.withSolver f) :=
  ⟨rfl, rfl, rfl, rfl, rfl, rfl⟩
theorem State.restKept_withHolds (s : State) (f : HoldTable → HoldTable) : s.RestKept (s.withHolds f) :=
  ⟨rfl, rfl, rfl, rfl, rfl, rfl⟩
theorem State.restKept_withRequests (s : State) (f : List ForegroundRequest → List ForegroundRequest) :
    s.RestKept (s.withRequests f) := ⟨rfl, rfl, rfl, rfl, rfl, rfl⟩
theorem State.restKept_withOperation (s : State) (c : ContextId) (f : Operation → Operation) :
    s.RestKept (s.withOperation c f) := ⟨rfl, rfl, rfl, rfl, rfl, rfl⟩
theorem State.restKept_askPublish (s : State) : s.RestKept s.askPublish := ⟨rfl, rfl, rfl, rfl, rfl, rfl⟩
theorem State.restKept_answer (s : State) (i : SlipId) (status : Status) (reason : Reason) (body : List BodyField) :
    s.RestKept (s.answer i status reason body) := ⟨rfl, rfl, rfl, rfl, rfl, rfl⟩

theorem State.restKept_answerJob (s : State) (i : SlipId) (status : Status) (c : ControlAnswer) :
    s.RestKept (s.answerJob i status c) := ⟨rfl, rfl, rfl, rfl, rfl, rfl⟩

theorem State.restKept_askPublishIf (s : State) (b : Bool) : s.RestKept (s.askPublishIf b) := by
  cases b
  · exact .refl s
  · exact s.restKept_askPublish

theorem State.restKept_answerIf (s : State) (i : Option SlipId) (status : Status) (reason : Reason)
    (body : List BodyField) : s.RestKept (s.answerIf i status reason body) := by
  cases i
  · exact .refl s
  · exact s.restKept_answer _ _ _ _

/-! ## Endings and submission -/

theorem State.restKept_deliverFailure (s : State) (p : PortId) (r : Request) (ending : Ending) :
    s.RestKept (s.deliverFailure p r ending) := by
  unfold State.deliverFailure
  split
  · exact .refl s
  · split
    · exact s.restKept_withOperation _ _
    · exact s.restKept_withOperation _ _
    · exact .refl s

theorem State.restKept_submit (s : State) (p : PortId) (r : Request) : s.RestKept (s.submit p r) := by
  unfold State.submit
  split
  · exact s.restKept_withPort _ _
  · exact s.restKept_deliverFailure _ _ _

theorem State.restKept_submitReads (s : State) (c : ContextId) (op : Operation) (reads : List PlanRead) :
    s.RestKept (s.submitReads c op reads) := State.RestKept.foldl (fun s _ => s.restKept_submit _ _) reads s

theorem State.restKept_issueOne {s t : State} {p : PortId} (h : s.issueOne p = some t) : s.RestKept t := by
  unfold State.issueOne at h
  split at h
  · cases h
    exact s.restKept_withPort _ _
  · cases h

theorem State.restKept_runArbiter (n : Nat) (s : State) (p : PortId) : s.RestKept (State.runArbiter n s p) := by
  induction n generalizing s with
  | zero => exact .refl s
  | succ n ih =>
    unfold State.runArbiter
    split
    · exact (State.restKept_issueOne ‹_›).trans (ih _)
    · exact .refl s

theorem State.restKept_deliverWritten (s : State) (p : PortId) (r : Request) : s.RestKept (s.deliverWritten p r) := by
  unfold State.deliverWritten
  split
  · exact .refl s
  · dsimp only
    split
    · exact s.restKept_withOperation _ _
    · split
      · exact s.restKept_withOperation _ _
      · split
        · exact (s.restKept_withOperation _ _).trans (State.restKept_withOperation _ _ _)
        · exact ((s.restKept_withOperation _ _).trans (State.restKept_withOperation _ _ _)).trans
            (State.restKept_submit _ _ _)

/-! ## The ends of row operations -/

theorem State.restKept_supersedePause (s : State) (j : JobId) (cause : EndCause) :
    s.RestKept (s.supersedePause j cause) := by
  unfold State.supersedePause
  split
  · exact s.restKept_answerJob _ _ _
  · exact .refl s

theorem State.restKept_drainJob (s : State) (j : JobId) (cause : EndCause) : s.RestKept (s.drainJob j cause) := by
  unfold State.drainJob
  split
  · exact ((s.restKept_supersedePause _ _).trans (State.restKept_withJob _ _ _)).trans (State.restKept_askPublish _)
  · exact .refl s

theorem State.restKept_drainCounted (s : State) (counted : Option JobId) (e : ExtentId) :
    s.RestKept (s.drainCounted counted e) := by
  unfold State.drainCounted
  split
  · exact .refl s
  · split
    · exact s.restKept_withJob _ _
    · exact .refl s

theorem State.restKept_jobTakesRow (s : State) (j : JobId) (row : Nat) (outcome : RowOutcome) (copied : Bool)
    (t : RowTallies) : s.RestKept (s.jobTakesRow j row outcome copied t) := by
  unfold State.jobTakesRow
  split
  · split
    all_goals first
      | exact s.restKept_withJob _ _
      | exact (s.restKept_withJob _ _).trans (State.restKept_askPublishIf _ _)
  · exact .refl s

theorem State.restKept_handOver (s : State) (owner : RowOwner) (row : Nat) (outcome : RowOutcome) (copied : Bool)
    (t : RowTallies) (kept settled : Bool) : s.RestKept (s.handOver owner row outcome copied t kept settled) := by
  unfold State.handOver
  split
  · exact s.restKept_jobTakesRow _ _ _ _ _
  · exact s.restKept_withRequests _

theorem State.restKept_freeContext (s : State) (c : ContextId) : s.RestKept (s.freeContext c) :=
  ⟨rfl, rfl, rfl, rfl, rfl, rfl⟩

theorem State.restKept_endOperationWith (s : State) (c : ContextId) (outcome : RowOutcome) (kept settled : Bool) :
    s.RestKept (s.endOperationWith c outcome kept settled) := by
  unfold State.endOperationWith
  split
  · exact .refl s
  · exact ((s.restKept_drainCounted _ _).trans (State.restKept_handOver _ _ _ _ _ _ _ _)).trans
      (State.restKept_freeContext _ _)

theorem State.restKept_endOperation (s : State) (c : ContextId) (outcome : RowOutcome) :
    s.RestKept (s.endOperation c outcome) := s.restKept_endOperationWith _ _ _ _

theorem State.restKept_endWaiting (s : State) (r : RowRequest) (outcome : RowOutcome) :
    s.RestKept (s.endWaiting r outcome) :=
  ((s.restKept_drainCounted _ _).trans (State.restKept_handOver _ _ _ _ _ _ _ _)).trans (State.restKept_withRows _ _)

theorem State.restKept_endIdle (s : State) (which : RowOwner → ExtentId → Bool) (outcome : RowOutcome) :
    s.RestKept (s.endIdle which outcome) :=
  (State.RestKept.foldl (fun s _ => s.restKept_endWaiting _ _) _ s).trans
    (State.RestKept.foldl (fun s _ => s.restKept_endOperation _ _) _ _)

theorem State.restKept_withdrawAt (s : State) (c : ContextId) (p : PortId) : s.RestKept (s.withdrawAt c p) :=
  (s.restKept_withPort _ _).trans (State.RestKept.foldl (fun s _ => s.restKept_deliverFailure _ _ _) _ _)

theorem State.restKept_withdraw (s : State) (c : ContextId) : s.RestKept (s.withdraw c) :=
  State.RestKept.foldl (fun s _ => s.restKept_withdrawAt _ _) _ _

theorem State.restKept_loseRows (s : State) (e : ExtentId) : s.RestKept (s.loseRows e) :=
  (s.restKept_endIdle _ _).trans
    (State.RestKept.foldl (fun s _ => (s.restKept_withdraw _).trans (State.restKept_withOperation _ _ _)) _ _)

theorem State.restKept_endTargetless (s : State) (j : JobId) : s.RestKept (s.endTargetless j) := by
  unfold State.endTargetless
  split
  · exact s.restKept_endIdle _ _
  · exact .refl s

/-! ## Member states and conditions -/

theorem State.restKept_wake (s : State) (p : PortId) : s.RestKept (s.wake p) := s.restKept_withRows _

theorem State.restKept_jobSeesCondition (s : State) (e : ExtentId) (c : Condition) :
    s.RestKept (s.jobSeesCondition e c) := by
  unfold State.jobSeesCondition
  split
  · exact .refl s
  · dsimp only
    split
    · exact (s.restKept_withJob _ _).trans (State.restKept_drainJob _ _ _)
    · exact s.restKept_withJob _ _

theorem State.restKept_recompute (s : State) (e : ExtentId) : s.RestKept (s.recompute e) := by
  unfold State.recompute
  split
  · dsimp only
    split
    · exact .refl s
    · split
      · exact (((s.restKept_withExtent _ _).trans (State.restKept_askPublish _)).trans
          (State.restKept_jobSeesCondition _ _ _)).trans (State.restKept_loseRows _ _)
      · exact ((s.restKept_withExtent _ _).trans (State.restKept_askPublish _)).trans
          (State.restKept_jobSeesCondition _ _ _)
  · exact .refl s

theorem State.restKept_loseTarget (s : State) (p : PortId) (j : JobId) : s.RestKept (State.loseTarget p s j) := by
  unfold State.loseTarget
  split
  · exact (s.restKept_withJob _ _).trans (State.restKept_askPublish _)
  · exact ((s.restKept_drainJob _ _).trans (State.restKept_withJob _ _ _)).trans (State.restKept_endTargetless _ _)

theorem State.restKept_targetLost (s : State) (p : PortId) : s.RestKept (s.targetLost p) :=
  State.RestKept.foldl (fun s j => s.restKept_loseTarget p j) _ s

theorem State.restKept_copyToReconstruct (s : State) (p : PortId) : s.RestKept (s.copyToReconstruct p) := by
  unfold State.copyToReconstruct
  split
  · exact .refl s
  · exact (s.restKept_withJob _ _).trans (State.restKept_askPublish _)

theorem State.restKept_reportMember (s : State) (p : PortId) : s.RestKept (s.reportMember p) := by
  unfold State.reportMember
  have failed : ∀ s : State,
      s.RestKept (if (s.port p).memberState = .failed then (s.copyToReconstruct p).targetLost p else s) := by
    intro s
    split
    · exact (s.restKept_copyToReconstruct _).trans (State.restKept_targetLost _ _)
    · exact .refl s
  have woken := (s.restKept_askPublish.trans (State.restKept_wake _ p)).trans (failed _)
  dsimp only
  split
  · exact woken.trans (State.restKept_recompute _ _)
  · exact woken

theorem State.restKept_loseRequests (s : State) (p : PortId) : s.RestKept (s.loseRequests p) :=
  (s.restKept_withPort _ _).trans (State.RestKept.foldl (fun s _ => s.restKept_deliverFailure _ _ _) _ _)

/-- A member's becoming FAILED (R35). -/
theorem State.restKept_failMember (s : State) (p : PortId) : s.RestKept (s.failMember p) :=
  ((s.restKept_withPort _ _).trans (State.restKept_loseRequests _ _)).trans (State.restKept_reportMember _ _)

/-- Any other change of member state (R22). -/
theorem State.restKept_changeMember (s : State) (p : PortId) (new : MemberState) :
    s.RestKept (s.changeMember p new) := by
  unfold State.changeMember
  refine State.RestKept.trans ?_ (State.restKept_reportMember _ _)
  dsimp only
  split
  · exact ((s.restKept_withPort _ _).trans (State.restKept_withPort _ _ _)).trans
      (State.RestKept.foldl (fun s _ => s.restKept_deliverFailure _ _ _) _ _)
  · exact s.restKept_withPort _ _

/-! ## Stalls -/

theorem State.restKept_stallEvidence (s : State) (p : PortId) (slot : Tag) (block : Nat) :
    s.RestKept (s.stallEvidence p slot block) := by
  unfold State.stallEvidence
  dsimp only
  split
  · exact (s.restKept_withPort _ _).trans (State.restKept_failMember _ _)
  · have stalled : ∀ (f : Port → Port) (b : Bool), s.RestKept ((s.withPort p f).askPublishIf b) :=
      fun f b => (s.restKept_withPort p f).trans (State.restKept_askPublishIf _ b)
    exact .ite (stalled _ _) ((stalled _ _).trans (State.restKept_withPort _ _ _))

theorem State.restKept_clearStall (s : State) (p : PortId) : s.RestKept (s.clearStall p) := by
  unfold State.clearStall
  split
  · split
    · exact (((s.restKept_withPort _ _).trans (State.restKept_askPublish _)).trans (State.restKept_wake _ _)).trans
        (State.restKept_runArbiter _ _ _)
    · exact s.restKept_withPort _ _
  · exact .refl s

theorem State.restKept_writeFailure (s : State) (p : PortId) : s.RestKept (s.writeFailure p) := by
  unfold State.writeFailure
  split
  · exact s.restKept_failMember _
  · exact .refl s

/-! ## Phases -/

theorem State.restKept_joinSolver (s : State) (c : ContextId) : s.RestKept (s.joinSolver c) :=
  (s.restKept_withOperation _ _).trans (State.restKept_withSolver _ _)

theorem State.restKept_beginWrites (s : State) (c : ContextId) (op : Operation) (d : PortId × Nat × List Nat) :
    s.RestKept (s.beginWrites c op d) := by
  unfold State.beginWrites
  split
  · exact .refl s
  · exact (s.restKept_withOperation _ _).trans (State.restKept_submit _ _ _)

theorem State.restKept_submitWrites (s : State) (c : ContextId) : s.RestKept (s.submitWrites c) := by
  unfold State.submitWrites
  split
  · exact .refl s
  · exact State.RestKept.foldl (fun s _ => s.restKept_beginWrites _ _ _) _ s

theorem State.restKept_enterPlace (s : State) (c : ContextId) : s.RestKept (s.enterPlace c) := by
  unfold State.enterPlace
  split
  · exact .refl s
  · dsimp only
    split
    · exact (s.restKept_withOperation _ _).trans (State.restKept_withOperation _ _ _)
    · exact (s.restKept_withOperation _ _).trans (State.restKept_submitWrites _ _)

theorem State.restKept_placeAsRead (s : State) (c : ContextId) : s.RestKept (s.placeAsRead c) :=
  (s.restKept_withOperation _ _).trans (State.restKept_enterPlace _ _)

theorem State.restKept_takePlan (s : State) (c : ContextId) : s.RestKept (s.takePlan c) := by
  unfold State.takePlan
  split
  · exact .refl s
  · split
    · exact s.restKept_endOperation _ _
    · exact s.restKept_withOperation _ _
    · split
      · exact (s.restKept_withOperation _ _).trans (State.restKept_placeAsRead _ _)
      · split
        · exact (s.restKept_withOperation _ _).trans (State.restKept_submitReads _ _ _ _)
        · exact (s.restKept_withOperation _ _).trans (State.restKept_withRows _ _)

theorem State.restKept_supplement (s : State) (c : ContextId) (op : Operation) (missing : List ReadWant) :
    s.RestKept (s.supplement c op missing) :=
  (s.restKept_withOperation _ _).trans (State.restKept_submitReads _ _ _ _)

theorem State.restKept_evaluate (s : State) (c : ContextId) : s.RestKept (s.evaluate c) := by
  unfold State.evaluate
  split
  · exact .refl s
  · dsimp only
    split
    · split
      · exact s.restKept_endOperation _ _
      · exact s.restKept_joinSolver _
    · split
      · exact (s.restKept_withOperation _ _).trans (State.restKept_takePlan _ _)
      · split
        · exact s.restKept_supplement _ _ _
        · split
          · split
            · exact s.restKept_withOperation _ _
            · exact (s.restKept_withOperation _ _).trans (State.restKept_joinSolver _ _)
          · split
            · exact s.restKept_placeAsRead _
            · exact s.restKept_joinSolver _

theorem State.restKept_endReads (s : State) (c : ContextId) : s.RestKept (s.endReads c) := by
  unfold State.endReads
  split
  · exact .refl s
  · split
    · exact s.restKept_endOperation _ _
    · split
      · exact s.restKept_endOperation _ _
      · exact s.restKept_evaluate _

end Sys2Proof.Machine
end

