-- ==== Sys2Proof/Laws/Settle.lean ====
section
/-! SUPPORT. Laws/Settle.lean: all that the end of a step does: it takes up the publish causes and begins an answer, and
changes nothing but the publish state, the answer being written and the jobs' published frontiers. -/

namespace Sys2Proof.Machine

/-- A publish begins at the end of the step. -/
def State.publishBegins (s : State) : Bool :=
  s.board.publishAsked && s.board.engine != .faulted && !(s.board.engine == .stopped && !s.board.quiesced) &&
    s.board.publishing.isNone

/-- A publish is owed at the end of the step. -/
def State.publishOwed (s : State) : Bool :=
  s.board.publishAsked && s.board.engine != .faulted &&
    ((s.board.engine == .stopped && !s.board.quiesced) || s.board.publishing.isSome)

/-- The snapshot that a publish begun in `s` takes. -/
def State.snapshot (s : State) : List PageField :=
  ({ s with jobs := bankMap (fun j => { j with publishedFrontier := j.frontier }) s.jobs } : State).pageFields

/-- The publish part of the end of a step, said whole. -/
theorem State.actOnPublish_eq (s : State) :
    s.actOnPublish =
      { s with
        jobs := if s.publishBegins then bankMap (fun j => { j with publishedFrontier := j.frontier }) s.jobs else s.jobs
        board := { s.board with
          publishAsked := false
          owed := s.board.owed || s.publishOwed
          publishing := if s.publishBegins then some s.snapshot else s.board.publishing } } := by
  rcases s with ⟨ports, extents, rows, solver, holds, requests, jobs, losses, settings, time, guard, board, pending⟩
  rcases board with ⟨base, rp, taken, sweep, sp, deferred, answers, writing, publishing, owed, asked, gen, engine, quiesced,
    causes, enables, rk, clean, ab, cuts, sw, pw⟩
  cases asked <;> cases engine <;> cases quiesced <;> cases publishing <;>
    simp [State.actOnPublish, State.publishBegins, State.publishOwed, State.beginPublish, State.withBoard] <;> rfl

/-- The writing that would begin depends on the answers, the tick counter and the jobs alone, their published frontiers
apart. -/
theorem State.nextWriting_congr {s t : State} (answers : t.board.answers = s.board.answers) (stamp : t.stamp = s.stamp)
    (jobs : ∀ j, ∃ f, t.job j = { s.job j with publishedFrontier := f }) : t.nextWriting = s.nextWriting := by
  unfold State.nextWriting
  rw [answers, stamp]
  have key : t.answerFields = s.answerFields := by
    funext a
    unfold State.answerFields
    split
    · rfl
    · rename_i c _
      obtain ⟨f, hf⟩ := jobs c.job
      rw [hf]
      cases c.drained <;> rfl
  rw [key]

/-- A publish that begins changes nothing of the writing that would begin. -/
theorem State.nextWriting_actOnPublish (s : State) : s.actOnPublish.nextWriting = s.nextWriting := by
  rw [State.actOnPublish_eq]
  refine State.nextWriting_congr rfl rfl fun j => ?_
  simp only [State.job]
  split
  · exact ⟨(s.job j).frontier, by simp [State.job]⟩
  · exact ⟨_, rfl⟩

/-- The writing of the head answer begins at the end of the step. -/
def State.writingBegins (s : State) : Bool := s.board.writesAnswers && s.board.writing.isNone

/-- The end of a step, said whole. -/
theorem State.settle_eq (s : State) :
    s.settle =
      { s with
        jobs := if s.publishBegins then bankMap (fun j => { j with publishedFrontier := j.frontier }) s.jobs else s.jobs
        board := { s.board with
          publishAsked := false
          owed := s.board.owed || s.publishOwed
          publishing := if s.publishBegins then some s.snapshot else s.board.publishing
          writing := if s.writingBegins then s.nextWriting else s.board.writing } } := by
  unfold State.settle State.beginAnswer
  rw [State.nextWriting_actOnPublish, State.actOnPublish_eq]
  by_cases h : s.writingBegins = true
  · refine (if_pos h).trans ?_
    rw [if_pos h]
    rfl
  · refine (if_neg h).trans ?_
    rw [if_neg h]

/-- The page shows neither the publish state nor the answer being written. -/
theorem State.pageFields_withBoard (s : State) (asked owed : Bool) (publishing : Option (List PageField))
    (writing : Option AnswerWriting) :
    ({ s with board := { s.board with
        publishAsked := asked, owed := owed, publishing := publishing, writing := writing } } : State).pageFields =
      s.pageFields := by
  unfold State.pageFields
  have hm : ∀ u v : State, u.ports = v.ports → u.extents = v.extents → u.jobs = v.jobs →
      u.memberEntry = v.memberEntry := by
    intro u v hp he hj
    funext p
    simp only [State.memberEntry, State.port, State.extentOfPort, State.extent, State.completesOnto, State.jobOn,
      State.job, hp, he, hj]
  have he : ∀ u v : State, u.extents = v.extents → u.extentEntry = v.extentEntry := by
    intro u v he
    funext p
    simp only [State.extentEntry, State.extent, he]
  have hj : ∀ u v : State, u.jobs = v.jobs → u.jobEntry = v.jobEntry := by
    intro u v he
    funext p
    simp only [State.jobEntry, State.job, he]
  rw [hm _ s rfl rfl rfl, he _ s rfl, hj _ s rfl]
  rfl

/-! ## What stays -/

@[simp] theorem State.settle_ports (s : State) : s.settle.ports = s.ports := by rw [State.settle_eq]
@[simp] theorem State.settle_extents (s : State) : s.settle.extents = s.extents := by rw [State.settle_eq]
@[simp] theorem State.settle_rows (s : State) : s.settle.rows = s.rows := by rw [State.settle_eq]
@[simp] theorem State.settle_solver (s : State) : s.settle.solver = s.solver := by rw [State.settle_eq]
@[simp] theorem State.settle_holds (s : State) : s.settle.holds = s.holds := by rw [State.settle_eq]
@[simp] theorem State.settle_requests (s : State) : s.settle.requests = s.requests := by rw [State.settle_eq]
@[simp] theorem State.settle_losses (s : State) : s.settle.losses = s.losses := by rw [State.settle_eq]
@[simp] theorem State.settle_settings (s : State) : s.settle.settings = s.settings := by rw [State.settle_eq]
@[simp] theorem State.settle_time (s : State) : s.settle.time = s.time := by rw [State.settle_eq]
@[simp] theorem State.settle_guard (s : State) : s.settle.guard = s.guard := by rw [State.settle_eq]
@[simp] theorem State.settle_pending (s : State) : s.settle.pending = s.pending := by rw [State.settle_eq]
@[simp] theorem State.settle_port (s : State) (p : PortId) : s.settle.port p = s.port p := by simp [State.port]
@[simp] theorem State.settle_extent (s : State) (e : ExtentId) : s.settle.extent e = s.extent e := by simp [State.extent]
@[simp] theorem State.settle_context (s : State) (c : ContextId) : s.settle.context c = s.context c := by
  simp [State.context]

/-- A job differs at most in its published frontier. -/
theorem State.settle_job (s : State) (j : JobId) :
    s.settle.job j =
      if s.publishBegins then { s.job j with publishedFrontier := (s.job j).frontier } else s.job j := by
  rw [State.settle_eq]
  unfold State.job
  split <;> simp

@[simp] theorem State.settle_base (s : State) : s.settle.board.base = s.board.base := by rw [State.settle_eq]
@[simp] theorem State.settle_roundPointer (s : State) : s.settle.board.roundPointer = s.board.roundPointer := by
  rw [State.settle_eq]
@[simp] theorem State.settle_taken (s : State) : s.settle.board.taken = s.board.taken := by rw [State.settle_eq]
@[simp] theorem State.settle_sweep (s : State) : s.settle.board.sweep = s.board.sweep := by rw [State.settle_eq]
@[simp] theorem State.settle_sweepPending (s : State) : s.settle.board.sweepPending = s.board.sweepPending := by
  rw [State.settle_eq]
@[simp] theorem State.settle_deferred (s : State) : s.settle.board.deferred = s.board.deferred := by
  rw [State.settle_eq]
@[simp] theorem State.settle_answers (s : State) : s.settle.board.answers = s.board.answers := by rw [State.settle_eq]
@[simp] theorem State.settle_publishAsked (s : State) : s.settle.board.publishAsked = false := by rw [State.settle_eq]
@[simp] theorem State.settle_generation (s : State) : s.settle.board.generation = s.board.generation := by
  rw [State.settle_eq]
@[simp] theorem State.settle_engine (s : State) : s.settle.board.engine = s.board.engine := by rw [State.settle_eq]
@[simp] theorem State.settle_quiesced (s : State) : s.settle.board.quiesced = s.board.quiesced := by
  rw [State.settle_eq]
@[simp] theorem State.settle_causes (s : State) : s.settle.board.causes = s.board.causes := by rw [State.settle_eq]
@[simp] theorem State.settle_enables (s : State) : s.settle.board.enables = s.board.enables := by rw [State.settle_eq]
@[simp] theorem State.settle_resetKind (s : State) : s.settle.board.resetKind = s.board.resetKind := by
  rw [State.settle_eq]
@[simp] theorem State.settle_clean (s : State) : s.settle.board.clean = s.board.clean := by rw [State.settle_eq]
@[simp] theorem State.settle_abandoned (s : State) : s.settle.board.abandoned = s.board.abandoned := by
  rw [State.settle_eq]
@[simp] theorem State.settle_slipsWritten (s : State) : s.settle.board.slipsWritten = s.board.slipsWritten := by
  rw [State.settle_eq]
@[simp] theorem State.settle_pagesWritten (s : State) : s.settle.board.pagesWritten = s.board.pagesWritten := by
  rw [State.settle_eq]
@[simp] theorem State.settle_cuts (s : State) : s.settle.board.cuts = s.board.cuts := by rw [State.settle_eq]

/-! ## What changes -/

theorem State.settle_owed (s : State) : s.settle.board.owed = (s.board.owed || s.publishOwed) := by
  rw [State.settle_eq]

theorem State.settle_publishing (s : State) :
    s.settle.board.publishing = if s.publishBegins then some s.settle.pageFields else s.board.publishing := by
  rw [State.settle_eq]
  by_cases h : s.publishBegins = true
  · simp only [h, if_true]
    exact congrArg some (State.pageFields_withBoard
      { s with jobs := bankMap (fun j => { j with publishedFrontier := j.frontier }) s.jobs } _ _ _ _).symm
  · exact (if_neg h).trans (if_neg h).symm

theorem State.settle_writing (s : State) :
    s.settle.board.writing = if s.writingBegins then s.nextWriting else s.board.writing := by
  rw [State.settle_eq]

/-- The writing that would begin is that of the state before the end of the step. -/
theorem State.nextWriting_settle (s : State) : s.settle.nextWriting = s.nextWriting := by
  refine State.nextWriting_congr (by simp) (by simp [State.stamp]) fun j => ?_
  rw [State.settle_job]
  split
  · exact ⟨_, rfl⟩
  · exact ⟨_, rfl⟩

end Sys2Proof.Machine
end

