-- ==== Sys2Proof/Laws/Steps.lean ====
section
/-! SUPPORT. Laws/Steps.lean: the end of a step and the taking of a slip, in the terms of Safety. -/

namespace Sys2Proof.Machine

/-! ## Publishing and answering -/

theorem State.publishes_settle {s u : State} (asked : u.board.publishAsked = true)
    (publishing : u.board.publishing = s.board.publishing) (owed : u.board.owed = s.board.owed)
    (front : ∀ j, (u.job j).publishedFrontier = (s.job j).publishedFrontier) : s.Publishes u.settle := by
  unfold State.Publishes State.Silent
  simp only [State.settle_engine, State.settle_quiesced, State.settle_owed, State.settle_publishing, State.settle_job]
  cases he : u.board.engine <;> cases hq : u.board.quiesced <;> cases hp : s.board.publishing <;>
    simp [State.publishBegins, State.publishOwed, asked, publishing, owed, front, he, hq, hp]

theorem State.silent_settle {s u : State} (asked : u.board.publishAsked = false)
    (publishing : u.board.publishing = s.board.publishing) (owed : u.board.owed = s.board.owed)
    (front : ∀ j, (u.job j).publishedFrontier = (s.job j).publishedFrontier) : s.Silent u.settle := by
  unfold State.Silent
  simp [State.settle_owed, State.settle_publishing, State.settle_job, State.publishBegins, State.publishOwed, asked,
    publishing, owed, front]

theorem State.answerBegins_settle {s u : State} (writing : u.board.writing = s.board.writing) :
    s.AnswerBegins u.settle := by
  unfold State.AnswerBegins
  have hw : u.settle.board.writesAnswers = u.board.writesAnswers := by simp [Board.writesAnswers]
  rw [State.settle_writing, State.writingBegins, State.nextWriting_settle, hw, writing]
  cases s.board.writing <;> simp

/-- A settled state has the jobs of the state before it, the published frontiers apart. -/
theorem State.sameJobs_settle {s u : State} (h : s.SameJobs u) : s.SameJobs u.settle := by
  intro j
  have := h j
  rw [State.settle_job]
  unfold Job.agrees at *
  split <;> simpa using this

/-! ## Taking a slip -/

/-- A sweep that goes on, or ends, changes nothing of the board but its sweep and its pending flag. -/
theorem Board.advanceSweep_eq (b : Board) (run : SweepRun) :
    b.advanceSweep run =
      { b with sweep := (b.advanceSweep run).sweep, sweepPending := (b.advanceSweep run).sweepPending } := by
  unfold Board.advanceSweep Board.endSweep Board.beginSweep
  repeat' split
  all_goals rfl

theorem Board.nextVisit_congr {b c : Board} (h : b.takenSlips = c.takenSlips) (n : Nat) (i : SlipId) :
    b.nextVisit n i = c.nextVisit n i := by
  have key : ∀ i, b.isTaken i = c.isTaken i := by
    intro i
    have : ∀ d : Board, d.isTaken i = d.takenSlips.any (· == i) := by
      intro d; simp [Board.isTaken, Board.takenSlips, List.any_map, Function.comp_def]
    rw [this, this, h]
  induction n generalizing i with
  | zero => rfl
  | succ n ih => simp only [Board.nextVisit, key, ih]

/-- How a sweep goes on depends on the TAKEN slips, the round pointer, the engine state and the pending flag alone. -/
theorem Board.advanceSweep_congr {b c : Board} (run : SweepRun) (slips : b.takenSlips = c.takenSlips)
    (pointer : b.roundPointer = c.roundPointer) (engine : b.engine = c.engine)
    (pending : b.sweepPending = c.sweepPending) :
    (b.advanceSweep run).sweep = (c.advanceSweep run).sweep ∧
      (b.advanceSweep run).sweepPending = (c.advanceSweep run).sweepPending := by
  have hv : ∀ n i, b.visit n i = c.visit n i := fun n i => by simp only [Board.visit, Board.nextVisit_congr slips]
  have hv' : ∀ (x y : Board) n i, x.takenSlips = y.takenSlips → x.visit n i = y.visit n i := fun x y n i h => by
    simp only [Board.visit, Board.nextVisit_congr h]
  have he : b.endSweep.sweep = c.endSweep.sweep ∧ b.endSweep.sweepPending = c.endSweep.sweepPending := by
    unfold Board.endSweep Board.beginSweep
    rw [engine, pending]
    split
    · refine ⟨?_, rfl⟩
      show Board.visit _ _ (nextSlip b.roundPointer) = Board.visit _ _ (nextSlip c.roundPointer)
      rw [pointer]
      exact hv' _ _ _ _ slips
    · exact ⟨rfl, rfl⟩
  unfold Board.advanceSweep
  rw [hv]
  split
  · exact he
  · split
    · exact ⟨rfl, pending⟩
    · exact he

/-- What the read of a slip does, said whole. -/
theorem State.takeSlip_eq {s : State} {run : SweepRun} (tag : BitVec 64) (h : s.sweepAt .slipRead = some run) :
    s.takeSlip tag = some (run.slip, { s with board := { s.board with
      taken := s.board.taken.map fun t => if t.slip = run.slip then { t with tag := tag } else t
      sweep := (s.board.advanceSweep run).sweep
      sweepPending := (s.board.advanceSweep run).sweepPending } }) := by
  have hs : (Board.takenSlips
      { s.board with taken := s.board.taken.map fun t => if t.slip = run.slip then { t with tag := tag } else t }) =
      s.board.takenSlips := by
    simp only [Board.takenSlips, List.map_map]
    apply List.map_congr_left
    intro x _
    simp only [Function.comp]
    split <;> rfl
  simp only [State.takeSlip, h, State.withBoard]
  rw [Board.advanceSweep_eq]
  obtain ⟨h1, h2⟩ := Board.advanceSweep_congr run hs rfl rfl rfl
  rw [h1, h2]

/-- The state as a slip read leaves it, before the slip's owner acts. -/
def State.afterTake (s : State) (run : SweepRun) (tag : BitVec 64) : State :=
  { s with board := { s.board with
      taken := s.board.taken.map fun t => if t.slip = run.slip then { t with tag := tag } else t
      sweep := (s.board.advanceSweep run).sweep
      sweepPending := (s.board.advanceSweep run).sweepPending } }

theorem State.takeSlip_afterTake {s : State} {run : SweepRun} (tag : BitVec 64)
    (h : s.sweepAt .slipRead = some run) : s.takeSlip tag = some (run.slip, s.afterTake run tag) :=
  State.takeSlip_eq tag h

/-- The sweep of a taken slip goes on as R156 says. -/
theorem Board.goesOn_advanceSweep {b c : Board} {run : SweepRun} (slips : c.takenSlips = b.takenSlips)
    (pointer : c.roundPointer = b.roundPointer) (sweep : c.sweep = (b.advanceSweep run).sweep)
    (pending : c.sweepPending = (b.advanceSweep run).sweepPending) : b.SweepGoesOn c run := by
  have hv : ∀ (x y : Board) n i, x.takenSlips = y.takenSlips → x.visit n i = y.visit n i := fun x y n i h => by
    simp only [Board.visit, Board.nextVisit_congr h]
  have he : c.sweep = b.endSweep.sweep → c.sweepPending = b.endSweep.sweepPending → b.SweepEnded c := by
    intro h1 h2
    unfold Board.SweepEnded
    unfold Board.endSweep Board.beginSweep at h1 h2
    split
    · rename_i h
      rw [if_pos h] at h1 h2
      refine ⟨h2, h1.trans ?_⟩
      rw [pointer]
      exact hv _ _ _ _ slips.symm
    · rename_i h
      rw [if_neg h] at h1 h2
      exact ⟨h1, h2⟩
  unfold Board.SweepGoesOn
  unfold Board.advanceSweep at sweep pending
  split
  · rename_i h
    rw [if_pos h] at sweep pending
    exact he sweep pending
  · rename_i h
    rw [if_neg h] at sweep pending
    split <;> rename_i hx <;> rw [hx] at sweep pending
    · exact ⟨sweep, pending⟩
    · exact he sweep pending

/-- Whatever an owner does after `afterTake`, as long as it leaves the sweep and the TAKEN slips alone, the slip is
dispatched. -/
theorem State.dispatched_of_afterTake {s t : State} {run : SweepRun} {tag : BitVec 64}
    (taken : t.board.taken = (s.afterTake run tag).board.taken) (sweep : t.board.sweep = (s.afterTake run tag).board.sweep)
    (pending : t.board.sweepPending = (s.afterTake run tag).board.sweepPending)
    (pointer : t.board.roundPointer = s.board.roundPointer) (deferred : t.board.deferred = s.board.deferred) :
    s.Dispatched t run tag none := by
  refine ⟨?_, ?_, pointer, deferred⟩
  · rw [taken]; simp [State.afterTake]
  · refine Board.goesOn_advanceSweep ?_ pointer sweep pending
    unfold Board.takenSlips
    rw [taken, State.afterTake, List.map_map]
    apply List.map_congr_left
    intro x _
    simp only [Function.comp]
    split <;> rfl

end Sys2Proof.Machine
end

