-- ==== Sys2Proof/Laws/Written.lean ====
section
/-! SUPPORT. Laws/Written.lean: the records of what the engine has written on the board: a write is read back at its
address, leaves every other address alone, and keeps the addresses rising. -/

namespace Sys2Proof.Machine

variable {α : Type}

/-- The addresses of a record of things written rise. -/
def writtenWf (l : List (Nat × α)) : Prop := l.Pairwise fun x y => x.1 < y.1

theorem writtenWf_nil : writtenWf ([] : List (Nat × α)) := .nil

theorem writtenAt_cons (address : Nat) (x : Nat × α) (l : List (Nat × α)) :
    writtenAt address (x :: l) = if x.1 = address then some x.2 else writtenAt address l := by
  by_cases h : x.1 = address <;> simp [writtenAt, h]

/-- What is written at an address is read back there. -/
theorem writtenAt_putWritten (address : Nat) (a : α) (l : List (Nat × α)) :
    writtenAt address (putWritten address a l) = some a := by
  induction l with
  | nil => simp [putWritten, writtenAt_cons]
  | cons x rest ih =>
    unfold putWritten
    split
    · simp [writtenAt_cons]
    · split
      · simp [writtenAt_cons]
      · simp [writtenAt_cons, *]

/-- A write leaves every other address alone. -/
theorem writtenAt_putWritten_other {address other : Nat} (a : α) (h : other ≠ address) (l : List (Nat × α)) :
    writtenAt other (putWritten address a l) = writtenAt other l := by
  have h' : address ≠ other := fun e => h e.symm
  induction l with
  | nil => simp [putWritten, h', writtenAt]
  | cons x rest ih =>
    unfold putWritten
    split
    · simp [writtenAt_cons, h']
    · split
      · rename_i e
        simp [writtenAt_cons, e, h']
      · simp [writtenAt_cons, ih]

/-- Every address of a record after a write was there, or is the one written. -/
theorem mem_putWritten {address : Nat} {a : α} {l : List (Nat × α)} {y : Nat × α} (h : y ∈ putWritten address a l) :
    y.1 = address ∨ y ∈ l := by
  induction l with
  | nil => simp_all [putWritten]
  | cons x rest ih =>
    unfold putWritten at h
    split at h
    · rcases List.mem_cons.mp h with rfl | h
      · exact .inl rfl
      · exact .inr h
    · split at h
      · rcases List.mem_cons.mp h with rfl | h
        · exact .inl rfl
        · exact .inr (List.mem_cons_of_mem _ h)
      · rcases List.mem_cons.mp h with rfl | h
        · exact .inr List.mem_cons_self
        · exact (ih h).imp_right (List.mem_cons_of_mem _)

/-- A write keeps the addresses rising. -/
theorem putWritten_wf (address : Nat) (a : α) {l : List (Nat × α)} (h : writtenWf l) :
    writtenWf (putWritten address a l) := by
  induction l with
  | nil => simp [putWritten, writtenWf]
  | cons x rest ih =>
    obtain ⟨hx, hr⟩ := List.pairwise_cons.mp h
    unfold putWritten
    split
    · refine List.pairwise_cons.mpr ⟨fun y hy => ?_, h⟩
      rcases List.mem_cons.mp hy with rfl | hy
      · assumption
      · exact Nat.lt_trans ‹_› (hx y hy)
    · split
      · refine List.pairwise_cons.mpr ⟨fun y hy => ?_, hr⟩
        rename_i e
        exact e ▸ hx y hy
      · refine List.pairwise_cons.mpr ⟨fun y hy => ?_, ih hr⟩
        rcases mem_putWritten hy with e | hy
        · omega
        · exact hx y hy

/-- What is written to a slip is read back from it. -/
theorem Board.slipImage_writeSlip (b : Board) (i : SlipId) (f : SlipImage → SlipImage) :
    (b.writeSlip i f).slipImage i = f (b.slipImage i) := by
  have h : (b.writeSlip i f).slipAddress i = b.slipAddress i := rfl
  unfold Board.slipImage
  rw [h]
  exact congrArg (fun x => Option.getD x SlipImage.blank) (writtenAt_putWritten _ _ _)

/-- A write to a slip leaves the others alone. -/
theorem Board.slipImage_writeSlip_other (b : Board) {i k : SlipId} (f : SlipImage → SlipImage) (h : k ≠ i) :
    (b.writeSlip i f).slipImage k = b.slipImage k := by
  have ne : b.slipAddress k ≠ b.slipAddress i := by
    unfold Board.slipAddress
    intro e
    exact h (Fin.ext (by omega))
  unfold Board.slipImage
  exact congrArg (fun x => Option.getD x SlipImage.blank) (writtenAt_putWritten_other _ ne _)

/-- A page written is read back. -/
theorem Board.pageImage_writePage (b : Board) (page : List PageField) :
    (b.writePage page).pageImage = some page := writtenAt_putWritten _ _ _

/-- The kind byte, the bytes 10h to 1Fh and the request body of a slip are the host's (R152). -/
theorem SlipImage.byteAt_host {offset : Nat} (x : SlipImage)
    (h : offset = 1 ∨ (0x10 ≤ offset ∧ offset < 0x90)) : x.byteAt offset = none := by
  unfold SlipImage.byteAt engineByte
  rw [if_neg]
  simp only [Bool.or_eq_true, decide_eq_true_eq, not_or, not_and, Nat.not_le]
  omega

end Sys2Proof.Machine
end

