-- ==== Sys2Proof/WellFormed.lean ====
section
/-! DEFINITION. WellFormed.lean: which terms of `Instr` stand for an event that can reach the engine. -/

namespace Sys2Proof

/-- The operation code at 20h of an EXTENT, JOBCTL or LOSSES body (R153). -/
def SlipBody.operation (body : SlipBody) : Nat := (body.getD 0 0).toNat

/-- A request body is 112 bytes long (R152). -/
def SlipBody.wf (body : SlipBody) : Bool := body.length == 112

/-- Block contents in canonical form. -/
def Block.allWf (bs : List Block) : Bool := bs.all Block.wf

/-- The contents that a reply brings: of a READ, every block (R20). A reply that brings another number of blocks is not well
formed, though the model runs on it (log 50). -/
def replyContents (kind : RequestKind) (count : Nat) (contents : List Block) : Bool :=
  (kind != .read || contents.length == count) && Block.allWf contents

/-- What a reply carries fits its kind and its count (R20). -/
def ReplyOutcome.wf (kind : RequestKind) (count : Nat) : ReplyOutcome → Bool
  | .good contents => replyContents kind count contents
  | .unreadable offsets contents => decide (offsets.Nodup) && replyContents kind count contents
  | .notReady => true
  | .writeFault => true

/-- A reply answers a request of 1 to 16 blocks, a PROBE of one (R19, R20). -/
def Reply.wf (r : Reply) : Bool :=
  decide (1 ≤ r.count) && decide (r.count ≤ 16) && (r.kind != .probe || r.count == 1) && r.outcome.wf r.kind r.count

/-- A write that the register window ignores: to IDENT, outside 00h to 37h, to CONTROL with a value that is no command, or
to an offset at which no register begins (R160; logs 19 and 69). -/
def ignoredWrite (offset : Nat) (value : BitVec 64) : Bool :=
  decide (offset < 8) || decide (0x38 ≤ offset) || decide (offset % 8 ≠ 0) ||
    (decide (offset = 8) && !([1, 2, 3].contains (value.toNat % 256)))

/-- The well-formed commands. A code that R153 lists for another operation belongs to that operation's command; a code
it does not list belongs to the kind's first command (log 30). -/
def Instr.wf : Instr → Bool
  | .registerWriteIgnored offset value => ignoredWrite offset value
  | .settings _ body | .member _ body | .rebuild _ body | .read _ body | .write _ body | .resync _ body => body.wf
  | .extentDefine _ body => body.wf && body.operation != 1
  | .extentClear _ body => body.wf && body.operation == 1
  | .jobctlPause _ body => body.wf && !([1, 2, 3].contains body.operation)
  | .jobctlResume _ body => body.wf && body.operation == 1
  | .jobctlAbort _ body => body.wf && body.operation == 2
  | .jobctlChange _ body => body.wf && body.operation == 3
  | .lossesExport _ body => body.wf && !([1, 2].contains body.operation)
  | .lossesImport _ body => body.wf && body.operation == 1
  | .lossesRemove _ body => body.wf && body.operation == 2
  | .badKind kind _ => decide (kind.toNat = 0) || decide (9 < kind.toNat)
  | .driveReply _ reply => reply.wf
  | .bufferFetchEnd _ fetched => (fetched.getD []).all Block.wf
  | .importCompletion _ records => (records.getD []).all (fun r => r.length == 16)
  | .powerOnReset | .linkReset | .run | .quiesce | .reset | .boardBase _ _ | .sweep _ | .attention _ | .enableSet _
  | .enableClear _ | .sweepHolderRead _ | .takenWrite | .answerWrite | .publish | .boardFault _ | .quiesceComplete
  | .tick | .lapse _ _ | .sweepTimerExpiry | .periodRestart | .guardHot | .guardCool | .linkUp _ | .linkDown _
  | .requestIssue _ | .contextGrant | .holdGrant | .frameGrant | .gatherEnd _ | .supplementEnd _
  | .awaitMemberWake _ | .solverTakeHead | .solveCompletion | .bufferDeliveryEnd _ _ | .placeEnd _ | .jobRowStart _
  | .startingDrainEnd _ | .pausingDrainEnd _ | .abortingDrainEnd _ | .jobCompletion _ | .pieceStart _
  | .requestFinish _ | .exportEnd _ _ => true

end Sys2Proof
end

