-- ==== Sys2Proof/Tests/Slice0.lean ====
section
/-! SUPPORT. Tests/Slice0.lean: the model's own tests. First what a well-formed command is, then the spec's worked examples,
then, for each statement with hypotheses, a state and operands that meet them. -/

namespace Sys2Proof.Tests

open Sys2Proof Sys2Proof.Machine

-- The kernel checks the tests one after another: checked side by side they ask for more threads than the check allows.
set_option Elab.async false

/-! ## Well-formed commands -/

/-- A request body of 112 bytes with some bytes set, each by its offset in the slip. -/
def bodyOf (bytes : List (Nat × Byte)) : SlipBody :=
  (List.range 112).map fun i => (bytes.find? fun x => x.1 == i + 0x20).elim 0 Prod.snd

/-- A GOOD reply to a READ of one block. -/
def reply1 : Reply := { tag := 0, issue := 0, kind := .read, memberBlock := 0, count := 1, outcome := .good [[(0, 1)]] }

theorem test_wf_body : (Instr.settings 0 (bodyOf [])).wf = true ∧ (Instr.settings 0 [0]).wf = false ∧
    (Instr.member 0 [0]).wf = false ∧ (Instr.rebuild 0 []).wf = false ∧ (Instr.read 0 []).wf = false ∧
    (Instr.write 0 []).wf = false ∧ (Instr.resync 0 []).wf = false := by decide +kernel

theorem test_wf_operation : (Instr.extentDefine 0 (bodyOf [])).wf = true ∧
    (Instr.extentDefine 0 (bodyOf [(0x20, 1)])).wf = false ∧ (Instr.extentClear 0 (bodyOf [])).wf = false ∧
    (Instr.jobctlPause 0 (bodyOf [(0x20, 2)])).wf = false ∧ (Instr.jobctlResume 0 (bodyOf [])).wf = false ∧
    (Instr.jobctlAbort 0 (bodyOf [])).wf = false ∧ (Instr.jobctlChange 0 (bodyOf [(0x20, 2)])).wf = false ∧
    (Instr.lossesExport 0 (bodyOf [(0x20, 1)])).wf = false ∧ (Instr.lossesImport 0 (bodyOf [])).wf = false ∧
    (Instr.lossesRemove 0 (bodyOf [(0x20, 1)])).wf = false := by decide +kernel

theorem test_wf_kind : (Instr.badKind 0 0).wf = true ∧ (Instr.badKind 10 0).wf = true ∧ (Instr.badKind 9 0).wf = false ∧
    (Instr.badKind 1 0).wf = false := by decide

theorem test_wf_ignored : (Instr.registerWriteIgnored 0x38 0).wf = true ∧ (Instr.registerWriteIgnored 0x10 0).wf = false ∧
    (Instr.registerWriteIgnored 8 4).wf = true ∧ (Instr.registerWriteIgnored 8 3).wf = false ∧
    (Instr.registerWriteIgnored 0x1C 1).wf = true := by decide

theorem test_wf_reply : (Instr.driveReply 0 reply1).wf = true ∧
    (Instr.driveReply 0 { reply1 with count := 0 }).wf = false ∧
    (Instr.driveReply 0 { reply1 with count := 17 }).wf = false ∧
    (Instr.driveReply 0 { reply1 with kind := .probe, count := 2, outcome := .notReady }).wf = false ∧
    (Instr.driveReply 0 { reply1 with outcome := .good [[], []] }).wf = false ∧
    (Instr.driveReply 0 { reply1 with outcome := .good [[(1, 0)]] }).wf = false ∧
    (Instr.driveReply 0 { reply1 with outcome := .unreadable [0, 0] [] }).wf = false := by decide

theorem test_wf_contents : (Instr.bufferFetchEnd 0 (some [[(4095, 1)]])).wf = true ∧
    (Instr.bufferFetchEnd 0 (some [[(4096, 1)]])).wf = false ∧
    (Instr.bufferFetchEnd 0 (some [[(2, 1), (1, 1)]])).wf = false ∧
    (Instr.importCompletion 0 (some [[0]])).wf = false := by decide

/-- The table gives no row any bits. -/
theorem test_decode_none : decodeTableWord 8 0 = none := rfl

/-! ## The spec's worked examples -/

/-- Extent 5 of "Worked example: mapping in a DOUBLE extent" (01). -/
def extent5 : Extent :=
  { condition := .whole, kind := .double, memberCount := 6, stripSize := 32, arrayStart := 1000000,
    stripeCount := 100000, memberBase := 2048, rotation := .descending, targets := [3, 4, 5, 6, 7, 8] }

theorem test_layout_limits : extent5.rows = 200000 ∧ extent5.arrayLimit = 13799999 ∧ extent5.memberLimit = 3202047 := by
  decide

theorem test_layout_placement : (List.range 6).map (fun s => (extent5.pPosition s, extent5.qPosition s,
      (List.range 4).map (extent5.dataPosition s))) =
    [(4, some 5, [0, 1, 2, 3]), (3, some 4, [5, 0, 1, 2]), (2, some 3, [4, 5, 0, 1]), (1, some 2, [3, 4, 5, 0]),
     (0, some 1, [2, 3, 4, 5]), (5, some 0, [1, 2, 3, 4])] := by decide

theorem test_layout_translate : extent5.translate 1000300 =
    some { stripe := 2, dataIndex := 1, blockInStrip := 12, row := 4, blockOffset := 12, position := 5,
           port := some 8, memberBlock := 2124 } ∧
    (extent5.translate 1000317).map (fun x => (x.row, x.blockOffset, x.port, x.memberBlock)) =
      some (5, 13, some 8, 2141) := by decide

theorem test_layout_reverse : extent5.reverse 5 2124 = some 1000300 ∧ extent5.reverse 2 2124 = none := by decide

/-- A block with one byte at place 7. -/
def one (v : Byte) : Block := [(7, v)]

/-- The data bytes of "Worked example: the solve cases" (03). -/
def data4 (j : Nat) : Block := one ([0x12, 0x34, 0x56, 0x78].getD j 0)

theorem test_solve_parity : parityP 4 data4 = one 0x08 ∧ parityQ 4 data4 = one 0xD8 := by decide +kernel

theorem test_solve_two : restoreLower 4 1 2 (one 0x08) (one 0xD8) data4 = one 0x34 ∧
    restoreUpper 4 1 2 (one 0x08) (one 0xD8) data4 = one 0x56 := by decide +kernel

theorem test_solve_one : restoreFromQ 4 2 (one 0xD8) data4 = one 0x56 ∧ restoreFromP 4 3 (one 0x08) data4 = one 0x78 := by
  decide +kernel

/-- The holds of "Worked example: one row, five operations" (06), up to step 6, as mode, holders and waiters. -/
theorem test_hold_steps :
    let t := ((((({ entries := [], granted := [] } : HoldTable).request 5 2001 0 .shared).request 5 2001 1 .shared).request
      5 2001 2 .sole).request 5 2001 3 .shared).leave 0
    t.entries.map (fun h => (h.mode, h.holders, h.waiters)) = [(.shared, [1], [(2, .sole), (3, .shared)])] ∧
    (t.leave 1).entries.map (fun h => (h.mode, h.holders, h.waiters)) = [(.sole, [2], [(3, .shared)])] := by decide

/-- Entry C and the run of "Worked example: coarsening a full list" (07), in a list with room. -/
theorem test_loss_insert :
    (insertLoss 91200000 (fun _ => 13799999)
      { extent := 5, first := 1000300, toEnd := false, count := 1, origin := .rebuild, stamp := 91200000 }
      [{ extent := 5, first := 1000250, toEnd := false, count := 10, origin := .foreground, stamp := 60000000 }]).1.map
        (fun e => (e.first, e.count, e.stamp)) = [(1000250, 10, 60000000), (1000300, 1, 91200000)] := by decide +kernel

/-- A removal in the middle of an entry splits it (R132). -/
theorem test_loss_split :
    (removeLosses 13799999 5 1000252 1000253 1
      [{ extent := 5, first := 1000250, toEnd := false, count := 10, origin := .foreground, stamp := 0 }]).entries.map
        (fun e => (e.first, e.count)) = [(1000250, 2), (1000254, 6)] := by decide +kernel

/-! ## States -/

/-- The engine RUNNING, with a board. -/
def idle : State := State.reset.withBoard fun b => { b with base := 0x1000, engine := .running }

/-- A SINGLE extent of four members: k = 3, one row to a stripe, array blocks 100 to 195. -/
def single : Extent :=
  { condition := .whole, kind := .single, memberCount := 4, stripSize := 16, arrayStart := 100, stripeCount := 2,
    memberBase := 0, rotation := .ascending, targets := [0, 1, 2, 3] }

/-- Extent 2 described, its ports ONLINE, ports 4 and 5 SPARE, every link UP. -/
def served : State :=
  let up := (bankIndices 16).foldl (fun s p => s.withPort p fun x => { x with link := .up }) idle
  let s := single.targets.foldl (fun s p => s.withPort p fun x => { x with memberState := .online }) up
  let s := ([4, 5] : List PortId).foldl (fun s p => s.withPort p fun x => { x with memberState := .spare }) s
  s.withExtent 2 fun _ => single

/-- A sweep at slip 5 with an access in progress. -/
def sweeping (access : SweepAccess) : SweepRun := { slip := 5, left := 3, access := access, stopping := false }

/-- Slip 5 taken, the one read of it in progress. -/
def State.taking (s : State) : State :=
  s.withBoard fun b =>
    { b with sweep := some (sweeping .slipRead), taken := [{ slip := 5, tag := 0, foreground := none }] }

/-- 48 slips TAKEN, 16 to 63. -/
def full48 : List TakenSlip := (List.range 48).map fun i => { slip := Fin.ofNat 64 (i + 16), tag := 0, foreground := none }

/-- The outcome of a command, as the state or none. -/
def after (c : Instr) (s : State) : Option State :=
  match exec c s with
  | .next t => some t
  | .fault _ => none
  | .refused _ => none

/-- What an operation knows when it has just been granted its context. -/
def newOperation (kind : RowKind) (owner : RowOwner) (row : Nat) (requested : List RequestedRun) : Operation :=
  ({ kind := kind, owner := owner, extent := 2, row := row, requested := requested, countedBy := none } :
    RowRequest).operation

/-- A READ_ROW of row 0 of slip 9: array blocks 101 and 102 on data strip 0, which is at position 0. -/
def readRow : Operation := newOperation .readRow (.slip 9 0) 0 [{ strip := 0, first := 1, count := 2 }]

/-- A REBUILD_ROW of row 1 of job 0. -/
def rebuildRow : Operation := newOperation .rebuildRow (.job 0) 1 []

/-- Extent 2 with port 1 FAILED, so DEGRADED or, having one parity, EXPOSED; job 0 restores position 1 onto port 4. -/
def rebuilding : State :=
  let s := served.withPort 1 fun x => { x with memberState := .failed }
  let s := s.withPort 4 fun x => { x with memberState := .target }
  let s := s.withExtent 2 fun e => { e with condition := .exposed }
  s.withJob 0 fun j =>
    { j with
      state := .running, extent := 2, sources := [{ position := 1, target := 4 }], endRow := 2, nextRow := 2,
      inFlight := [0, 1], lanesWanted := 2, laneCount := 2, coolCredits := 8, hotCredits := 2, creditsLeft := 6,
      exposed := true, answering := some 7 }

/-! ## What commands do, one step each -/

/-- RUN with a base begins the first publish (R161). -/
theorem test_run : (after .run (State.reset.withBoard fun b => { b with base := 0x1000 })).map
    (fun t => (t.board.engine, t.board.publishing.isSome)) = some (.running, true) := by decide +kernel

/-- A kind outside the nine is refused with BAD_KIND, and its tag kept (R157). -/
theorem test_bad_kind : (after (.badKind 10 77) (State.taking idle)).map
    (fun t => (t.board.answers.map (fun a => (a.slip, a.status, a.reason)), t.board.taken.map TakenSlip.tag)) =
      some ([(5, .refused, .badKind)], [77]) := by decide +kernel

/-- A READ outside the array range is refused with OUT_OF_RANGE (R115): 8 blocks from 189 end at 196. -/
theorem test_read_range : (after (.read 1 (bodyOf [(0x20, 2), (0x22, 8), (0x28, 189)])) (State.taking served)).map
    (fun t => t.board.answers.map (fun a => (a.status, a.reason))) = some [(.refused, .outOfRange)] := by decide +kernel

/-- A READ of blocks 114 to 117 takes data strips 0 and 1 of row 0 (R117). -/
theorem test_read_pieces : (after (.read 1 (bodyOf [(0x20, 2), (0x22, 4), (0x28, 114)])) (State.taking served)).map
    (fun t => t.requests.map ForegroundRequest.pieces) = some [[{ row := 0, runs := [
      { strip := 0, first := 14, count := 2 }, { strip := 1, first := 0, count := 2 }] }]] := by decide +kernel

/-- LINK_DOWN fails an ONLINE member, and SINGLE is EXPOSED with one position lost (R36, R9). -/
theorem test_link_down : (after (.linkDown 3) served).map
    (fun t => ((t.port 3).memberState, (t.extent 2).condition)) = some (.failed, .exposed) := by decide +kernel

/-- A second failure makes it LOST, and its job drains with cause EXTENT_LOST (R98). -/
theorem test_second_failure : (after (.linkDown 3) rebuilding).map
    (fun t => ((t.extent 2).condition, (t.job 0).state, (t.job 0).drainCause)) =
      some (.lost, .aborting, some .extentLost) := by decide +kernel

/-! ## Witnesses: the board unit -/

/-- STOPPED with a base. -/
def based : State := State.reset.withBoard fun b => { b with base := 0x1000 }

/-- Slips 0 to 63 all TAKEN but slip `i`. -/
def allBut (i : SlipId) : Board :=
  { Board.powerOn with
    taken := ((bankIndices 64).filter fun j => j != i).map fun j => { slip := j, tag := 0, foreground := none } }

theorem witness_StepRunsFront : ({ idle with pending := [.tick, .run] } : State).pending = .tick :: [.run] ∧
    idle.pending = [] := by decide

/-- A write of CONTROL acts by its byte 0; one of an upper half alone is ignored but at BOARD BASE (R160). -/
theorem test_register_command : [registerCommand 8 4 1, registerCommand 8 8 0xAA02, registerCommand 8 4 0x103] =
      [.run, .quiesce, .reset] ∧ registerCommand 0x14 4 7 = .boardBase .highHalf 7 ∧
    registerCommand 0x1C 4 1 = .registerWriteIgnored 0x1C 1 := by decide

theorem witness_RegisterAccesses : (State.reset.board.engine = .stopped ∧ idle.board.engine ≠ .stopped ∧
    (0x38 : Nat) ≤ 0x38 ∧ (∃ i : Nat, i < 12) ∧ ∃ i, 12 ≤ i ∧ i < 64) ∧
    8 ∈ [4, 8] ∧ 0x0C ∈ [0x0C, 0x1C, 0x24, 0x2C, 0x34] ∧ (7 : Nat) < 8 ∧
    (1 : BitVec 64).toNat % 256 = 1 ∧ (0x102 : BitVec 64).toNat % 256 = 2 ∧ (3 : BitVec 64).toNat % 256 = 3 ∧
    (0x100 : BitVec 64).toNat % 256 ∉ [1, 2, 3] :=
  ⟨⟨rfl, by decide, by decide, ⟨11, by decide⟩, 12, by decide⟩, by decide⟩

/-- QUIESCING with nothing left to do. -/
def quiescing : State := idle.withBoard fun b => { b with engine := .quiescing }

theorem witness_EngineRunsAndStops :
    (based.board.engine = .stopped ∧ based.board.base ≠ 0 ∧ based.board.publishing = none) ∧
    (let s := based.withBoard fun b => { b with publishing := some [], sweepPending := true }
     s.board.publishing ≠ none ∧ s.board.sweepPending = true ∧ s.board.sweep = none) ∧
    idle.board.engine ≠ .stopped ∧ State.reset.board.base = 0 ∧ (idle.AtRest ∧ idle.board.engine = .running ∧
      (State.taking idle).board.sweep = some (sweeping .slipRead)) ∧ based.board.engine ≠ .running ∧
    (quiescing.AtRest ∧ quiescing.board.engine = .quiescing ∧ (∀ c, quiescing.context c = none) ∧
      quiescing.rows.contextWait = [] ∧ quiescing.requests = [] ∧ quiescing.losses.transfers = [] ∧
      quiescing.board.answers = []) ∧
    (quiescing.setContext 23 (some readRow)).context 23 ≠ none ∧
    (quiescing.answer 0 .good .none []).board.answers ≠ [] := by decide +kernel

/-- An idle engine whose sweep timer has reached its interval. -/
def timed : State :=
  (idle.withSettings fun v => { v with sweepInterval := 5 }).withTime fun t => { t with sweepTimer := 5 }

theorem witness_SweepsAsked : ((64 : Nat) ≤ 64 ∧ (allBut 3).visit 64 4 =
      some { slip := 3, left := 1, access := .holderRead, stopping := false } ∧ (allBut 3).visit 63 4 = none) ∧
    (timed.AtRest ∧ (1 : BitVec 64).getLsbD 0 = true ∧ (2 : BitVec 64).getLsbD 0 = false ∧
      timed.settings.sweepInterval ≠ 0 ∧ timed.settings.sweepInterval ≤ timed.time.sweepTimer) ∧
    idle.settings.sweepInterval = 0 := by decide +kernel

/-- A sweep reading the holder of slip 5, with some slips TAKEN. -/
def reading (taken : List TakenSlip) (stopping : Bool) : State :=
  idle.withBoard fun b =>
    { b with sweep := some { sweeping .holderRead with stopping := stopping }, taken := taken }

theorem witness_SlipsTaken :
    ((reading (full48.take 47) false).AtRest ∧ (reading (full48.take 47) false).board.sweep = some (sweeping .holderRead) ∧
      (sweeping .holderRead).access = .holderRead ∧ (sweeping .holderRead).stopping = false ∧
      (reading (full48.take 47) false).board.taken.length < 48) ∧
    48 ≤ (reading full48 false).board.taken.length ∧
    (reading [] true).board.sweep = some { sweeping .holderRead with stopping := true } ∧ (2 : Byte) ≠ 1 ∧
    (let s := idle.withBoard fun b => { b with sweep := some (sweeping .takenWrite), taken := full48.take 47 }
     s.AtRest ∧ s.board.sweep = some (sweeping .takenWrite) ∧ (sweeping .takenWrite).access = .takenWrite) ∧
    (List.replicate 256 (10 : Byte)).length = 256 ∧
    ((State.taking idle).AtRest ∧ (State.taking idle).sweepAt .slipRead = some (sweeping .slipRead)) ∧
    ((0 : Byte) = 0 ∧ 9 < (10 : Byte).toNat) ∧ 1 ≤ (1 : Byte).toNat ∧ (9 : Byte).toNat ≤ 9 ∧
    (let jobctl := ((List.replicate 256 (0 : Byte)).set 1 5).set 0x20 3
     jobctl.length = 256 ∧ jobctl.getD 0x01 0 = 5 ∧ jobctl.getD 0x20 0 = 3) := by decide +kernel

/-- An answer to slip 16 being written, with 48 slips TAKEN and one wake deferred. -/
def answering : State :=
  (idle.answer 16 .good .none [field1 1]).withBoard fun b =>
    { b with taken := full48, deferred := true, writing := some { stamp := 3, body := [field1 1] } }

theorem witness_AnswersAndPagesWritten : (answering.AtRest ∧ answering.board.answers =
      { slip := 16, status := .good, reason := .none, body := [field1 1] } :: [] ∧
      answering.board.writing = some { stamp := 3, body := [field1 1] }) ∧
    (∃ t, after .answerWrite answering = some t ∧ answering.board.deferred = true ∧ t.board.taken.length < 48) ∧
    (answering.withBoard fun b => { b with deferred := false }).board.deferred ≠ true ∧
    let s := idle.withBoard fun b => { b with publishing := some [page1 8 1], owed := true }
    let q := State.reset.withBoard fun b => { b with publishing := some [], quiesced := true }
    (s.AtRest ∧ s.board.publishing = some [page1 8 1] ∧ s.board.engine ≠ .faulted ∧ s.board.engine ≠ .stopped) ∧
    q.board.engine = .stopped ∧ q.board.quiesced = true ∧ q.board.owed = false :=
  ⟨by decide +kernel, ⟨_, rfl, by decide +kernel⟩, by decide +kernel, by decide +kernel⟩

theorem witness_BoardFaults : ((State.taking idle).AtRest ∧ (State.taking idle).board.engine ≠ .faulted ∧
      (State.taking idle).board.sweep = some (sweeping .slipRead) ∧ (sweeping .slipRead).access = .slipRead) ∧
    (answering.board.writing ≠ none ∧ answering.board.answers ≠ [] ∧ answering.board.sweep = none) ∧
    (idle.withBoard fun b => { b with publishing := some [] }).board.publishing ≠ none ∧
    (idle.withBoard fun b => { b with engine := .faulted }).board.engine = .faulted := by decide +kernel

/-! ## Witnesses: resets, time and settings -/

theorem witness_EngineResetLeaves :
    (rebuilding.job 0).state = .running ∧ (rebuilding.job 1).state = .free ∧
    (let s := rebuilding.withJob 0 fun j => { j with state := .aborting, drainCause := some .aborted }
     (s.job 0).state = .aborting ∧ (s.port 4).memberState = .target ∧
       (∃ j, (s.job j).state = .aborting ∧ (s.job j).targetless = false ∧ ∃ x ∈ (s.job j).sources, x.target = 4)) ∧
    (∃ t, after .reset rebuilding = some t ∧ ∀ e, t.extent e = rebuilding.extent e) ∧ ∃ t, after .linkReset rebuilding = some t :=
  ⟨by decide +kernel, by decide +kernel, by decide +kernel, ⟨_, rfl, by decide +kernel⟩, ⟨_, rfl⟩⟩

/-- Row 0 of extent 2 on the unsettled-row list, and a WRITE_ROW of row 1 that has written. -/
def written : State :=
  (served.setContext 0 (some { newOperation .writeRow (.slip 9 0) 1 [] with written := true })).withRows fun r =>
    { r with unsettled := [{ extent := 2, first := 0, count := 1, toEnd := false }] }

theorem written_legal : unsettledLegal written.lastRows written.rows.unsettled := by
  have list : written.rows.unsettled = [{ extent := 2, first := 0, count := 1, toEnd := false }] := rfl
  rw [list]
  refine ⟨by decide, ?_, List.pairwise_singleton _ _⟩
  intro e h
  rw [List.mem_singleton.mp h]
  exact ⟨by decide +kernel, fun _ => by decide +kernel⟩

/-- Rows of extent 5, `count` from `first`. -/
def rows5 (first count : Nat) : UnsettledEntry := { extent := 5, first := first, count := count, toEnd := false }

/-- A full unsettled-row list of three-row entries two rows apart, the second and third one row apart. -/
def fullRows : List UnsettledEntry := (List.range 64).map fun i => rows5 (5 * i + if i = 1 then 1 else 0) 3

theorem fullRows_legal : unsettledLegal (fun _ => 2 ^ 33) fullRows := by
  refine ⟨by decide, ?_, ?_⟩
  · intro e h
    obtain ⟨i, hi, rfl⟩ := List.mem_map.mp h
    rw [List.mem_range] at hi
    unfold UnsettledEntry.legal
    simp only [rows5, Config.maxCount]
    split <;> exact ⟨by omega, fun _ => by omega⟩
  · refine List.pairwise_map.mpr (List.pairwise_lt_range.imp ?_)
    intro a b h
    refine .inr ⟨rfl, ?_⟩
    simp only [UnsettledEntry.last, rows5, Bool.false_eq_true, if_false]
    split <;> split <;> omega

/-- Live rows; a row within an entry, one next to an entry, one clear of them; a full list that is joined, and one that is
coarsened first; and a row that leaves by deletion, at either end, by a split, and not at all. -/
theorem witness_LiveRowsUnsettled : (Instr.linkReset ∈ [Instr.reset, .linkReset] ∧
    unsettledLegal written.lastRows written.rows.unsettled ∧
    ∀ c op, written.context c = some op → op.written = true → op.row ≤ written.lastRows op.extent) ∧
    (let put := fun row => insertUnsettled (fun _ => 2 ^ 33) 5 row [rows5 10 3]
     let full := fun row => insertUnsettled (fun _ => 2 ^ 33) 5 row fullRows
     put 12 = [rows5 10 3] ∧ put 13 = [rows5 10 4] ∧ put 14 = [rows5 10 3, rows5 14 1] ∧
       unsettledLegal (fun _ => 2 ^ 33) fullRows ∧ full 3 = rows5 0 4 :: fullRows.tail ∧
       full 1000 = rows5 0 3 :: rows5 6 7 :: (fullRows.drop 3 ++ [rows5 1000 1])) ∧
    let take := fun (full : Bool) (row : Nat) => removeUnsettled (2 ^ 33) full 5 row [rows5 4 1, rows5 10 3]
    let long := fun (row : Nat) => removeUnsettled (2 ^ 33) false 5 row [{ rows5 10 0 with toEnd := true }]
    take false 5 = none ∧ take false 4 = some [rows5 10 3] ∧ take true 10 = some [rows5 4 1, rows5 11 2] ∧
      take true 12 = some [rows5 4 1, rows5 10 2] ∧ take false 11 = some [rows5 4 1, rows5 10 1, rows5 12 1] ∧
      take true 11 = none ∧ long 10 = none ∧ long (2 ^ 33) = none ∧
      long 11 = some [rows5 10 1, { rows5 12 0 with toEnd := true }] ∧ long (2 ^ 33 - 1) = none ∧
      long (2 ^ 32) = some [rows5 10 (2 ^ 32 - 10), { rows5 (2 ^ 32 + 1) 0 with toEnd := true }] := by
  have all : ∀ c : ContextId, (written.context c).elim true (fun op => decide (op.row ≤ written.lastRows op.extent)) =
      true := by decide +kernel
  refine ⟨⟨by simp, written_legal, ?_⟩,
    ⟨by decide +kernel, by decide +kernel, by decide +kernel, fullRows_legal, by decide +kernel, by decide +kernel⟩,
    by decide +kernel⟩
  intro c op h _
  have := all c
  rw [h] at this
  exact of_decide_eq_true this

/-- An unsettled row on the page; bytes not listed, past the header, in a member entry, in an extent entry, in a job entry
and past the rows; and an answer body whose second field leaves a gap. -/
theorem witness_PageAndBodyBytes : written.rows.unsettled[0]? = some { extent := 2, first := 0, count := 1, toEnd := false } ∧
    [0x034, 0x05C, 0x245, 0x25F, 0x58C, 0x741, 0x750].map (pageByte written.pageFields) = [0, 0, 0, 0, 0, 0, 0] ∧
    (∀ f ∈ [field1 1, field4 0x203], 1 ≤ f.width) ∧
    (answerBody [field1 1, field4 0x203]).take 9 = [1, 0, 0, 0, 3, 2, 0, 0, 0] := by decide +kernel

/-- Every setting asked for, the stall limit apart: mask FBh, tap 70, guard threshold 30. -/
def settingsBody1 : SlipBody := bodyOf [(0x20, 0xFB), (0x22, 70), (0x24, 30), (0x26, 1), (0x2A, 1), (0x2C, 1), (0x2E, 1)]

/-- Port 0 of extent 2 stalled with two lapses. -/
def stalled : State := served.withPort 0 fun x => { x with stalled := true, lapseCount := 2 }

/-- The stall limit asked for, at `limit`. -/
def stallBody (limit : Byte) : SlipBody := bodyOf [(0x20, 4), (0x23, limit)]

theorem witness_SettingsApplied :
    ((State.taking idle).AtRest ∧ (State.taking idle).sweepAt .slipRead = some (sweeping .slipRead)) ∧
    256 ≤ (settingsFields (bodyOf [(0x21, 1)])).mask ∧ (settingsFields settingsBody1).mask < 256 ∧
    maskBit (settingsFields settingsBody1).mask 2 = false ∧
    (settingsFields settingsBody1).values.toList[0]? ≠ (settingsFields settingsBody1).values.clamped.toList[0]? ∧
    (maskBit (settingsFields (stallBody 2)).mask 2 = true ∧ (stalled.port 0).memberState = .online ∧
      (stalled.port 0).stalled = true ∧
      max 1 (min 15 (settingsFields (stallBody 2)).values.stallLimit) ≤ (stalled.port 0).lapseCount) ∧
    (stalled.port 0).lapseCount < max 1 (min 15 (settingsFields (stallBody 3)).values.stallLimit) := by decide +kernel

theorem witness_StallLimitFails :
    (State.taking stalled).sweepAt .slipRead = some (sweeping .slipRead) ∧ (settingsFields (stallBody 2)).mask < 256 ∧
    maskBit (settingsFields (stallBody 2)).mask 2 = true ∧ (stalled.port 0).memberState = .online ∧
    (stalled.port 0).stalled = true ∧
    max 1 (min 15 (settingsFields (stallBody 2)).values.stallLimit) ≤ (stalled.port 0).lapseCount ∧
    (stalled.port 1).stalled = false := by decide +kernel

theorem witness_TicksAndPacing :
    (let s := idle.withTime fun t => { t with sweepTimer := 65534, periodCounter := 65534 }
     s.time.sweepTimer < 65535 ∧ s.time.periodCounter < 65535 ∧ s.guard.sense < 65535 ∧ s.guard.state = .cool ∧
     s.settings.pacingPeriod ≤ s.time.periodCounter + 1 ∧
     (s.withGuard fun g => { g with state := .hot, hold := 1 }).guard.state = .hot) ∧
    (let due := fun g => rebuilding.withGuard fun x => { x with due := g }
     ((rebuilding.withTime fun t => { t with restartDue := true }).time.restartDue = true ∧ rebuilding.guard.due = none ∧
       idle.time.restartDue = false) ∧
     (due (some .hot)).AtRest ∧ (due (some .hot)).guard.due = some .hot ∧ (due (some .cool)).guard.due = some .cool ∧
     (due none).guard.due ≠ some .hot ∧ (due (some .hot)).guard.due ≠ some .cool) := by decide +kernel

/-! ## Witnesses: members and extents -/

theorem witness_MemberChanges :
    let ask := fun (p m : Byte) => bodyOf [(0x20, p), (0x21, m)]
    ((State.taking served).AtRest ∧ (State.taking served).sweepAt .slipRead = some (sweeping .slipRead)) ∧
    16 ≤ slipField (ask 16 1) 0x20 1 ∧ slipField (ask 0 3) 0x21 1 ∉ [0, 1, 2, 4] ∧
    (memberFields (ask 0 2) = some (0, .online) ∧ (served.port 0).memberState = .online) ∧
    (memberFields (ask 6 1) = some (6, .spare) ∧ (served.port 6).memberState = .absent ∧
      served.extentOfPort 6 = none ∧ (served.port 6).link = .up ∧ (idle.port 6).link = .down) ∧
    (memberFields (ask 0 4) = some (0, .failed) ∧ (served.port 0).legal ∧ served.extentOfPort 0 = some 2) ∧
    (memberFields (ask 1 2) = some (1, .online) ∧ (rebuilding.port 1).memberState = .failed ∧
      rebuilding.isSource 2 1 = true) ∧
    (memberFields (ask 4 2) = some (4, .online) ∧ (served.port 4).memberState = .spare) := by
  refine ⟨by decide +kernel, by decide +kernel, by decide +kernel, by decide +kernel, by decide +kernel,
    ⟨by decide +kernel, by unfold Port.legal; decide +kernel, by decide +kernel⟩, by decide +kernel, by decide +kernel⟩

/-- DEFINE of entry 3 as a MIRROR of ports 4 and 5, `start` the low byte of its array start. -/
def defineBody1 (start : Byte) : SlipBody :=
  bodyOf [(0x21, 3), (0x23, 2), (0x24, 16), (0x28, start), (0x38, 1), (0x3C, 4), (0x3D, 5)]

/-- The entry that `defineBody1 0` asks for. -/
def mirror : Extent :=
  { condition := .unused, kind := .mirror, memberCount := 2, stripSize := 16, arrayStart := 0, stripeCount := 1,
    memberBase := 0, rotation := .fixed, targets := [4, 5] }

theorem mirror_legal : mirror.legal := by unfold Extent.legal; decide +kernel

theorem single_legal : single.legal := by unfold Extent.legal; decide +kernel

theorem served_map : served.MapLegal := by unfold State.MapLegal Extent.sized; decide +kernel

theorem witness_DefineChecks :
    (served.extent 2).condition ≠ .unused ∧ (served.extent 3).condition = .unused ∧
    (defineFields (bodyOf [])).stripeCount < 1 ∧ served.MapLegal ∧
    (let f := defineFields (defineBody1 100)
     f.kind = 0 ∧ f.memberCount = 2 ∧ f.stripSize = 16 ∧ 1 ≤ f.stripeCount ∧ f.stripeCount < 2 ^ 32 ∧
       f.arrayStart + f.stripeCount * 16 - 1 < 2 ^ 40 ∧ f.memberBase + f.stripeCount * f.stripSize - 1 < 2 ^ 40 ∧
       f.rotation = 0 ∧ f.ports.take 2 = [4, 5]) ∧
    ({ mirror with arrayStart := 100 }.arrayStart ≤ 115 ∧ 115 ≤ { mirror with arrayStart := 100 }.arrayLimit ∧
      (served.extent 2).arrayStart ≤ 115 ∧ 115 ≤ (served.extent 2).arrayLimit) ∧
    (0 : PortId) ∈ (served.extent 2).targets ∧
    (∀ p ∈ mirror.targets, served.extentOfPort p = none ∧ (served.port p).memberState = .spare) ∧
    mirror.arrayLimit < (served.extent 2).arrayStart ∧
    served.checkDefine 3 (defineFields (defineBody1 0)) = .ok mirror :=
  ⟨by decide, by decide +kernel, by decide +kernel, served_map, by decide +kernel, by decide +kernel, by decide,
    by decide +kernel, by decide, by rfl⟩

theorem witness_ExtentDefined :
    ((State.taking served).AtRest ∧ (State.taking served).sweepAt .slipRead = some (sweeping .slipRead) ∧
      slipField (defineBody1 0) 0x20 1 = 0 ∧ slipField (defineBody1 0) 0x21 1 = (3 : ExtentId).val) ∧
    (State.taking served).checkDefine 3 (defineFields (defineBody1 100)) = .error .overlap ∧
    (State.taking served).checkDefine 3 (defineFields (defineBody1 0)) = .ok mirror ∧ (State.taking served).PortsLegal ∧
    slipField (bodyOf [(0x20, 2)]) 0x20 1 ≠ 0 ∧ 16 ≤ slipField (bodyOf [(0x21, 16)]) 0x21 1 :=
  ⟨by decide +kernel, by rfl, by rfl, by unfold State.PortsLegal Port.legal; decide +kernel, by decide +kernel⟩

theorem witness_ExtentCleared :
    let body := bodyOf [(0x20, 1), (0x21, 2)]
    let s := State.taking served
    (s.AtRest ∧ s.sweepAt .slipRead = some (sweeping .slipRead) ∧ slipField body 0x20 1 = 1 ∧
      slipField body 0x21 1 = (2 : ExtentId).val) ∧
    (s.extent 3).condition = .unused ∧ ((s.extent 2).condition ≠ .unused ∧
      (∀ j : JobId, (s.job j).isOn = true → (s.job j).extent ≠ 2) ∧ (∀ c, s.context c = none) ∧
      s.rows.contextWait = [] ∧ (∀ x ∈ s.board.taken, x.foreground ≠ some 2) ∧
      (∀ p ∈ (s.extent 2).targets, s.extentOfPort p = some 2) ∧ (s.extent 2).targets.Nodup ∧
      (s.extent 2).condition = s.conditionOf 2) ∧
    ((rebuilding.job 0).isOn = true ∧ (rebuilding.job 0).extent = 2) ∧
    (s.setContext 0 (some readRow)).context 0 = some readRow ∧ readRow.extent = 2 ∧
    slipField (bodyOf []) 0x20 1 ≠ 1 ∧ 16 ≤ slipField (bodyOf [(0x21, 16)]) 0x21 1 := by decide +kernel

/-! ## Witnesses: jobs -/

/-- REBUILD of extent 2, position 1 onto port `target`, from row `start`. -/
def rebuildBody (target start : Byte) : SlipBody :=
  bodyOf [(0x21, 2), (0x22, 1), (0x23, 1), (0x25, target), (0x27, 9), (0x30, start)]

/-- Extent 2 with port 1 FAILED and no job. -/
def exposed : State :=
  (served.withPort 1 fun x => { x with memberState := .failed }).withExtent 2 fun e => { e with condition := .exposed }

/-- Every job paused on extent `e`. -/
def pausedOn (s : State) (e : ExtentId) : State :=
  (bankIndices 4).foldl (fun s j => s.withJob j fun x => { x with state := .paused, extent := e }) s

theorem witness_RebuildChecks :
    let f := fun target start => rebuildFields (rebuildBody target start)
    let fields := fun s : State => (s.extent 2).condition ≠ .unused ∧ (s.extent 2).condition ≠ .lost
    (f 4 1 = { f 4 1 with mode := 0, extent := 2, sourceCount := 1, positions := [1], targets := [4], startRow := 1 } ∧
      16 ≤ (rebuildFields (bodyOf [(0x21, 16)])).extent) ∧
    (served.extent 3).condition = .unused ∧
    ((exposed.withExtent 2 fun e => { e with condition := .lost }).extent 2).condition = .lost ∧ fields exposed ∧
    ((rebuildFields (bodyOf [(0x21, 2), (0x22, 1), (0x23, 4)])).positions = [4] ∧ (exposed.extent 2).memberCount = 4) ∧
    (((pausedOn exposed 2).job 0).isOn = true ∧ ((pausedOn exposed 2).job 0).extent = 2) ∧
    (∀ j : JobId, ((pausedOn exposed 5).job j).state = .paused ∧ ((pausedOn exposed 5).job j).extent ≠ 2) ∧
    (∀ j : JobId, (exposed.job j).state = .free ∧ (exposed.job j).isOn = false) ∧
    ((served.extent 2).targets[1]? = some 1 ∧ (served.port 1).memberState = .online ∧
      (exposed.port 1).memberState = .failed) ∧
    ((exposed.port 0).memberState ≠ .spare ∧ (exposed.port 4).memberState = .spare ∧ (exposed.port 4).link = .up) ∧
    ((exposed.extent 2).rows ≤ (f 4 2).startRow ∧ (f 4 1).startRow < (exposed.extent 2).rows) ∧
    (0 < (f 4 1).startRow ∧
      (exposed.setContext 0 (some (newOperation .writeRow (.slip 9 0) 1 []))).context 0 =
        some (newOperation .writeRow (.slip 9 0) 1 [])) ∧
    (∀ c, exposed.context c = none) ∧ exposed.rows.contextWait = [] := by decide +kernel

theorem witness_RebuildAccepted :
    ((State.taking exposed).AtRest ∧ (State.taking exposed).sweepAt .slipRead = some (sweeping .slipRead)) ∧
    (State.taking exposed).checkRebuild (rebuildFields (rebuildBody 4 2)) = .error .outOfRange ∧
    (State.taking exposed).checkRebuild (rebuildFields (rebuildBody 4 1)) =
      .ok ({ mode := .reconstruct, extent := 2, sources := [{ position := 1, target := 4 }] }, 0) ∧
    (State.taking exposed).extentOfPort 4 = none := ⟨by decide +kernel, by rfl, by rfl, by decide +kernel⟩

/-- JOBCTL of job 0. -/
def controlBody (operation lanes cool : Byte) : SlipBody := bodyOf [(0x20, operation), (0x22, lanes), (0x24, cool)]

/-- Job 0 as `f` makes it, a slip taken. -/
def jobIs (f : Job → Job) : State := State.taking (rebuilding.withJob 0 f)

theorem witness_JobPausedAndResumed :
    ((jobIs id).AtRest ∧ (jobIs id).sweepAt .slipRead = some (sweeping .slipRead)) ∧
    controlFields 0 (bodyOf [(0x21, 4)]) = none ∧
    controlFields 0 (controlBody 0 0 0) = some { job := 0, lanes := 0, expedite := .keep, coolCredits := 0, hotCredits := 0 } ∧
    (controlFields 1 (controlBody 1 0 0)).isSome = true ∧ ((jobIs id).job 1).state ≠ .running ∧
    ((jobIs id).job 0).state = .running ∧ ((jobIs id).job 0).inFlight ≠ [] ∧
    (((jobIs fun j => { j with inFlight := [] }).job 0).inFlight = [] ∧
      ((jobIs fun j => { j with inFlight := [] }).job 0).frontier ≠ 2) ∧
    ((jobIs fun j => { j with frontier := 2, inFlight := [] }).job 0).frontier = 2 ∧
    ((jobIs fun j => { j with state := .pausing, inFlight := [] }).job 0).state = .pausing ∧
    ((jobIs fun j => { j with state := .paused }).job 0).state = .paused ∧
    ((jobIs fun j => { j with state := .paused, answering := none }).job 0).answering = none := by decide +kernel

theorem witness_JobAborted :
    ((jobIs id).AtRest ∧ (jobIs id).sweepAt .slipRead = some (sweeping .slipRead)) ∧
    controlFields 2 (bodyOf [(0x20, 2), (0x23, 3)]) = none ∧ (controlFields 2 (controlBody 2 0 0)).isSome = true ∧
    ((jobIs id).job 3).state ∉ [.starting, .running, .pausing, .paused] ∧
    ((jobIs id).job 0).state ∈ [.starting, .running, .pausing, .paused] ∧
    ((jobIs fun j => { j with state := .pausing, control := some 8 }).job 0).state = .pausing ∧
    ((jobIs id).job 0).frontier ≠ ((jobIs id).job 0).endRow ∧
    ((jobIs fun j => { j with frontier := 2 }).job 0).frontier = ((jobIs id).job 0).endRow := by decide +kernel

theorem witness_JobChanged :
    ((jobIs id).AtRest ∧ (jobIs id).sweepAt .slipRead = some (sweeping .slipRead)) ∧
    controlFields 3 (bodyOf [(0x20, 3), (0x23, 3)]) = none ∧
    controlFields 3 (controlBody 3 5 1) = some { job := 0, lanes := 5, expedite := .keep, coolCredits := 1, hotCredits := 0 } ∧
    ((jobIs id).job 2).state ∉ [.starting, .running, .pausing, .paused] ∧
    ((jobIs id).job 0).state ∈ [.starting, .running, .pausing, .paused] ∧
    ((jobIs id).job 0).frontier ≠ ((jobIs id).job 0).endRow := by decide +kernel

theorem witness_JobStartsRowsAndDrains :
    let s := rebuilding.withJob 0 fun j => { j with nextRow := 1, inFlight := [0], creditsLeft := 1 }
    (s.AtRest ∧ s.board.engine = .running ∧ (s.job 0).state = .running ∧ 1 ≤ (s.job 0).creditsLeft ∧
      (s.job 0).inFlight.length < (s.job 0).laneCount ∧ (s.job 0).nextRow < (s.job 0).frontier + 64 ∧
      (s.job 0).nextRow < (s.job 0).endRow ∧ ∀ k : JobId, k < 0 → s.canStartRow k = false) ∧
    (rebuilding.job 0).endRow ≤ (rebuilding.job 0).nextRow ∧
    (let u := rebuilding.withJob 0 fun j => { j with state := .starting }
     u.AtRest ∧ (u.job 0).state = .starting ∧ (u.job 0).drainCount = 0) ∧
    let a := rebuilding.withJob 0 fun j => { j with state := .aborting, drainCause := some .aborted, inFlight := [] }
    a.AtRest ∧ (a.job 0).state = .aborting ∧ (a.job 0).inFlight = [] ∧ (a.job 0).drainCause ≠ some .complete ∧
      (∀ x ∈ (a.job 0).sources, a.extentOfPort x.target = none) ∧ (a.port 4).memberState = .target ∧ (a.job 0).targetless = false := by decide +kernel

/-- A COPY of position 3 of extent 2 onto port 4, its last row ended. -/
def copied : State :=
  (served.withPort 4 fun x => { x with memberState := .target }).withJob 0 fun j =>
    { j with
      state := .pausing, mode := .copy, extent := 2, sources := [{ position := 3, target := 4 }], outgoing := some 3,
      endRow := 2, frontier := 2, nextRow := 2 }

/-- Job 0 with its last row ended. -/
def finished : State := rebuilding.withJob 0 fun j => { j with frontier := 2, inFlight := [] }

theorem witness_JobCompletes :
    (finished.AtRest ∧ (finished.job 0).state = .running ∧ (finished.job 0).frontier = (finished.job 0).endRow ∧
      (finished.job 0).inFlight = [] ∧ (finished.job 0).extent = 2 ∧ (finished.extent 2).condition ≠ .unused ∧
      (finished.job 0).outgoing = none ∧ finished.jobOn 2 = some 0) ∧
    (∀ s ∈ [finished, copied], (s.job 0).sources.map Source.target = [4] ∧
      ∀ k : ExtentId, 4 ∉ (s.extent k).targets ∧
        ((s.extent k).condition ≠ .unused → (s.extent k).condition = s.conditionOf k)) ∧
    ((copied.job 0).state = .pausing ∧ (copied.job 0).outgoing = some 3 ∧
      (3 : PortId) ∉ (copied.job 0).sources.foldl (fun l x => l.set x.position x.target) (copied.extent 2).targets ∧
      (∀ x ∈ (copied.job 0).sources, x.target ≠ 3) ∧
      ∀ k : ExtentId, k ≠ 2 → (copied.extent k).condition ≠ .unused → (3 : PortId) ∉ (copied.extent k).targets) := by
  decide +kernel

/-- Jobs that complete at an engine reset, alone, with no job draining; the rest of what is asked of them is
`witness_JobCompletes`. -/
theorem witness_EngineResetLeaves_completing : ∀ s ∈ [finished, copied],
    ((s.job 0).state = .running ∨ (s.job 0).state = .pausing) ∧ (s.job 0).frontier = (s.job 0).endRow ∧
      (s.job 0).inFlight = [] ∧ (s.job 0).extent = 2 ∧ (s.extent 2).condition ≠ .unused ∧
      (∀ k : JobId, k ≠ 0 → (s.job k).state = .free) ∧ ∀ k : JobId, (s.job k).state ≠ .aborting := by decide +kernel

/-- `copied` with rows still to do, and `rebuilding` with a second target. -/
def copying : State := copied.withJob 0 fun j => { j with state := .running, frontier := 1 }
def rebuildingTwo : State :=
  (rebuilding.withPort 5 fun x => { x with memberState := .target }).withJob 0 fun j =>
    { j with sources := [{ position := 1, target := 4 }, { position := 2, target := 5 }] }

/-- Job 0 draining after the loss of port 4, which firmware has freed and job 1 taken as its target. -/
def retaken : State :=
  (rebuilding.withJob 0 fun j => { j with state := .aborting, drainCause := some .targetLost, targetless := true }).withJob
    1 fun j => { j with state := .running, extent := 3, sources := [{ position := 0, target := 4 }], endRow := 2 }

/-- `retaken` without the later job. -/
def untargetedAlone : State := retaken.withJob 1 fun _ => Job.free

/-- The port's failure reaches the later job (R35, R99). -/
theorem test_retaken_target : (after (.linkDown 4) retaken).map (fun t => [t.job 0, t.job 1].map fun j =>
    (j.state, j.drainCause, j.targetless)) =
      some [(.aborting, some .targetLost, true), (.aborting, some .targetLost, true)] := by decide +kernel

theorem witness_JobsSeeMembers :
    let alone := fun s : State => s.AtRest ∧ (s.job 0).isOn = true ∧ ∀ k : JobId, k ≠ 0 → (s.job k).isOn = false
    (alone rebuilding ∧ alone rebuildingTwo ∧ alone copying ∧ alone copied) ∧
    ((copied.job 0).frontier = (copied.job 0).endRow ∧ (copied.port 3).memberState = .online) ∧
    ((copying.job 0).frontier ≠ (copying.job 0).endRow ∧ (copying.job 0).mode = .copy ∧
      (copying.job 0).outgoing = some 3 ∧ (copying.port 3).memberState = .online) ∧
    ((rebuildingTwo.port 4).memberState = .target ∧ rebuildingTwo.extentOfPort 4 = none ∧
      (∃ y ∈ (rebuildingTwo.job 0).sources, y.target = 4) ∧ ∃ y ∈ (rebuildingTwo.job 0).sources.filter fun y => y.target ≠ 4,
        (rebuildingTwo.port y.target).memberState = .target) ∧
    ((rebuilding.port 4).memberState = .target ∧ rebuilding.extentOfPort 4 = none ∧
      ∀ y ∈ (rebuilding.job 0).sources.filter fun y => y.target ≠ 4, (rebuilding.port y.target).memberState ≠ .target) ∧
    (copying.extentOfPort 3 = some 2 ∧ (∀ y ∈ (copying.job 0).sources, y.target ≠ 3) ∧
      (after (.linkDown 3) copying).map (fun t => (t.extent 2).condition) = some .exposed) ∧
    (rebuilding.extentOfPort 3 = some 2 ∧ (∀ y ∈ (rebuilding.job 0).sources, y.target ≠ 3) ∧
      (after (.linkDown 3) rebuilding).map (fun t => (t.extent 2).condition) = some .lost) := by
  decide +kernel

/-- The clauses of JobsSeeMembers on a job that has lost its last target (R35, log 71). -/
theorem witness_JobsSeeMembers_retaken :
    ((retaken.port 4).memberState = .target ∧ retaken.extentOfPort 4 = none ∧ (retaken.job 1).isOn = true ∧
      (retaken.job 1).targetless = false ∧ (∃ y ∈ (retaken.job 1).sources, y.target = 4) ∧
      (retaken.job 0).targetless = true ∧ ∀ k : JobId, k ≠ 1 → (retaken.job k).isOn = true →
        (retaken.job k).extent ≠ (retaken.job 1).extent ∧ (retaken.job k).outgoing ≠ some 4 ∧
        ((retaken.job k).targetless = true ∨ ∀ y ∈ (retaken.job k).sources, y.target ≠ 4)) ∧
    let s := untargetedAlone
    s.AtRest ∧ (s.job 0).isOn = true ∧ (∀ k : JobId, k ≠ 0 → (s.job k).isOn = false) ∧
      (s.port 4).memberState = .target ∧ (s.job 0).targetless = true ∧ s.extentOfPort 4 = none := by
  decide +kernel

/-! ## Witnesses: foreground service and the loss list -/

/-- READ or WRITE of extent `e`, `count` blocks from `first`. -/
def transferBody (e count first : Byte) : SlipBody := bodyOf [(0x20, e), (0x22, count), (0x28, first)]

theorem witness_ForegroundAccepted :
    let s := State.taking served
    let l := State.taking (served.withExtent 2 fun e => { e with condition := .lost })
    (s.AtRest ∧ s.sweepAt .slipRead = some (sweeping .slipRead)) ∧ 16 ≤ slipField (transferBody 16 1 100) 0x20 1 ∧
    slipField (transferBody 2 1 100) 0x20 1 = (2 : ExtentId).val ∧
    (transferFields (transferBody 2 0 100)).blockCount = 0 ∧ (s.extent 3).condition = .unused ∧
    (l.extent 2).condition = .lost ∧
    (let f := transferFields (transferBody 2 8 189)
     1 ≤ f.blockCount ∧ f.blockCount ≤ 1024 ∧ f.buffer % 4096 = 0 ∧ f.buffer + f.blockCount * 4096 - 1 < 2 ^ 64 ∧
       (s.extent 2).arrayLimit < f.firstBlock + f.blockCount - 1) ∧
    (let f := transferFields (transferBody 2 8 188)
     (s.extent 2).arrayStart ≤ f.firstBlock ∧ f.firstBlock + f.blockCount - 1 ≤ (s.extent 2).arrayLimit) ∧
    (resyncFields (bodyOf [(0x20, 2)])).rowCount = 0 ∧
    (let f := resyncFields (bodyOf [(0x20, 2), (0x24, 2), (0x28, 1)])
     1 ≤ f.rowCount ∧ f.rowCount ≤ 65536 ∧ (s.extent 2).rows < f.firstRow + f.rowCount) ∧
    let f := resyncFields (bodyOf [(0x20, 2), (0x24, 2)])
    1 ≤ f.rowCount ∧ f.firstRow + f.rowCount ≤ (s.extent 2).rows := by decide +kernel

/-- A READ of rows 0 and 1 with its second piece to start. -/
def request1 : ForegroundRequest :=
  { slip := 9, kind := .read, extent := 2, firstBlock := 100, blockCount := 60, buffer := 0, firstRow := 0, rowCount := 0,
    pieces := [{ row := 0, runs := [] }, { row := 1, runs := [] }], nextPiece := 1, granted := 1, inFlight := [0],
    stop := none, tallies := RequestTallies.zero, worst := .good }

theorem witness_RowPiecesCover :
    (single.legal ∧ single.arrayStart ≤ 100 ∧ (100 : Nat) ≤ 195 ∧ 195 ≤ single.arrayLimit) ∧
    let s := served.withRequests fun _ => [request1]
    (s.extent readRow.extent).legal ∧ readRow.owner = .slip 9 0 ∧ s.requests.find? (fun x => x.slip == 9) = some request1 :=
  ⟨⟨single_legal, by decide⟩, single_legal, rfl, rfl⟩

theorem witness_PiecesStartAndRequestsFinish :
    let s := served.withRequests fun _ => [request1]
    let l := s.withExtent 2 fun e => { e with condition := .lost }
    (s.AtRest ∧ s.requests = [] ++ request1 :: [] ∧ 0 < request1.granted ∧ request1.inFlight.length < 4 ∧
      request1.stop = none ∧ s.board.engine ≠ .stopped ∧ request1.pieces[request1.nextPiece]? = some { row := 1, runs := [] } ∧
      (s.extent 2).condition ≠ .lost) ∧ (l.extent 2).condition = .lost ∧ { request1 with granted := 0 }.granted = 0 ∧
    let r := { request1 with inFlight := [], nextPiece := 2 }
    let s := served.withRequests fun _ => [r]
    (s.AtRest ∧ s.requests = [] ++ r :: [] ∧ r.inFlight = [] ∧ r.pieces.length ≤ r.nextPiece) ∧
    ({ r with nextPiece := 0, stop := some .bufferFault } : ForegroundRequest).stop ≠ none ∧ request1.inFlight ≠ [] ∧
    (let u := { request1 with inFlight := [], granted := 0 }
     (s.withBoard fun b => { b with engine := .faulted }).board.engine = .faulted ∧ u.granted = 0 ∧
       u.nextPiece < u.pieces.length) ∧
    (1 < request1.pieces.length ∧ request1.stop = none ∧ s.board.engine ≠ .faulted) := by decide +kernel

/-- Blocks 100 to 195 of extent 2, all listed. -/
def entry1 : LossEntry := { extent := 2, first := 100, toEnd := false, count := 96, origin := .rebuild, stamp := 0 }

theorem entries_legal : lossesLegal served.arrayLimits [entry1] := by
  refine ⟨by decide, ?_, List.pairwise_singleton _ _⟩
  intro e h
  rw [List.mem_singleton.mp h]
  exact ⟨by decide +kernel, fun _ => by decide +kernel⟩

/-- A full list of three-block entries of extent 5, two blocks apart. -/
def fullList : List LossEntry := (List.range 512).map fun i => { entry1 with extent := 5, first := 5 * i, count := 3 }

theorem fullList_legal : lossesLegal (fun _ => 13799999) fullList := by
  refine ⟨by simp [fullList, Config.lossEntries], ?_, ?_⟩
  · intro e h
    obtain ⟨i, hi, rfl⟩ := List.mem_map.mp h
    rw [List.mem_range] at hi
    unfold LossEntry.legal
    simp only [entry1, Config.maxCount]
    refine ⟨by omega, fun _ => ⟨by omega, by omega, by omega⟩⟩
  · refine List.pairwise_map.mpr (List.pairwise_lt_range.imp ?_)
    intro a b h
    refine .inr ⟨rfl, ?_⟩
    simp only [LossEntry.last, entry1, Bool.false_eq_true, if_false]
    omega

/-- Blocks of extent 5 far from the full list. -/
def farRange : LossEntry := { entry1 with extent := 5, first := 5000, count := 2 }

theorem coarsens_full (now : Stamp) (limits : ExtentId → Nat) (e : LossEntry) (l : List LossEntry) (full : l.length = 512)
    (join : joinLoss now (limits e.extent) e l = none) : (insertLoss now limits e l).2 = 1 := by
  unfold insertLoss
  simp only [join, full, Config.lossEntries, Nat.lt_irrefl, if_false]
  split <;> rfl

/-- To make room for it a coarsening is made. -/
theorem fullList_coarsens : (insertLoss 0 (fun _ => 13799999) farRange fullList).2 = 1 := by
  have join : joinLoss 0 13799999 farRange fullList = none := by
    have clear : ∀ x ∈ fullList, x.meets 13799999 farRange = false ∧ farRange.within 13799999 x = false := by
      intro x h
      obtain ⟨i, hi, rfl⟩ := List.mem_map.mp h
      rw [List.mem_range] at hi
      simp only [LossEntry.meets, LossEntry.within, LossEntry.last, farRange, entry1, Bool.false_eq_true, if_false]
      constructor <;> simp <;> omega
    unfold joinLoss
    rw [if_neg, if_neg]
    · simp only [List.any_eq_true, not_exists, not_and]
      intro x h
      simp [(clear x h).1]
    · simp only [List.any_eq_true, not_exists, not_and]
      intro x h
      simp [(clear x h).2]
  exact coarsens_full _ _ _ _ (by simp [fullList]) join

/-- A range within an entry; one that touches an entry, and one that is clear of it; TO_END; and a full list. -/
theorem witness_LossInsertion :
    let range := fun (first count : Nat) => { entry1 with first := first, count := count }
    let put := fun (r x : LossEntry) => insertLoss 0 served.arrayLimits r [x]
    (lossesLegal served.arrayLimits [entry1] ∧ LossEntry.legal served.arrayLimits (range 195 1) ∧
      LossEntry.legal served.arrayLimits { entry1 with toEnd := true, count := 0 }) ∧
    (put (range 110 5) (range 100 10)).1 = [range 100 15] ∧ (put (range 111 5) (range 100 10)).1 = [range 100 10, range 111 5] ∧
    lossesLegal (fun _ => 13799999) fullList ∧
    LossEntry.legal (fun _ => 13799999) farRange ∧ (insertLoss 0 (fun _ => 13799999) farRange fullList).2 = 1 ∧
    (insertLoss 0 (fun _ => 13799999) { farRange with first := 3 } fullList).2 = 0 :=
  ⟨⟨entries_legal, ⟨by decide +kernel, fun _ => by decide +kernel⟩, ⟨by decide +kernel, by intro h; cases h⟩⟩,
    by decide +kernel, by decide +kernel, fullList_legal, ⟨by decide, fun _ => by decide⟩, fullList_coarsens,
    by decide +kernel⟩

/-- An entry that reaches to the end of an extent of more than 2^32 blocks. -/
def longEntry : LossEntry := { entry1 with first := 0, toEnd := true, count := 0 }

theorem longEntry_legal : lossesLegal (fun _ => 2 ^ 33) [longEntry] := by
  refine ⟨by decide, ?_, List.pairwise_singleton _ _⟩
  intro e h
  rw [List.mem_singleton.mp h]
  exact ⟨by decide, fun h => by cases h⟩

/-- A removal that deletes an entry, shortens it at either end, splits it and does not reach it; one that finds 512 entries
held; and of a TO_END entry one that splits it, one that cuts its end off, and one that cannot, past 2^32 - 1 blocks. -/
theorem witness_LossRemoval :
    let range := fun (first count : Nat) => { entry1 with first := first, count := count }
    let remove := fun (e : ExtentId) (low high : Nat) => removeLosses (served.arrayLimits 2) e low high 1 [entry1]
    let long := fun (low high : Nat) => removeLosses (2 ^ 33) 2 low high 1 [longEntry]
    lossesLegal served.arrayLimits [entry1] ∧
    remove 2 100 195 = { entries := [], deleted := 1, shortened := 0, split := 0, kept := 0 } ∧
    remove 2 100 100 = { entries := [range 101 95], deleted := 0, shortened := 1, split := 0, kept := 0 } ∧
    remove 2 195 195 = { entries := [range 100 95], deleted := 0, shortened := 1, split := 0, kept := 0 } ∧
    remove 2 110 119 = { entries := [range 100 10, range 120 76], deleted := 0, shortened := 0, split := 1, kept := 0 } ∧
    remove 3 110 119 = { entries := [entry1], deleted := 0, shortened := 0, split := 0, kept := 0 } ∧
    lossesLegal (fun _ => 13799999) fullList ∧
    removeLosses 13799999 5 1 1 512 fullList =
      { entries := fullList, deleted := 0, shortened := 0, split := 0, kept := 1 } ∧
    lossesLegal (fun _ => 2 ^ 33) [longEntry] ∧
    (long 7 9).entries = [range 0 7, { longEntry with first := 10 }] ∧ (long 7 (2 ^ 33)).entries = [range 0 7] ∧
    long (2 ^ 32) (2 ^ 33) = { entries := [longEntry], deleted := 0, shortened := 0, split := 0, kept := 1 } :=
  ⟨entries_legal, by decide +kernel, by decide +kernel, by decide +kernel, by decide +kernel, by decide +kernel,
    fullList_legal, by decide +kernel, longEntry_legal, by decide +kernel, by decide +kernel, by decide +kernel⟩

/-- Extent 2 with its whole array range listed, a slip taken. -/
def losing : State := State.taking (served.withLosses fun l => { l with entries := [entry1] })

/-- LOSSES REMOVE of extent `e`, `count` blocks from `first`. -/
def removeBody (e first count : Byte) : SlipBody := bodyOf [(0x20, 2), (0x21, e), (0x38, first), (0x40, count)]

/-- LOSSES EXPORT or IMPORT of extent `e` with room for `count` records. -/
def lossBody (operation e count : Byte) : SlipBody := bodyOf [(0x20, operation), (0x21, e), (0x24, count)]

/-- A transfer of slip 9. -/
def transferring (work : TransferWork) : State :=
  losing.addTransfer { slip := 9, buffer := 0, work := work }

theorem witness_LossesRemovedAndExported :
    (losing.AtRest ∧ losing.sweepAt .slipRead = some (sweeping .slipRead) ∧
      (lossFields (removeBody 2 100 96)).operation = 2 ∧ (lossFields (bodyOf [(0x20, 3)])).operation ≠ 2) ∧
    16 ≤ (lossFields (removeBody 16 100 1)).extent ∧ (lossFields (removeBody 2 100 0)).blockCount = 0 ∧
    (losing.extent 3).condition = .unused ∧
    (let f := lossFields (removeBody 2 100 97)
     f.extent = (2 : ExtentId).val ∧ f.blockCount ≠ 0 ∧ (losing.extent 2).arrayLimit < f.firstBlock + f.blockCount - 1) ∧
    (let f := lossFields (removeBody 2 100 96)
     (losing.extent 2).condition ≠ .unused ∧ (losing.extent 2).arrayStart ≤ f.firstBlock ∧
       f.firstBlock + f.blockCount - 1 ≤ (losing.extent 2).arrayLimit) ∧
    let f := lossFields (lossBody 0 255 1)
    (losing.AtRest ∧ losing.sweepAt .slipRead = some (sweeping .slipRead) ∧ f.operation = 0) ∧
    ((f.extent < 16 ∨ f.extent = 255) ∧ 1 ≤ f.recordCount ∧ f.recordCount ≤ 512 ∧ f.buffer % 4096 = 0 ∧
      f.buffer + f.recordCount * 16 - 1 < 2 ^ 64) ∧
    ¬ 1 ≤ (lossFields (lossBody 0 255 0)).recordCount ∧ (lossFields (lossBody 3 255 1)).operation ≠ 0 ∧
    (transferring (.exporting [entry1] 0 none 1 0 0)).losses.transfers.find? (fun y => y.slip == 9) =
      some { slip := 9, buffer := 0, work := .exporting [entry1] 0 none 1 0 0 } := by decide +kernel

/-- The record of `entry1`, with its reach byte replaced. -/
def record1 (reach : Byte) (first : Nat) : RecordBytes := (recordBytes { entry1 with first := first, count := 1 }).set 6 reach

theorem witness_LossesImported :
    let f := lossFields (lossBody 1 2 1)
    let s := transferring (.importing 2 1)
    (losing.AtRest ∧ losing.sweepAt .slipRead = some (sweeping .slipRead) ∧ f.operation = 1) ∧
    (f.extent < 16 ∧ 1 ≤ f.recordCount ∧ f.recordCount ≤ 512 ∧ f.buffer % 4096 = 0 ∧
      f.buffer + f.recordCount * 16 - 1 < 2 ^ 64 ∧ f.extent = (2 : ExtentId).val) ∧
    ¬ (lossFields (lossBody 1 255 1)).extent < 16 ∧ (lossFields (lossBody 0 2 1)).operation ≠ 1 ∧ (losing.extent 3).condition = .unused ∧
    (s.AtRest ∧ s.losses.transfers.find? (fun y => y.slip == 9) =
      some { slip := 9, buffer := 0, work := .importing 2 1 } ∧ (s.extent 2).condition ≠ .unused) ∧
    (recordFields (record1 2 100)).reach = 2 ∧ (recordFields (record1 0 99)).first = 99 ∧
    (let r := recordFields (record1 0 195)
     r.extent = 2 ∧ r.reach = 0 ∧ 1 ≤ r.count ∧ (s.extent 2).arrayStart ≤ r.first ∧
       r.first + r.count - 1 ≤ (s.extent 2).arrayLimit) ∧
    entry1.first < 2 ^ 40 ∧ entry1.count < 2 ^ 32 := by decide +kernel

/-! ## Witnesses: member ports -/

theorem witness_LinkEvents : served.AtRest ∧ (served.port 0).legal ∧ (served.port 0).memberState = .online ∧
    served.extentOfPort 0 = some 2 ∧ (served.port 4).memberState = .spare :=
  ⟨rfl, by unfold Port.legal; decide +kernel, by decide +kernel⟩

/-- A request of context 0 for two blocks of position 0 from offset 1. -/
def request0 (kind : RequestKind) : Request :=
  { kind := kind, cls := .foreground, owner := some 0, position := 0, offset := 1, memberBlock := 1, count := 2,
    repair := false }

/-- Context 0 reading position 0 into its frame, its request outstanding in slot 0 of port 0 with some ticks left. -/
def outstanding (kind : RequestKind) (ticks : Nat) : State :=
  (served.setContext 0 (some { readRow with phase := .gather, frames := [Frame.fresh 0] })).withPort 0 fun x =>
    { x with slots := x.slots.set 0 (some { request := request0 kind, issue := 0, ticksLeft := ticks, contents := [] }) }

theorem slots_empty (p : PortId) (i : Tag) : (served.port p).slots[i.val] = none := by
  have : ∀ (p : PortId) (i : Tag), (served.port p).slots[i.val] = none := by decide +kernel
  exact this p i

theorem witness_RepliesTaken :
    (served.AtRest ∧ (∀ o, (served.port 0).slots[reply1.tag.val] = some o → o.issue ≠ reply1.issue) ∧
      (served.port 0).stalled = false) ∧
    (let s := outstanding .read 5
     ∃ o op, s.AtRest ∧ (s.port 0).slots[reply1.tag.val] = some o ∧ o.issue = reply1.issue ∧ o.request.kind = .read ∧
       o.request.owner = some 0 ∧ s.context 0 = some op ∧ reply1.outcome = .good [[(0, 1)]] ∧
       { reply1 with outcome := .unreadable [1] [[], []] }.outcome = .unreadable [1] [[], []] ∧
       (s.port 0).stalled = false) ∧
    (let s := outstanding .write 5
     ∃ o op, s.AtRest ∧ (s.port 0).slots[reply1.tag.val] = some o ∧ o.issue = reply1.issue ∧ o.request.kind = .write ∧
       o.request.owner = some 0 ∧ s.context 0 = some op ∧ (s.port 0).memberState = .online ∧ (s.port 0).stalled = false) ∧
    (let s := (outstanding .write 5).withPort 0 fun x => { x with memberState := .failed }
     ∃ o op, s.AtRest ∧ (s.port 0).slots[reply1.tag.val] = some o ∧ o.issue = reply1.issue ∧ o.request.kind = .write ∧
       o.request.owner = some 0 ∧ s.context 0 = some op ∧ (s.port 0).memberState ≠ .online ∧
       (s.port 0).memberState ≠ .target ∧ (s.port 0).stalled = false) ∧
    (let s := outstanding .probe 5
     ∃ o, s.AtRest ∧ (s.port 0).slots[reply1.tag.val] = some o ∧ o.issue = reply1.issue ∧ o.request.kind = .probe ∧
       (s.port 0).stalled = false) ∧
    (∃ o ∈ [0, 2], o < 2) ∧ ∀ o ∈ [2], 2 ≤ o :=
  ⟨⟨rfl, fun o h => (by rw [slots_empty] at h; cases h), rfl⟩, ⟨_, _, rfl, rfl, rfl, rfl, rfl, rfl, rfl, rfl, rfl⟩,
    ⟨_, _, rfl, rfl, rfl, rfl, rfl, rfl, rfl, rfl⟩, ⟨_, _, rfl, rfl, rfl, rfl, rfl, rfl, by decide, by decide, rfl⟩,
    ⟨_, rfl, rfl, rfl, rfl, rfl⟩, by decide, by decide⟩

/-- A reply to that request that says the drive is not ready. -/
def notReady1 : Reply := { reply1 with outcome := .notReady }

theorem witness_UnansweredRequests :
    (∀ kind, ∃ o, (outstanding kind 0).AtRest ∧ ((outstanding kind 0).port 0).slots[(0 : Tag).val] = some o ∧
      o.ticksLeft = 0 ∧ o.request.kind = kind ∧ ((outstanding kind 0).port 0).memberState = .online ∧
      ((outstanding kind 0).port 0).lapseCount + 1 < (outstanding kind 0).settings.stallLimit) ∧
    (∃ o, ((outstanding .read 1).port 0).slots[(0 : Tag).val] = some o ∧ 0 < o.ticksLeft ∧ notReady1.tag = 0 ∧
      notReady1.issue = o.issue ∧ normalise o.request.kind o.request.count notReady1.outcome = .notReady) ∧
    normalise .write 2 .writeFault = .writeFault ∧
    ((outstanding .read 0).withPort 0 fun x => { x with lapseCount := 2 }).settings.stallLimit ≤ 2 + 1 ∧
    (((outstanding .read 0).withPort 0 fun x => { x with memberState := .released }).port 0).memberState = .released ∧
    ∃ x : Outstanding, ((outstanding .probe 1).port 0).slots[(0 : Tag).val] = some x ∧ x.request.kind = .probe :=
  ⟨fun kind => ⟨_, rfl, rfl, rfl, rfl, rfl, by cases kind <;> decide⟩, ⟨_, rfl, by decide, rfl, rfl, rfl⟩, rfl,
    by decide, rfl, ⟨_, rfl, rfl⟩⟩

theorem witness_StallsClear :
    (stalled.AtRest ∧ (stalled.port 0).stalled = true ∧ (stalled.port 0).memberState = .online ∧
      ∀ o, (stalled.port 0).slots[reply1.tag.val] ≠ some o) ∧
    let s := (outstanding .probe 5).withPort 0 fun x => { x with stalled := true }
    ∃ o, (s.port 0).stalled = true ∧ (s.port 0).slots[reply1.tag.val] = some o ∧ o.issue = reply1.issue ∧
      normalise o.request.kind o.request.count reply1.outcome ≠ .notReady ∧
      normalise o.request.kind o.request.count reply1.outcome ≠ .writeFault := by
  refine ⟨⟨rfl, rfl, rfl, fun o h => ?_⟩, ⟨_, rfl, rfl, rfl, by decide, by decide⟩⟩
  have : (stalled.port 0).slots[reply1.tag.val] = none := slots_empty 0 0
  rw [this] at h
  cases h

/-- The clauses of StallsClear on what the owner of a READ and of a WRITE with a next run takes. -/
theorem witness_StallsClear_owner :
    let stall := fun s : State => s.withPort 0 fun x => { x with stalled := true }
    let s := stall (outstanding .read 5)
    let run : WriteRun := { position := 0, first := 4, count := 1, repair := false }
    let w := stall ((outstanding .write 5).withOperation 0 fun op => { op with writesLeft := [{ port := 0, runs := [run] }] })
    ((s.port 0).slots[reply1.tag.val].map fun o => (o.issue == reply1.issue, o.request.kind, o.request.owner)) =
        some (true, RequestKind.read, some (0 : ContextId)) ∧
      reply1.outcome = .good [[(0, 1)]] ∧ (s.context 0).isSome ∧
      (after (.driveReply 0 reply1) s).map (fun t => (t.context 0).isSome) = some true ∧
    ((w.port 0).slots[reply1.tag.val].map fun o => (o.issue == reply1.issue, o.request.kind, o.request.owner)) =
        some (true, RequestKind.write, some (0 : ContextId)) ∧
      (after (.driveReply 0 reply1) w).map (fun t => (t.context 0).map fun op => op.writesLeft.map PortRuns.runs) =
        some (some [[]]) := by decide +kernel

/-- The clause of EvaluationSays on what a job's target for a position is, with a target and with none. -/
theorem witness_EvaluationSays_targetOf :
    ((rebuilding.job 0).sources.map Source.position).Nodup ∧ (rebuilding.job 0).targetOf 1 = some 4 ∧
      (untargetedAlone.job 0).targetOf 1 = none := by decide +kernel

/-- Port 0 with requests pending. -/
def waiting (l : List Request) : State := served.withPort 0 fun x => { x with waiting := l }

theorem witness_RequestIssues :
    let r := request0 .read
    let b := { request0 .read with cls := .rebuild }
    (waiting [b, r]).AtRest ∧ (((waiting [b, r]).port 0).stalled = false ∧
      ((waiting [b, r]).port 0).slots[(0 : Tag).val] = none ∧ (∀ i : Tag, i < 0 → False) ∧
      ((waiting [b, r]).port 0).waiting = [b] ++ r :: [] ∧ r.cls = .foreground ∧ ∀ q ∈ [b], q.cls ≠ .foreground) ∧
    (((waiting [b]).port 0).waiting = [] ++ b :: [] ∧ b.cls = .rebuild ∧
      ((waiting [b]).port 0).outstandingOf .rebuild < 6) ∧
    (stalled.port 0).stalled = true ∧ (∀ q ∈ ((waiting []).port 0).waiting, q.cls ≠ .rebuild) ∧
    (let w := request0 .write
     let s := (waiting [w]).setContext 0 (some { readRow with frames := [Frame.fresh 0] })
     (s.port 0).waiting = [] ++ w :: [] ∧ w.kind = .write ∧ w.owner = some 0 ∧
       s.context 0 = some { readRow with frames := [Frame.fresh 0] } ∧
       [Frame.fresh 0].find? (fun y => y.position == w.position) = some (Frame.fresh 0) ∧ w.offset + 1 < 16 ∧
       1 < w.count) := by decide +kernel

/-! ## Witnesses: the row engine -/

/-- The row request of `readRow`, and that of `rebuildRow`. -/
def waitRead : RowRequest :=
  { kind := .readRow, owner := .slip 9 0, extent := 2, row := 0, requested := readRow.requested, countedBy := none }
def waitRebuild : RowRequest :=
  { kind := .rebuildRow, owner := .job 0, extent := 2, row := 1, requested := [], countedBy := none }

/-- Contexts 0 to 11 rebuilding, with a rebuild request and a read request waiting. -/
def crowded : State :=
  ((bankIndices 12).foldl (fun s i => s.setContext (Fin.ofNat 24 i.val) (some rebuildRow)) rebuilding).withRows fun r =>
    { r with contextWait := [waitRebuild, waitRead] }

/-- Extent 2 made LOST. -/
def State.lose (s : State) : State := s.withExtent 2 fun e => { e with condition := .lost }

/-- `readRow` granted its hold. -/
def granted (op : Operation) : State :=
  (rebuilding.setContext 3 (some op)).withHolds fun t => { t with granted := [3] }

/-- Job 0 of `s` draining after the loss of its last target. -/
def untargeted (s : State) : State :=
  s.withJob 0 fun j => { j with state := .aborting, drainCause := some .targetLost, targetless := true }

theorem passes_slip (s : State) (op : Operation) (i : SlipId) (piece : Nat) (h : op.owner = .slip i piece)
    (live : (s.extent op.extent).condition ≠ .lost) (seen : op.lostSeen = false) : s.Passes op :=
  ⟨fun k => k.elim live fun l => (by rw [seen] at l; cases l), fun ⟨_, own, _⟩ => (by rw [h] at own; cases own)⟩

/-- Of row operations that pass both boundary tests, that lose their row, and that lose their target. -/
theorem witness_boundaries :
    rebuilding.Passes readRow ∧ (State.lose served).LosesRow readRow ∧
    served.LosesRow { readRow with lostSeen := true } ∧
    ¬ (untargeted rebuilding).LosesRow rebuildRow ∧ (untargeted rebuilding).LosesTarget rebuildRow := by
  refine ⟨passes_slip _ _ 9 0 rfl (by decide) rfl, .inl (by decide), .inr rfl, ?_, ⟨0, rfl, rfl, rfl⟩⟩
  unfold State.LosesRow
  decide +kernel

theorem witness_ContextsAndHoldsGranted :
    (crowded.AtRest ∧ crowded.context 12 = none ∧ (∀ d : ContextId, d < 12 → crowded.context d ≠ none) ∧
      crowded.rows.contextWait = [waitRebuild] ++ waitRead :: [] ∧ waitRead.kind ≠ .rebuildRow ∧
      (∀ q ∈ [waitRebuild], q.kind = .rebuildRow ∧ 12 ≤ crowded.rebuildContextCount)) ∧
    (waitRead.operation = readRow ∧ waitRebuild.operation = rebuildRow) ∧
    (let s := rebuilding.withRows fun r => { r with contextWait := [waitRebuild] }
     s.rows.contextWait = [] ++ waitRebuild :: [] ∧ s.context 0 = none ∧ s.rebuildContextCount < 12) ∧
    (∀ r ∈ (crowded.withRows fun r => { r with contextWait := [waitRebuild] }).rows.contextWait,
      r.kind = .rebuildRow ∧ 12 ≤ crowded.rebuildContextCount) ∧
    ((granted readRow).AtRest ∧ (granted readRow).holds.granted = 3 :: [] ∧ (granted readRow).context 3 = some readRow ∧
      readRow.frames = []) ∧ idle.holds.granted = [] := by decide +kernel

/-- The plans that the granted operations come to: frames to wait for, none to wait for, an end. -/
theorem witness_PlanTaken :
    (match (granted readRow).makePlan readRow with | .ready plan => plan.frameNeed | _ => 0) = 1 ∧
    (match (State.lose (granted readRow)).makePlan readRow with | .ended o => o | _ => .done) = .extentLost ∧
    (match (granted (newOperation .resyncRow (.slip 9 0) 0 [])).makePlan (newOperation .resyncRow (.slip 9 0) 0 []) with
      | .ended o => o
      | _ => .done) = .skipped := by decide +kernel

/-- `rebuilding` with port 0 stalled, which holds the parity of row 1. -/
def stalledParity : State := rebuilding.withPort 0 fun x => { x with stalled := true }

/-- A WRITE_ROW of row 1, none of its blocks covered. -/
def writeRow1 : Operation := newOperation .writeRow (.slip 9 0) 1 []

theorem rebuilding_extent_legal : (rebuilding.extent 2).legal := by unfold Extent.legal; decide +kernel

/-- The boundary tests are `witness_boundaries`. Then SKIPPED, AWAIT_MEMBER with a port that the plan writes to, plans of a
READ_ROW that carries a read set and of a REBUILD_ROW, and a copy row. -/
theorem witness_PlansByKind :
    (rebuilding.extent 2).legal ∧ (∀ w ∈ readRow.carried, 1 ≤ w.count) ∧
    (∀ w ∈ { readRow with carried := [{ position := 0, first := 1, count := 2 }] }.carried, 1 ≤ w.count) ∧
    (let op := newOperation .resyncRow (.slip 9 0) 0 []
     rebuilding.Passes op ∧ op.kind = .resyncRow ∧
       ∃ p ∈ (rebuilding.extent op.extent).dataPositions op.row, rebuilding.servingPort op.extent p op.row = none) ∧
    (stalledParity.Passes writeRow1 ∧ writeRow1.kind ≠ .readRow ∧ writeRow1.kind ≠ .resyncRow ∧
      (stalledParity.port 0).stalled = true ∧
      stalledParity.Writes { writeRow1 with results := [], closed := [], record := [] } 0 0 0) ∧
    (rebuilding.Passes readRow ∧ readRow.kind = .readRow ∧ readRow.kind ≠ .resyncRow) ∧
    (rebuilding.Passes rebuildRow ∧ rebuildRow.kind ≠ .resyncRow ∧ ∀ q : PortId, (rebuilding.port q).stalled = false) ∧
    copying.CopiesFrom rebuildRow 3 := by
  have noJob : rebuilding.Passes rebuildRow := by
    unfold State.Passes State.LosesRow State.LosesTarget
    refine ⟨by decide +kernel, ?_⟩
    rintro ⟨j, own, _, k⟩
    have : j = 0 := by cases own; rfl
    subst this
    revert k
    decide +kernel
  refine ⟨rebuilding_extent_legal, by decide, by decide,
    ⟨passes_slip _ _ 9 0 rfl (by decide +kernel) rfl, rfl, 1, by decide +kernel, by decide +kernel⟩,
    ⟨passes_slip _ _ 9 0 rfl (by decide +kernel) rfl, by decide, by decide, by decide +kernel,
      by decide, by decide, .inl ⟨by decide +kernel, by decide +kernel, .inl (.inl (by decide +kernel))⟩⟩,
    ⟨passes_slip _ _ 9 0 rfl (by decide +kernel) rfl, rfl, by decide⟩, ⟨noJob, by decide, by decide +kernel⟩,
    ⟨rfl, 0, 3, { position := 3, target := 4 }, rfl, by decide +kernel, by decide +kernel, by decide +kernel, rfl,
      by decide +kernel, by decide +kernel⟩⟩

theorem witness_HoldsRequestedAndReleased :
    let h : HoldEntry := { extent := 2, row := 0, mode := .shared, holders := [0, 1], waiters := [] }
    let t : HoldTable := { entries := [h], granted := [] }
    let w : HoldEntry := { h with waiters := [(2, .sole), (3, .shared)] }
    t.legal ∧ (∀ x ∈ t.entries, ¬ (x.extent = 2 ∧ x.row = 1)) ∧ t.entries = [] ++ h :: [] ∧ h.extent = 2 ∧ h.row = 0 ∧
      (0 : ContextId) ∈ h.holders ∧ w.waiters.head?.map Prod.fst = some 2 ∧ (w.leave 2).2 = [3] ∧
      ((3 : ContextId) ∉ w.holders ∧ w.waiters.head?.map Prod.fst ≠ some 3) := by
  refine ⟨?_, by decide⟩
  unfold HoldTable.legal
  exact ⟨by decide, List.pairwise_singleton _ _⟩

/-- `op` in context 0 at the head of the frame wait list. -/
def framing (op : Operation) : State := (rebuilding.setContext 0 (some op)).withRows fun r => { r with frameWait := [0] }

theorem witness_FramesGranted :
    let op := { readRow with
      phase := .frameWait,
      plan := { Plan.none with reads := [{ position := 0, port := 0, first := 1, count := 2 },
        { position := 1, port := 1, first := 0, count := 16 }] } }
    let full := (framing op).setContext 1 (some { readRow with frames := (List.range 159).map Frame.fresh })
    ((framing op).AtRest ∧ (framing op).rows.frameWait = 0 :: [] ∧ (framing op).context 0 = some op ∧
      ((framing op).extent 2).condition ≠ .lost ∧ op.lostSeen = false ∧ op.owner = .slip 9 0 ∧
      op.plan.frameNeed ≤ (framing op).framesFree) ∧
    full.framesFree < op.plan.frameNeed ∧ ((State.lose (framing op)).extent 2).condition = .lost ∧
    ((untargeted (framing rebuildRow)).rows.frameWait = 0 :: [] ∧
      (untargeted (framing rebuildRow)).context 0 = some rebuildRow) ∧
    ((framing op).port 0).memberState.carries = true ∧ ((framing op).port 1).memberState.carries = false ∧
    served.rows.frameWait = [] ∧
    (served.setContext 0 (some { readRow with fetching := true })).context 0 = some { readRow with fetching := true } ∧
    served.context 1 = none := by decide +kernel

/-- `op` gathering in context 0, its reads `results` ended. -/
def gathering (s : State) (op : Operation) : State := s.setContext 0 (some { op with phase := .gather })

/-- Position `p` read from port `p`, offsets 1 and 2. -/
def result (p : Nat) (ending : Ending) : ReadResult :=
  { position := p, port := Fin.ofNat 16 p, first := 1, count := 2, ending := ending }

/-- `readRow` of data strip 1, at position 1. -/
def readLost : Operation := { readRow with requested := [{ strip := 1, first := 1, count := 2 }] }

theorem nothing_open (s : State) (c : ContextId) (h : s.requestsOpen c = false) : s.NothingOpen c := by
  intro p
  unfold State.requestsOpen at h
  have hp := List.any_eq_false.mp h (s.port p) (by simp [State.port])
  simp only [Bool.or_eq_true, not_or, Port.waitsFor, Port.hasOutstanding, Bool.not_eq_true] at hp
  refine ⟨fun r hr => ?_, fun i o ho => ?_⟩
  · have := List.any_eq_false.mp hp.1 r hr
    simpa using this
  · have mem : some o ∈ (s.port p).slots.toArray.toList := by rw [← ho]; simp
    have := List.any_eq_false.mp hp.2 _ mem
    simpa [slotOwnedBy] using this

theorem witness_ReadsEnd_common : (gathering served readRow).AtRest ∧ (gathering served readRow).NothingOpen 0 ∧
    (gathering served readRow).context 0 = some { readRow with phase := .gather } ∧ readRow.lostSeen = false ∧
    readRow.fetching = false ∧ readRow.bufferFault = false ∧ readRow.owner = .slip 9 0 ∧
    ((gathering served readRow).extent 2).condition ≠ .lost ∧
    ((State.lose (gathering served readRow)).extent 2).condition = .lost ∧
    (untargeted (gathering rebuilding rebuildRow)).context 0 = some { rebuildRow with phase := .gather } :=
  ⟨rfl, nothing_open _ _ (by decide +kernel), by decide +kernel⟩

/-- A RESYNC_ROW with a failed read, and one with none; a supplement; a wait for stalled ports; a close; a solve; a
place as read. -/
theorem witness_ReadsEnd_clauses :
    let resync := newOperation .resyncRow (.slip 9 0) 0 []
    (∃ p ∈ single.dataPositions 0, ∃ i, i < 16 ∧ { resync with results := [result 0 .lapsed] }.erased i p = true) ∧
    (∀ p ∈ single.dataPositions 0, ∀ i, i < 16 → resync.erased i p = false) ∧
    (let op := { readRow with frames := [Frame.fresh 0] }
     op.missing single (served.countedStalls op).isEmpty ≠ [] ∧
       served.namedForPlan op (served.countedStalls op).isEmpty = [] ∧ (∀ p, p < 4 → op.failedAt p = false)) ∧
    served.namedForPlan readRow (served.countedStalls readRow).isEmpty ≠ [] ∧
    (let op := { readRow with plan := { Plan.none with unavailable := [0, 1] } }
     let s := stalled.withPort 1 fun x => { x with stalled := true }
     op.missing single (s.countedStalls op).isEmpty = [] ∧ op.unsolvables single ≠ [] ∧ s.countedStalls op ≠ []) ∧
    (let op := { readRow with plan := { Plan.none with unavailable := [1] }, results := [result 0 (.unreadable [1, 2])] }
     op.missing single (exposed.countedStalls op).isEmpty = [] ∧ op.unsolvables single ≠ [] ∧
       exposed.countedStalls op = []) ∧
    (let op := { readLost with
       plan := { Plan.none with unavailable := [1] }, results := [result 0 .good, result 2 .good, result 3 .good] }
     op.missing single (exposed.countedStalls op).isEmpty = [] ∧ op.unsolvables single = [] ∧
       op.isAsRead single = false) ∧
    (let op := { readRow with results := [result 0 .good] }
     op.missing single (served.countedStalls op).isEmpty = [] ∧ op.unsolvables single = [] ∧ op.isAsRead single = true) ∧
    { readRow with phase := .awaitMember, woken := true }.woken = true := by decide +kernel

theorem witness_SolverSteps :
    let s := (served.setContext 0 (some { readRow with phase := .solveWait })).withSolver fun v => { v with queue := [0] }
    let b := (served.setContext 0 (some { readRow with phase := .solving })).withSolver fun v => { v with busy := some 0 }
    (s.AtRest ∧ s.solver.busy = none ∧ s.solver.queue = 0 :: [] ∧
      s.context 0 = some { readRow with phase := .solveWait } ∧ (s.extent 2).condition ≠ .lost ∧
      readRow.lostSeen = false ∧ readRow.owner = .slip 9 0) ∧ ((State.lose s).extent 2).condition = .lost ∧
    (b.AtRest ∧ b.solver.busy = some 0 ∧ b.context 0 = some { readRow with phase := .solving } ∧
      readRow.kind = .readRow ∧ rebuildRow.kind ≠ .readRow) ∧
    (let op := { rebuildRow with closed := [3, 15] }
     op.row < single.rows ∧ op.closed.Pairwise (· < ·) ∧ (∀ i ∈ op.closed, i < 16) ∧
       (newOperation .writeRow (.slip 9 0) 1 []).kind = .writeRow ∧
       (newOperation .resyncRow (.slip 9 0) 1 []).kind = .resyncRow) ∧
    let op := { readRow with plan := { Plan.none with listed := [(0, 1), (0, 2)] } }
    op.plan.listed.Nodup ∧ ∀ x ∈ op.plan.listed, (op.requestedAt single x.1).contains x.2 = true := by decide +kernel

theorem witness_SolverSteps_legal : single.legal := single_legal

/-- `op` in PLACE in context 0. -/
def placing (op : Operation) : State := rebuilding.setContext 0 (some { op with phase := .place })

theorem rebuilding_legal : rebuilding.JobsLegal := by unfold State.JobsLegal Job.legal; decide +kernel

theorem witness_PlaceEnds : ((placing { readRow with delivering := true }).AtRest ∧
      (placing { readRow with delivering := true }).context 0 = some { readRow with delivering := true, phase := .place }) ∧
    (placing rebuildRow).NothingOpen 0 ∧ ((placing rebuildRow).context 0 = some { rebuildRow with phase := .place } ∧
      rebuildRow.delivering = false ∧ rebuildRow.owner = .job 0 ∧ rebuildRow.kind = .rebuildRow ∧
      rebuildRow.countedBy = none ∧ (rebuilding.job 0).state ≠ .aborting ∧ (rebuilding.job 0).isOn = true ∧
      rebuildRow.row ∈ (rebuilding.job 0).inFlight ∧ (rebuilding.extent 2).condition ≠ .lost) ∧
    readRow.owner = .slip 9 0 ∧ (rebuilding.job 0).legal :=
  ⟨by decide +kernel, nothing_open _ _ (by decide +kernel), by decide +kernel, rfl, rebuilding_legal 0⟩

/-! ## Witnesses: arithmetic and invariants -/

theorem extent5_legal : extent5.legal := by unfold Extent.legal; decide +kernel

theorem witness_ParityPlacement : single.legal ∧ extent5.legal ∧ mirror.legal :=
  ⟨single_legal, extent5_legal, mirror_legal⟩

theorem witness_TranslationRoundTrip : (served.extent 2).legal ∧ (served.extent 2).arrayStart ≤ 195 ∧
    195 ≤ (served.extent 2).arrayLimit ∧ (served.extent 2).arrayLimit < 196 ∧
    (served.extent 2).isParity ((16 - (served.extent 2).memberBase) / (served.extent 2).stripSize) 0 = true :=
  ⟨single_legal, by decide +kernel⟩

theorem witness_ParityDefined : (∀ j, j < 4 → (data4 j).wf = true) ∧ extent5.legal ∧
    (newOperation .writeRow (.slip 9 0) 4 []).recomputes 15 = true := ⟨by decide, extent5_legal, by decide⟩

/-- A row of `extent5` in which data strips 1 and 2 are erased and the frames hold the other strips of `data4`: stripe 0
has P at position 4 and Q at position 5. -/
def solving : Operation :=
  { newOperation .rebuildRow (.job 0) 0 [] with
    plan := { Plan.none with unavailable := [1, 2] }
    frames := [(0, data4 0), (3, data4 3), (4, one 0x08), (5, one 0xD8)].map fun x =>
      { position := x.1, blocks := Vector.replicate 16 x.2 } }

/-- The new contents of the covered block at offset 15 of data strip 0. -/
def new15 : NewBlock := { position := 0, offset := 15, contents := one 0x99 }

/-- A WRITE_ROW of `extent5` that covers data strip 0 and has read the others. -/
def renewing : Operation :=
  { newOperation .writeRow (.slip 9 0) 0 [{ strip := 0, first := 0, count := 16 }] with
    fetched := some [new15]
    frames := [1, 2, 3].map fun j => { position := j, blocks := Vector.replicate 16 (data4 j) } }

/-- A consistent row with two data strips erased; a covered block, with nothing uncovered erased; a closed offset; and a
lost one. -/
theorem witness_SolverRestores : extent5.legal ∧ (∀ j, j < extent5.dataCount → (data4 j).wf = true) ∧
    (∀ p, solving.covers extent5 15 p = false) ∧ 15 ∉ solving.closed ∧ 15 ∉ solving.lost ∧
    (solving.erasures extent5 15).length ≤ extent5.parityCount ∧
    (∀ j, j < extent5.dataCount → solving.erased 15 (extent5.dataPosition 0 j) = false →
      solving.frameBlock (extent5.dataPosition 0 j) 15 = data4 j) ∧
    solving.frameBlock 4 15 = parityP 4 data4 ∧ solving.frameBlock 5 15 = parityQ 4 data4 ∧
    (renewing.kind = .writeRow ∧ renewing.covers extent5 15 (extent5.dataPosition 0 0) = true ∧ 15 ∉ renewing.closed ∧
      15 ∉ renewing.lost ∧ renewing.fetched = some [new15] ∧
      [new15].find? (fun y => y.position == extent5.dataPosition 0 0 && y.offset == 15) = some new15) ∧
    (∀ j ∈ [1, 2, 3], renewing.erased 15 (extent5.dataPosition 0 j) = false ∧
      renewing.frameBlock (extent5.dataPosition 0 j) 15 = data4 j) ∧
    15 ∈ { renewing with closed := [15] }.closed ∧
    let op := { solving with kind := .readRow, lost := [15] }
    15 ∈ op.lost ∧ op.kind = .readRow ∧ op.erased 15 (extent5.dataPosition 0 1) = true :=
  ⟨extent5_legal, by decide, fun _ => rfl, by decide, by decide, by decide +kernel, by decide +kernel, by decide +kernel,
    by decide +kernel, by decide +kernel, by decide +kernel, by decide, by decide +kernel⟩

/-- A READ_ROW whose buffer places are known, of a request at 4096. -/
def requesting : State := served.withRequests fun _ => [{ request1 with buffer := 4096 }]

theorem witness_EvaluationSays : (served.extent readRow.extent).legal ∧
    (requesting.bufferPlaces readRow)[1]? = some { position := 0, offset := 2, address := 12288 } ∧
    (0, 2) ∈ { readRow with plan := { Plan.none with listed := [(0, 2)] } }.plan.listed ∧
    (0, 2) ∉ readRow.plan.listed ∧ 2 ∉ readRow.lost ∧
    served.servingPort 2 1 0 = some 1 ∧ exposed.servingPort 2 1 0 = none := ⟨single_legal, by decide +kernel⟩

/-- Each outcome of a row, for a request that has gone well and one that a fault has stopped. -/
theorem witness_RowEndsTaken : [rebuildRow, readRow, newOperation .writeRow (.slip 9 0) 1 [],
      newOperation .resyncRow (.slip 9 0) 0 []].map Operation.kind = [.rebuildRow, .readRow, .writeRow, .resyncRow] ∧
    request1.stop = none ∧ { request1 with stop := some .bufferFault }.stop ≠ none ∧
    request1.worst ∈ [Status.good, .recovered, .lossKept, .lostData, .failed] ∧ request1.kind ≠ .resync ∧
    { request1 with kind := .resync }.kind = .resync ∧ { request1 with kind := .write }.kind = .write ∧
    request1.kind = .read := by decide

theorem witness_PortsStayLegal : State.PortsLegal { served with pending := [.linkDown 0] } ∧
    ∃ t, step { served with pending := [.linkDown 0] } = .next t :=
  ⟨by unfold State.PortsLegal Port.legal; decide +kernel, ⟨_, rfl⟩⟩

theorem witness_JobsStayLegal : State.JobsLegal { placing rebuildRow with pending := [.placeEnd 0] } ∧
    ∃ t, step { placing rebuildRow with pending := [.placeEnd 0] } = .next t :=
  ⟨by unfold State.JobsLegal Job.legal; decide +kernel, ⟨_, rfl⟩⟩

theorem witness_AdmissionStaysLegal : (reading (full48.take 47) false).board.admissionLegal ∧
    ∃ t, step { reading (full48.take 47) false with pending := [.sweepHolderRead 1] } = .next t := by
  have free : (5 : SlipId) ∉ (reading (full48.take 47) false).board.takenSlips := by decide +kernel
  refine ⟨⟨by decide +kernel, by decide +kernel, ?_⟩, ⟨_, rfl⟩⟩
  rintro run ⟨⟩
  exact free

theorem witness_HoldsStayLegal : (State.reset.holds.legal) ∧
    ∃ t, step { crowded with pending := [.contextGrant] } = .next t :=
  ⟨⟨by decide, List.Pairwise.nil⟩, ⟨_, rfl⟩⟩

theorem witness_AtRestAndSettingsKept : (State.taking idle).AtRest ∧ idle.settings.legal ∧
    ∃ t, step { State.taking idle with pending := [.settings 0 settingsBody1] } = .next t :=
  ⟨rfl, by unfold Settings.legal; decide, ⟨_, rfl⟩⟩

theorem losing_map : losing.MapLegal := served_map

theorem losing_rows : losing.RowsLegal := by
  have jobs : ∀ j : JobId, (losing.job j).isOn = true → (losing.job j).endRow ≤ (losing.extent (losing.job j).extent).rows := by
    decide +kernel
  have none : ∀ c : ContextId, losing.context c = none := by decide +kernel
  refine ⟨fun c op h => ?_, fun _ h => (List.not_mem_nil h).elim, fun _ h => (List.not_mem_nil h).elim, jobs⟩
  rw [none c] at h
  cases h

/-- REMOVE of blocks 101 to 104 of extent 2, waiting. -/
def removing : State := { losing with pending := [.lossesRemove 0 (removeBody 2 101 4)] }

theorem witness_RowsStayInRange : removing.MapLegal ∧ removing.RowsLegal ∧ ∃ t, step removing = .next t :=
  ⟨losing_map, losing_rows, ⟨_, rfl⟩⟩

theorem witness_ListsStayLegal : removing.MapLegal ∧ removing.RowsLegal ∧ (∃ t, step removing = .next t) ∧
    lossesLegal removing.arrayLimits removing.losses.entries ∧ unsettledLegal written.lastRows written.rows.unsettled :=
  ⟨losing_map, losing_rows, ⟨_, rfl⟩, entries_legal, written_legal⟩

end Sys2Proof.Tests
end

section
/-! SUPPORT. Which rows a state works on, which offsets it has closed and how far its jobs rebuild: what a step can add
to these. The rows in range (O58) follow: most meanings add nothing, and the few that do are checked by their commands. -/

namespace Sys2Proof.Machine

/-! ## The rows worked on -/

/-- Row `row` of extent `x` is worked on, or is to be: by an operation in a context, a request of the context wait list,
or a piece of a foreground request. -/
def State.WorksOn (s : State) (x : ExtentId) (row : Nat) : Prop :=
  (∃ c op, s.context c = some op ∧ op.extent = x ∧ op.row = row) ∨
    (∃ r ∈ s.rows.contextWait, r.extent = x ∧ r.row = row) ∨
    ∃ r ∈ s.requests, r.extent = x ∧ ∃ piece ∈ r.pieces, piece.row = row

/-- Some operation in a context has closed offset `i`. -/
def State.Closes (s : State) (i : Nat) : Prop := ∃ c op, s.context c = some op ∧ i ∈ op.closed

/-- A job on extent `x` rebuilds the rows below `n`. -/
def State.RebuildsTo (s : State) (x : ExtentId) (n : Nat) : Prop :=
  ∃ j, (s.job j).isOn = true ∧ (s.job j).extent = x ∧ (s.job j).endRow = n

/-- `RowsLegal` in these terms. -/
theorem State.rowsLegal_iff (s : State) :
    s.RowsLegal ↔ (∀ x row, s.WorksOn x row → row ≤ s.lastRows x) ∧ (∀ i, s.Closes i → i < 16) ∧
      ∀ x n, s.RebuildsTo x n → n ≤ (s.extent x).rows := by
  constructor
  · rintro ⟨contexts, waits, requests, jobs⟩
    refine ⟨?_, ?_, ?_⟩
    · rintro x row (⟨c, op, hc, rfl, rfl⟩ | ⟨r, hr, rfl, rfl⟩ | ⟨r, hr, rfl, piece, hp, rfl⟩)
      · exact (contexts c op hc).1
      · exact waits r hr
      · exact requests r hr piece hp
    · rintro i ⟨c, op, hc, hi⟩
      exact (contexts c op hc).2 i hi
    · rintro x n ⟨j, on, rfl, rfl⟩
      exact jobs j on
  · rintro ⟨works, closes, rebuilds⟩
    refine ⟨fun c op hc => ⟨?_, fun i hi => closes i ⟨c, op, hc, hi⟩⟩, fun r hr => ?_, fun r hr piece hp => ?_,
      fun j on => rebuilds _ _ ⟨j, on, rfl, rfl⟩⟩
    · exact works _ _ (.inl ⟨c, op, hc, rfl, rfl⟩)
    · exact works _ _ (.inr (.inl ⟨r, hr, rfl, rfl⟩))
    · exact works _ _ (.inr (.inr ⟨r, hr, rfl, piece, hp, rfl⟩))

/-! ## What leaves the rows in range -/

/-- Two forms of an entry that differ at most in condition and target list, both in use or neither, an empty list staying
empty. -/
structure Extent.SameForm (a b : Extent) : Prop where
  sizes : b = { a with condition := b.condition, targets := b.targets }
  inUse : b.inUse = a.inUse
  targets : a.targets = [] → b.targets = []

theorem Extent.SameForm.refl (a : Extent) : a.SameForm a := ⟨rfl, rfl, id⟩

theorem Extent.SameForm.trans {a b c : Extent} (h : a.SameForm b) (k : b.SameForm c) : a.SameForm c :=
  ⟨by rw [k.sizes, h.sizes], k.inUse.trans h.inUse, k.targets ∘ h.targets⟩

theorem Extent.SameForm.rows {a b : Extent} (h : a.SameForm b) : b.rows = a.rows := by rw [h.sizes]; rfl

theorem Extent.SameForm.sized {a b : Extent} (h : a.SameForm b) (k : a.sized) : b.sized := by rw [h.sizes]; exact k

theorem Extent.SameForm.empty {b : Extent} (h : Extent.empty.SameForm b) : b = Extent.empty := by
  have unused : b.condition = .unused := by simpa [Extent.inUse, Extent.empty] using h.inUse
  rw [h.sizes, unused, h.targets rfl]
  rfl

/-- From `s` to `t` the layout map keeps its form, and no row is newly worked on, no offset newly closed but one of a row,
and no job rebuilds further. -/
structure State.Narrows (s t : State) : Prop where
  extents : ∀ x, (s.extent x).SameForm (t.extent x)
  works : ∀ x row, t.WorksOn x row → s.WorksOn x row
  closes : ∀ i, t.Closes i → i < 16 ∨ s.Closes i
  rebuilds : ∀ x n, t.RebuildsTo x n → s.RebuildsTo x n

theorem State.Narrows.refl (s : State) : s.Narrows s :=
  ⟨fun _ => .refl _, fun _ _ => id, fun _ => .inr, fun _ _ => id⟩

theorem State.Narrows.trans {s t u : State} (a : s.Narrows t) (b : t.Narrows u) : s.Narrows u :=
  ⟨fun x => (a.extents x).trans (b.extents x), fun x r h => a.works x r (b.works x r h),
    fun i h => (b.closes i h).elim .inl (a.closes i), fun x n h => a.rebuilds x n (b.rebuilds x n h)⟩

theorem State.Narrows.ite {s t u : State} {c : Prop} [Decidable c] (a : s.Narrows t) (b : s.Narrows u) :
    s.Narrows (if c then t else u) := by
  split
  · exact a
  · exact b

theorem State.Narrows.foldl {α : Type} {f : State → α → State} (h : ∀ (s : State) (x : α), s.Narrows (f s x))
    (l : List α) (s : State) : s.Narrows (l.foldl f s) := by
  induction l generalizing s with
  | nil => exact .refl s
  | cons x rest ih => exact (h s x).trans (ih _)

/-- The invariant of O58. -/
def State.InRange (s : State) : Prop := s.MapLegal ∧ s.RowsLegal

theorem State.Narrows.inRange {s t : State} (h : s.Narrows t) (legal : s.InRange) : t.InRange := by
  obtain ⟨map, rows⟩ := legal
  obtain ⟨works, closes, rebuilds⟩ := s.rowsLegal_iff.mp rows
  have sameRows : ∀ x, (t.extent x).rows = (s.extent x).rows := fun x => (h.extents x).rows
  refine ⟨fun x => ?_, t.rowsLegal_iff.mpr ⟨fun x row hw => ?_, fun i hi => ?_, fun x n hn => ?_⟩⟩
  · rcases map x with ⟨used, sized⟩ | empty
    · exact .inl ⟨(h.extents x).inUse.trans used, (h.extents x).sized sized⟩
    · exact .inr (Extent.SameForm.empty (empty ▸ h.extents x))
  · rw [State.lastRows, sameRows]
    exact works x row (h.works x row hw)
  · exact (h.closes i hi).elim id (closes i)
  · rw [sameRows]
    exact rebuilds x n (h.rebuilds x n hn)

/-! ## The named updates -/

/-- An update that touches neither the layout map, the row engine, the requests nor the jobs. -/
theorem State.Narrows.of_eq {s t : State} (extents : t.extents = s.extents) (rows : t.rows = s.rows)
    (requests : t.requests = s.requests) (jobs : t.jobs = s.jobs) : s.Narrows t := by
  have hc : t.context = s.context := by funext c; simp [State.context, rows]
  have hj : t.job = s.job := by funext c; simp [State.job, jobs]
  have he : t.extent = s.extent := by funext c; simp [State.extent, extents]
  refine ⟨fun x => by rw [he]; exact .refl _, fun x row => ?_, fun i => ?_, fun x n => ?_⟩
  · simp only [State.WorksOn, hc, rows, requests]; exact id
  · simp only [State.Closes, hc]; exact .inr
  · simp only [State.RebuildsTo, hj]; exact id

theorem State.narrows_withPort (s : State) (p : PortId) (f : Port → Port) : s.Narrows (s.withPort p f) :=
  .of_eq rfl rfl rfl rfl
theorem State.narrows_withSolver (s : State) (f : Solver → Solver) : s.Narrows (s.withSolver f) :=
  .of_eq rfl rfl rfl rfl
theorem State.narrows_withHolds (s : State) (f : HoldTable → HoldTable) : s.Narrows (s.withHolds f) :=
  .of_eq rfl rfl rfl rfl
theorem State.narrows_withLosses (s : State) (f : LossList → LossList) : s.Narrows (s.withLosses f) :=
  .of_eq rfl rfl rfl rfl
theorem State.narrows_withBoard (s : State) (f : Board → Board) : s.Narrows (s.withBoard f) :=
  .of_eq rfl rfl rfl rfl
theorem State.narrows_askPublish (s : State) : s.Narrows s.askPublish := s.narrows_withBoard _
theorem State.narrows_answer (s : State) (i : SlipId) (status : Status) (reason : Reason) (body : List BodyField) :
    s.Narrows (s.answer i status reason body) := s.narrows_withBoard _
theorem State.narrows_refuse (s : State) (i : SlipId) (reason : Reason) : s.Narrows (s.refuse i reason) :=
  s.narrows_answer _ _ _ _
theorem State.narrows_answerJob (s : State) (i : SlipId) (status : Status) (c : ControlAnswer) :
    s.Narrows (s.answerJob i status c) := s.narrows_withBoard _

theorem State.narrows_askPublishIf (s : State) (b : Bool) : s.Narrows (s.askPublishIf b) := by
  cases b
  · exact .refl s
  · exact s.narrows_askPublish

theorem State.narrows_answerIf (s : State) (i : Option SlipId) (status : Status) (reason : Reason)
    (body : List BodyField) : s.Narrows (s.answerIf i status reason body) := by
  cases i
  · exact .refl s
  · exact s.narrows_answer _ _ _ _

/-- A job changed is on its extent only if it was before, and then on the same one to the same end row. -/
def Job.Bounds (a b : Job) : Prop := b.isOn = true → a.isOn = true ∧ b.extent = a.extent ∧ b.endRow = a.endRow

theorem Job.Bounds.of_eq {a b : Job} (state : b.state = a.state) (extent : b.extent = a.extent)
    (endRow : b.endRow = a.endRow) : a.Bounds b := fun on =>
  ⟨by simpa [Job.isOn, state] using on, extent, endRow⟩

/-- Where each job is bounded by what it was, the jobs rebuild no further. -/
theorem State.rebuildsTo_of_bounds {s t : State} (h : ∀ j, (s.job j).Bounds (t.job j)) {x : ExtentId} {n : Nat}
    (k : t.RebuildsTo x n) : s.RebuildsTo x n := by
  obtain ⟨j, on, rfl, rfl⟩ := k
  obtain ⟨was, extent, endRow⟩ := h j on
  exact ⟨j, was, extent.symm, endRow.symm⟩

/-- An update of the jobs alone. -/
theorem State.Narrows.of_jobs {s t : State} (extents : t.extents = s.extents) (rows : t.rows = s.rows)
    (requests : t.requests = s.requests) (jobs : ∀ j, (s.job j).Bounds (t.job j)) : s.Narrows t := by
  have h : s.Narrows { t with jobs := s.jobs } := .of_eq extents rows requests rfl
  exact ⟨h.extents, h.works, h.closes, fun _ _ => State.rebuildsTo_of_bounds jobs⟩

theorem State.narrows_withJob (s : State) (j : JobId) {f : Job → Job} (h : (s.job j).Bounds (f (s.job j))) :
    s.Narrows (s.withJob j f) := by
  refine .of_jobs rfl rfl rfl fun k => ?_
  rw [State.job_withJob]
  split
  · rename_i same
    exact same ▸ h
  · exact .of_eq rfl rfl rfl

/-- A job's record changed but for its state, extent and end row. -/
theorem State.narrows_withJob_same (s : State) (j : JobId) (f : Job → Job)
    (state : ∀ x, (f x).state = x.state := by intros; rfl) (extent : ∀ x, (f x).extent = x.extent := by intros; rfl)
    (endRow : ∀ x, (f x).endRow = x.endRow := by intros; rfl) : s.Narrows (s.withJob j f) :=
  s.narrows_withJob j (.of_eq (state _) (extent _) (endRow _))

/-- An operation changed works on the same row, and closes no more than offsets of the row. -/
def Operation.Follows (a b : Operation) : Prop :=
  b.extent = a.extent ∧ b.row = a.row ∧ ∀ i ∈ b.closed, i < 16 ∨ i ∈ a.closed

/-- Where every operation in a context follows one that was there, the contexts bring no row and no closed offset. -/
theorem State.Narrows.of_contexts {s t : State} (extents : t.extents = s.extents)
    (waits : t.rows.contextWait = s.rows.contextWait) (requests : t.requests = s.requests) (jobs : t.jobs = s.jobs)
    (contexts : ∀ c op', t.context c = some op' → ∃ op, s.context c = some op ∧ op.Follows op') : s.Narrows t := by
  have h : s.Narrows { t with rows := s.rows } := .of_eq extents rfl requests jobs
  refine ⟨h.extents, ?_, ?_, h.rebuilds⟩
  · rintro x row (⟨c, op', hc, rfl, rfl⟩ | hw)
    · obtain ⟨op, hs, extent, row, -⟩ := contexts c op' hc
      exact .inl ⟨c, op, hs, extent.symm, row.symm⟩
    · rw [waits, requests] at hw
      exact .inr hw
  · rintro i ⟨c, op', hc, hi⟩
    obtain ⟨op, hs, -, -, closed⟩ := contexts c op' hc
    exact (closed i hi).imp_right fun hi => ⟨c, op, hs, hi⟩

theorem State.narrows_withOperation (s : State) (c : ContextId) {f : Operation → Operation}
    (h : ∀ op, s.context c = some op → op.Follows (f op)) : s.Narrows (s.withOperation c f) := by
  refine .of_contexts rfl rfl rfl rfl fun d op' hd => ?_
  rw [State.context_withOperation] at hd
  split at hd
  · rename_i same
    subst same
    obtain ⟨op, hs, rfl⟩ := Option.map_eq_some_iff.mp hd
    exact ⟨op, hs, h op hs⟩
  · exact ⟨op', hd, rfl, rfl, fun _ => .inr⟩

/-- An operation changed but for its row, its extent and its closed offsets. -/
theorem State.narrows_withOperation_same (s : State) (c : ContextId) (f : Operation → Operation)
    (extent : ∀ op, (f op).extent = op.extent := by intros; rfl) (row : ∀ op, (f op).row = op.row := by intros; rfl)
    (closed : ∀ op, (f op).closed = op.closed := by intros; rfl) : s.Narrows (s.withOperation c f) :=
  s.narrows_withOperation c fun op _ => ⟨extent op, row op, fun _ hi => .inr (closed op ▸ hi)⟩

/-- An operation changed but for its row and its extent, its closed offsets forgotten. -/
theorem State.narrows_withOperation_open (s : State) (c : ContextId) (f : Operation → Operation)
    (extent : ∀ op, (f op).extent = op.extent := by intros; rfl) (row : ∀ op, (f op).row = op.row := by intros; rfl)
    (closed : ∀ op, (f op).closed = [] := by intros; rfl) : s.Narrows (s.withOperation c f) :=
  s.narrows_withOperation c fun op _ => ⟨extent op, row op, fun _ hi => absurd (closed op ▸ hi) List.not_mem_nil⟩

/-- Lists of the row engine other than the contexts and the context wait list changed. -/
theorem State.narrows_withRows (s : State) (f : RowEngine → RowEngine)
    (contexts : ∀ r, (f r).contexts = r.contexts := by intros; rfl)
    (waits : ∀ r, (f r).contextWait ⊆ r.contextWait := by intros; exact List.Subset.refl _) :
    s.Narrows (s.withRows f) := by
  have hc : (s.withRows f).context = s.context := by
    funext c
    simp [State.context, contexts]
  refine ⟨fun _ => .refl _, ?_, ?_, fun _ _ => id⟩
  · rintro x row (hw | ⟨r, hr, hw⟩ | hw)
    · rw [hc] at hw
      exact .inl hw
    · exact .inr (.inl ⟨r, waits _ hr, hw⟩)
    · exact .inr (.inr hw)
  · rintro i hi
    rw [State.Closes, hc] at hi
    exact .inr hi

/-- Requests changed, each on the extent and with the pieces that it had. -/
theorem State.narrows_withRequests (s : State) {f : List ForegroundRequest → List ForegroundRequest}
    (h : ∀ r ∈ f s.requests, ∃ q ∈ s.requests, r.extent = q.extent ∧ r.pieces = q.pieces) :
    s.Narrows (s.withRequests f) := by
  refine ⟨fun _ => .refl _, ?_, fun _ => .inr, fun _ _ => id⟩
  rintro x row (hw | hw | ⟨r, hr, rfl, piece, hp, rfl⟩)
  · exact .inl hw
  · exact .inr (.inl hw)
  · obtain ⟨q, hq, extent, pieces⟩ := h r hr
    exact .inr (.inr ⟨q, hq, extent.symm, piece, pieces ▸ hp, rfl⟩)

/-- Each request replaced by its image under a change of its account. -/
theorem State.narrows_mapRequests (s : State) {f : ForegroundRequest → ForegroundRequest}
    (extent : ∀ r, (f r).extent = r.extent) (pieces : ∀ r, (f r).pieces = r.pieces) :
    s.Narrows (s.withRequests fun l => l.map f) :=
  s.narrows_withRequests fun r hr => by
    obtain ⟨q, hq, rfl⟩ := List.mem_map.mp hr
    exact ⟨q, hq, extent q, pieces q⟩

/-- An entry given another form of itself. -/
theorem State.narrows_withExtent (s : State) (e : ExtentId) {f : Extent → Extent}
    (h : (s.extent e).SameForm (f (s.extent e))) : s.Narrows (s.withExtent e f) := by
  refine ⟨fun x => ?_, fun _ _ => id, fun _ => .inr, fun _ _ => id⟩
  rw [State.extent_withExtent]
  split
  · rename_i same
    exact same ▸ h
  · exact .refl _

theorem State.narrows_settle (s : State) : s.Narrows s.settle := by
  refine .of_jobs (s.settle_extents) s.settle_rows s.settle_requests fun j => ?_
  rw [State.settle_job]
  split
  · exact .of_eq rfl rfl rfl
  · exact .of_eq rfl rfl rfl

end Sys2Proof.Machine
end

section
/-! SUPPORT. What the shared operations add to the rows worked on: nothing. -/

namespace Sys2Proof.Machine

/-! ## Endings and submission -/

theorem Operation.takeRead_follows (p : PortId) (r : Request) (ending : Ending) (contents : List Block)
    (op : Operation) : op.Follows (op.takeRead p r ending contents) := ⟨rfl, rfl, fun _ => .inr⟩

theorem State.narrows_deliverFailure (s : State) (p : PortId) (r : Request) (ending : Ending) :
    s.Narrows (s.deliverFailure p r ending) := by
  unfold State.deliverFailure
  split
  · exact .refl s
  · split
    · exact s.narrows_withOperation _ fun op _ => op.takeRead_follows _ _ _ _
    · exact s.narrows_withOperation_same _ _
    · exact .refl s

theorem State.narrows_submit (s : State) (p : PortId) (r : Request) : s.Narrows (s.submit p r) :=
  .ite (s.narrows_withPort _ _) (s.narrows_deliverFailure _ _ _)

theorem State.narrows_submitReads (s : State) (c : ContextId) (op : Operation) (reads : List PlanRead) :
    s.Narrows (s.submitReads c op reads) := .foldl (fun s _ => s.narrows_submit _ _) reads s

theorem State.narrows_issueOne {s t : State} {p : PortId} (h : s.issueOne p = some t) : s.Narrows t := by
  unfold State.issueOne at h
  split at h
  · cases h
    exact s.narrows_withPort _ _
  · cases h

theorem State.narrows_runArbiter (n : Nat) (s : State) (p : PortId) : s.Narrows (State.runArbiter n s p) := by
  induction n generalizing s with
  | zero => exact .refl s
  | succ n ih =>
    unfold State.runArbiter
    split
    · exact (State.narrows_issueOne ‹_›).trans (ih _)
    · exact .refl s

theorem State.narrows_deliverWritten (s : State) (p : PortId) (r : Request) : s.Narrows (s.deliverWritten p r) := by
  have counted : ∀ (s : State) (c : ContextId), s.Narrows (s.withOperation c fun op =>
      if r.repair then { op with tallies := { op.tallies with repairs := op.tallies.repairs + r.count } } else op) :=
    fun s c => s.narrows_withOperation c fun op _ => by split <;> exact ⟨rfl, rfl, fun _ => .inr⟩
  have left : ∀ (s : State) (c : ContextId) (l : Operation → List PortRuns),
      s.Narrows (s.withOperation c fun op => { op with writesLeft := l op }) := fun s c l =>
    s.narrows_withOperation_same c _
  unfold State.deliverWritten
  split
  · exact .refl s
  · dsimp only
    split
    · exact counted s _
    · split
      · exact counted s _
      · split
        · exact (counted s _).trans (left _ _ _)
        · exact ((counted s _).trans (left _ _ _)).trans (State.narrows_submit _ _ _)

theorem State.narrows_withdrawAt (s : State) (c : ContextId) (p : PortId) : s.Narrows (s.withdrawAt c p) :=
  (s.narrows_withPort _ _).trans (.foldl (fun s _ => s.narrows_deliverFailure _ _ _) _ _)

theorem State.narrows_withdraw (s : State) (c : ContextId) : s.Narrows (s.withdraw c) :=
  .foldl (fun s _ => s.narrows_withdrawAt _ _) _ _

/-! ## Drains and the ends of row operations -/

theorem State.narrows_supersedePause (s : State) (j : JobId) (cause : EndCause) :
    s.Narrows (s.supersedePause j cause) := by
  unfold State.supersedePause
  split
  · exact s.narrows_answerJob _ _ _
  · exact .refl s

theorem State.supersedePause_job (s : State) (j : JobId) (cause : EndCause) :
    (s.supersedePause j cause).job = s.job := by
  unfold State.supersedePause
  split <;> rfl

/-- A job in a state from which it can be set draining is on its extent. -/
theorem Job.isOn_of_drainable {j : Job} (h : j.drainable = true) : j.isOn = true := by
  unfold Job.drainable JobState.drainable at h
  unfold Job.isOn
  cases hs : j.state <;> simp_all

theorem State.narrows_drainJob (s : State) (j : JobId) (cause : EndCause) : s.Narrows (s.drainJob j cause) := by
  unfold State.drainJob
  split
  · rename_i drainable
    refine ((s.narrows_supersedePause j cause).trans (State.narrows_withJob _ j ?_)).trans (State.narrows_askPublish _)
    rw [State.supersedePause_job]
    exact fun _ => ⟨Job.isOn_of_drainable drainable, rfl, rfl⟩
  · exact .refl s

theorem State.narrows_drainCounted (s : State) (counted : Option JobId) (e : ExtentId) :
    s.Narrows (s.drainCounted counted e) := by
  unfold State.drainCounted
  split
  · exact .refl s
  · exact .ite (s.narrows_withJob_same _ _) (.refl s)

theorem Job.takeCompletion_bounds (row : Nat) (copied : Bool) (t : RowTallies) (j : Job) :
    j.Bounds (j.takeCompletion row copied t) := by
  unfold Job.takeCompletion
  dsimp only
  repeat' split
  all_goals exact .of_eq rfl rfl rfl

theorem State.narrows_jobTakesRow (s : State) (j : JobId) (row : Nat) (outcome : RowOutcome) (copied : Bool)
    (t : RowTallies) : s.Narrows (s.jobTakesRow j row outcome copied t) := by
  have completed : ∀ b, s.Narrows ((s.withJob j (Job.takeCompletion row copied t)).askPublishIf b) := fun b =>
    (s.narrows_withJob j (Job.takeCompletion_bounds row copied t _)).trans (State.narrows_askPublishIf _ b)
  have failed : s.Narrows (s.withJob j (Job.takeFailure row t)) :=
    s.narrows_withJob_same _ _
  unfold State.jobTakesRow
  split
  · cases outcome with
    | done => exact completed _
    | doneWithLoss => exact completed _
    | recovered => exact completed _
    | extentLost => exact failed
    | targetLost => exact failed
    | bufferFault => exact failed
    | skipped => exact failed
  · exact .refl s

theorem ForegroundRequest.testPieces_extent (engine : EngineState) (r : ForegroundRequest) :
    (r.testPieces engine).extent = r.extent := by
  unfold ForegroundRequest.testPieces
  split <;> rfl

theorem ForegroundRequest.testPieces_pieces (engine : EngineState) (r : ForegroundRequest) :
    (r.testPieces engine).pieces = r.pieces := by
  unfold ForegroundRequest.testPieces
  split <;> rfl

theorem State.narrows_requestTakesRow (s : State) (i : SlipId) (row : Nat) (outcome : RowOutcome) (t : RowTallies)
    (kept settled : Bool) : s.Narrows (s.requestTakesRow i row outcome t kept settled) := by
  refine s.narrows_mapRequests (fun r => ?_) fun r => ?_
  · split
    · exact ForegroundRequest.testPieces_extent _ _
    · rfl
  · split
    · exact ForegroundRequest.testPieces_pieces _ _
    · rfl

theorem State.narrows_handOver (s : State) (owner : RowOwner) (row : Nat) (outcome : RowOutcome) (copied : Bool)
    (t : RowTallies) (kept settled : Bool) : s.Narrows (s.handOver owner row outcome copied t kept settled) := by
  cases owner with
  | job j => exact s.narrows_jobTakesRow _ _ _ _ _
  | slip i piece => exact s.narrows_requestTakesRow _ _ _ _ _ _

theorem State.narrows_freeContext (s : State) (c : ContextId) : s.Narrows (s.freeContext c) := by
  refine .of_contexts rfl rfl rfl rfl fun d op hd => ?_
  have hd : (bankModify s.rows.contexts c fun _ => none)[d.val] = some op := hd
  rw [bankModify_getElem] at hd
  split at hd
  · cases hd
  · exact ⟨op, hd, rfl, rfl, fun _ => .inr⟩

theorem State.narrows_endOperationWith (s : State) (c : ContextId) (outcome : RowOutcome) (kept settled : Bool) :
    s.Narrows (s.endOperationWith c outcome kept settled) := by
  unfold State.endOperationWith
  split
  · exact .refl s
  · exact ((s.narrows_drainCounted _ _).trans (State.narrows_handOver _ _ _ _ _ _ _ _)).trans
      (State.narrows_freeContext _ _)

theorem State.narrows_endOperation (s : State) (c : ContextId) (outcome : RowOutcome) :
    s.Narrows (s.endOperation c outcome) := s.narrows_endOperationWith _ _ _ _

theorem State.narrows_endWaiting (s : State) (r : RowRequest) (outcome : RowOutcome) :
    s.Narrows (s.endWaiting r outcome) :=
  ((s.narrows_drainCounted _ _).trans (State.narrows_handOver _ _ _ _ _ _ _ _)).trans
    (State.narrows_withRows _ _ (waits := fun _ => List.filter_subset_self _))

theorem State.narrows_endIdle (s : State) (which : RowOwner → ExtentId → Bool) (outcome : RowOutcome) :
    s.Narrows (s.endIdle which outcome) :=
  (State.Narrows.foldl (fun s _ => s.narrows_endWaiting _ _) _ s).trans
    (.foldl (fun s _ => s.narrows_endOperation _ _) _ _)

theorem State.narrows_loseRows (s : State) (e : ExtentId) : s.Narrows (s.loseRows e) :=
  .trans (s.narrows_endIdle _ _) (.foldl (fun s _ => .trans (s.narrows_withdraw _)
    (State.narrows_withOperation_same _ _ _)) _ _)

theorem State.narrows_endTargetless (s : State) (j : JobId) : s.Narrows (s.endTargetless j) :=
  .ite (s.narrows_endIdle _ _) (.refl s)

/-! ## Member states and conditions -/

theorem State.narrows_wake (s : State) (p : PortId) : s.Narrows (s.wake p) := by
  refine .of_contexts rfl rfl rfl rfl fun c op' hc => ?_
  have hc : (bankMap (Option.map fun x : Operation =>
      if x.phase = .awaitMember ∧ x.waitSet.contains p then { x with woken := true } else x) s.rows.contexts)[c.val] =
        some op' := hc
  rw [bankMap_getElem] at hc
  obtain ⟨op, hs, rfl⟩ := Option.map_eq_some_iff.mp hc
  refine ⟨op, hs, ?_⟩
  split <;> exact ⟨rfl, rfl, fun _ => .inr⟩

theorem State.narrows_jobSeesCondition (s : State) (e : ExtentId) (c : Condition) :
    s.Narrows (s.jobSeesCondition e c) := by
  have exposed : ∀ j, s.Narrows (s.withJob j fun x => { x with exposed := c == .exposed }) := fun j =>
    s.narrows_withJob_same j _
  unfold State.jobSeesCondition
  split
  · exact .refl s
  · exact .ite ((exposed _).trans (State.narrows_drainJob _ _ _)) (exposed _)

/-- The condition that R9 gives is never UNUSED. -/
theorem State.conditionOf_ne_unused (s : State) (e : ExtentId) : s.conditionOf e ≠ .unused := by
  unfold State.conditionOf
  dsimp only
  repeat' split
  all_goals decide

/-- An entry in use given a condition other than UNUSED. -/
theorem Extent.sameForm_condition {e : Extent} {c : Condition} (used : e.inUse = true) (h : c ≠ .unused) :
    e.SameForm { e with condition := c } := ⟨rfl, by rw [used]; simpa [Extent.inUse] using h, id⟩

theorem State.narrows_recompute (s : State) (e : ExtentId) : s.Narrows (s.recompute e) := by
  unfold State.recompute
  split
  · rename_i used
    have seen : s.Narrows ((((s.withExtent e fun x => { x with condition := s.conditionOf e }).askPublish)).jobSeesCondition
        e (s.conditionOf e)) :=
      ((s.narrows_withExtent e (Extent.sameForm_condition used (s.conditionOf_ne_unused e))).trans
        (State.narrows_askPublish _)).trans (State.narrows_jobSeesCondition _ _ _)
    dsimp only
    split
    · exact .refl s
    · split
      · exact seen.trans (State.narrows_loseRows _ _)
      · exact seen
  · exact .refl s

theorem State.narrows_loseTarget (s : State) (p : PortId) (j : JobId) : s.Narrows (State.loseTarget p s j) :=
  .ite ((s.narrows_withJob_same j _).trans (State.narrows_askPublish _))
    (((s.narrows_drainJob _ _).trans
      (State.narrows_withJob_same _ j _)).trans (State.narrows_endTargetless _ _))

theorem State.narrows_targetLost (s : State) (p : PortId) : s.Narrows (s.targetLost p) :=
  .foldl (fun s j => s.narrows_loseTarget p j) _ s

theorem State.narrows_copyToReconstruct (s : State) (p : PortId) : s.Narrows (s.copyToReconstruct p) := by
  unfold State.copyToReconstruct
  split
  · exact .refl s
  · exact (s.narrows_withJob_same _ _).trans (State.narrows_askPublish _)

theorem State.narrows_reportMember (s : State) (p : PortId) : s.Narrows (s.reportMember p) := by
  have failed : ∀ s : State,
      s.Narrows (if (s.port p).memberState = .failed then (s.copyToReconstruct p).targetLost p else s) := fun s =>
    .ite ((s.narrows_copyToReconstruct _).trans (State.narrows_targetLost _ _)) (.refl s)
  have woken := (s.narrows_askPublish.trans (State.narrows_wake _ p)).trans (failed _)
  unfold State.reportMember
  dsimp only
  split
  · exact woken.trans (State.narrows_recompute _ _)
  · exact woken

theorem State.narrows_loseRequests (s : State) (p : PortId) : s.Narrows (s.loseRequests p) :=
  (s.narrows_withPort _ _).trans (.foldl (fun s _ => s.narrows_deliverFailure _ _ _) _ _)

theorem State.narrows_failMember (s : State) (p : PortId) : s.Narrows (s.failMember p) :=
  ((s.narrows_withPort _ _).trans (State.narrows_loseRequests _ _)).trans (State.narrows_reportMember _ _)

theorem State.narrows_changeMember (s : State) (p : PortId) (new : MemberState) : s.Narrows (s.changeMember p new) := by
  unfold State.changeMember
  refine State.Narrows.trans ?_ (State.narrows_reportMember _ _)
  exact .ite (((s.narrows_withPort _ _).trans (State.narrows_withPort _ _ _)).trans
    (.foldl (fun s _ => s.narrows_deliverFailure _ _ _) _ _)) (s.narrows_withPort _ _)

theorem State.narrows_turnMember (s : State) (p : PortId) (old new : MemberState) :
    s.Narrows (s.turnMember p old new) := .ite (s.narrows_changeMember _ _) (.refl s)

/-! ## Stalls -/

theorem State.narrows_stallEvidence (s : State) (p : PortId) (slot : Tag) (block : Nat) :
    s.Narrows (s.stallEvidence p slot block) := by
  have stalled : ∀ (f : Port → Port) (b : Bool), s.Narrows ((s.withPort p f).askPublishIf b) :=
    fun f b => (s.narrows_withPort p f).trans (State.narrows_askPublishIf _ b)
  exact .ite ((s.narrows_withPort _ _).trans (State.narrows_failMember _ _))
    (.ite (stalled _ _) ((stalled _ _).trans (State.narrows_withPort _ _ _)))

theorem State.narrows_clearStall (s : State) (p : PortId) : s.Narrows (s.clearStall p) :=
  .ite (.ite ((((s.narrows_withPort _ _).trans (State.narrows_askPublish _)).trans (State.narrows_wake _ _)).trans
    (State.narrows_runArbiter _ _ _)) (s.narrows_withPort _ _)) (.refl s)

theorem State.narrows_writeFailure (s : State) (p : PortId) : s.Narrows (s.writeFailure p) :=
  .ite (s.narrows_failMember _) (.refl s)

/-! ## Phases -/

theorem State.narrows_joinSolver (s : State) (c : ContextId) : s.Narrows (s.joinSolver c) :=
  (s.narrows_withOperation_same _ _).trans
    (State.narrows_withSolver _ _)

theorem State.narrows_beginWrites (s : State) (c : ContextId) (op : Operation) (d : PortId × Nat × List Nat) :
    s.Narrows (s.beginWrites c op d) := by
  unfold State.beginWrites
  split
  · exact .refl s
  · exact (s.narrows_withOperation_same _ _).trans
      (State.narrows_submit _ _ _)

theorem State.narrows_submitWrites (s : State) (c : ContextId) : s.Narrows (s.submitWrites c) := by
  unfold State.submitWrites
  split
  · exact .refl s
  · exact .foldl (fun s _ => s.narrows_beginWrites _ _ _) _ s

theorem State.narrows_enterPlace (s : State) (c : ContextId) : s.Narrows (s.enterPlace c) := by
  have placed : s.Narrows (s.withOperation c fun x => { x with phase := .place }) :=
    s.narrows_withOperation_same _ _
  unfold State.enterPlace
  split
  · exact .refl s
  · exact .ite (placed.trans (State.narrows_withOperation_same _ _ _))
      (placed.trans (State.narrows_submitWrites _ _))

theorem State.narrows_placeAsRead (s : State) (c : ContextId) : s.Narrows (s.placeAsRead c) :=
  (s.narrows_withOperation_same _ _).trans
    (State.narrows_enterPlace _ _)

theorem Operation.beginFetch_follows (places : List BufferPlace) (op : Operation) : op.Follows (op.beginFetch places) := by
  unfold Operation.beginFetch
  split <;> exact ⟨rfl, rfl, fun _ => .inr⟩

theorem Operation.keepPlan_follows (plan : Plan) (op : Operation) : op.Follows (op.keepPlan plan) :=
  ⟨rfl, rfl, fun _ hi => by simp [Operation.keepPlan] at hi⟩

theorem Operation.Follows.trans {a b c : Operation} (h : a.Follows b) (k : b.Follows c) : a.Follows c := by
  obtain ⟨extent, row, closed⟩ := h
  obtain ⟨extent', row', closed'⟩ := k
  exact ⟨extent'.trans extent, row'.trans row, fun i hi => (closed' i hi).elim .inl (closed i)⟩

theorem State.narrows_takePlan (s : State) (c : ContextId) : s.Narrows (s.takePlan c) := by
  have waits : ∀ plan, s.Narrows (s.withOperation c (Operation.waitFrames plan)) := fun _ =>
    s.narrows_withOperation_open c _
  unfold State.takePlan
  split
  · exact .refl s
  · split
    · exact s.narrows_endOperation _ _
    · exact s.narrows_withOperation_open _ _
    · refine .ite ((waits _).trans (State.narrows_placeAsRead _ _)) (.ite (.trans ?_ (State.narrows_submitReads _ _ _ _))
        ((waits _).trans (State.narrows_withRows _ _)))
      refine s.narrows_withOperation c fun op _ => ?_
      dsimp only
      split
      · exact (op.keepPlan_follows _).trans (Operation.beginFetch_follows _ _)
      · exact op.keepPlan_follows _

theorem State.narrows_supplement (s : State) (c : ContextId) (op : Operation) (missing : List ReadWant) :
    s.Narrows (s.supplement c op missing) :=
  (s.narrows_withOperation_same _ _).trans
    (State.narrows_submitReads _ _ _ _)

/-- The offsets that an operation must produce are offsets of a row. -/
theorem Operation.lt_of_mem_produced {e : Extent} {op : Operation} {i : Nat} (h : i ∈ op.produced e) : i < 16 := by
  unfold Operation.produced servedOffsets at h
  cases hk : op.kind <;> rw [hk] at h <;> simp [rowOffsets] at h
  · exact h
  · exact h.1
  · exact h
  · exact h

theorem Operation.settleOffsets_follows (op : Operation) {bad : List Nat} (h : ∀ i ∈ bad, i < 16) :
    op.Follows (op.settleOffsets bad) := by
  unfold Operation.settleOffsets
  split
  · exact ⟨rfl, rfl, fun _ => .inr⟩
  · exact ⟨rfl, rfl, fun i hi => .inl (h i hi)⟩

theorem State.narrows_evaluate (s : State) (c : ContextId) : s.Narrows (s.evaluate c) := by
  unfold State.evaluate
  split
  · exact .refl s
  · rename_i op _
    have bad : ∀ i ∈ op.unsolvables (s.extent op.extent), i < 16 := fun i hi =>
      Operation.lt_of_mem_produced (List.mem_of_mem_filter hi)
    have widened : s.Narrows (s.withOperation c (Operation.widen (s.namedForPlan op (s.countedStalls op).isEmpty))) :=
      s.narrows_withOperation_same _ _
    have awaits : s.Narrows (s.withOperation c (Operation.await (s.countedStalls op))) :=
      s.narrows_withOperation_open _ _
    have settles := s.narrows_withOperation c fun x _ => x.settleOffsets_follows bad
    exact .ite (.ite (s.narrows_endOperation _ _) (s.narrows_joinSolver _))
      (.ite (widened.trans (State.narrows_takePlan _ _)) (.ite (s.narrows_supplement _ _ _)
        (.ite (.ite awaits (settles.trans (State.narrows_joinSolver _ _)))
          (.ite (s.narrows_placeAsRead _) (s.narrows_joinSolver _)))))

theorem State.narrows_endReads (s : State) (c : ContextId) : s.Narrows (s.endReads c) := by
  unfold State.endReads
  split
  · exact .refl s
  · split
    · exact s.narrows_endOperation _ _
    · exact .ite (s.narrows_endOperation _ _) (s.narrows_evaluate _)

theorem State.narrows_insertLosses (s : State) (ranges : List LossEntry) : s.Narrows (s.insertLosses ranges) :=
  (s.narrows_withLosses _).trans (State.narrows_askPublishIf _ _)

theorem State.narrows_removeLossRange (s : State) (e : ExtentId) (low high : Nat) :
    s.Narrows (s.removeLossRange e low high).1 := (s.narrows_withLosses _).trans (State.narrows_askPublishIf _ _)

theorem State.narrows_completeSolve (s : State) (c : ContextId) : s.Narrows (s.completeSolve c) := by
  unfold State.completeSolve
  split
  · exact s.narrows_withSolver _
  · rename_i op _
    have listed := ((s.narrows_withOperation_same c (Operation.solved (s.extent op.extent))).trans
      (State.narrows_withSolver _ fun v => { v with busy := none })).trans
        (State.narrows_insertLosses _ (op.lossRuns (s.extent op.extent) s.stamp))
    dsimp only
    split
    · exact listed.trans (State.narrows_endOperation _ _ _)
    · exact listed.trans (State.narrows_enterPlace _ _)

theorem State.narrows_removeCovered (s : State) (op : Operation) : s.Narrows (s.removeCovered op).1 := by
  have fold : ∀ (l : List RequestedRun) (acc : State × Bool), acc.1.Narrows (l.foldl (fun acc r =>
      let first := (s.extent op.extent).arrayBlock op.row r.strip r.first
      let out := acc.1.removeLossRange op.extent first (first + r.count - 1)
      (out.1, acc.2 || decide (0 < out.2.kept))) acc).1 := by
    intro l
    induction l with
    | nil => exact fun acc => .refl _
    | cons r rest ih => exact fun acc => .trans (acc.1.narrows_removeLossRange _ _ _) (ih (_, _))
  exact fold op.requested (s, false)

theorem State.narrows_settleRow (s : State) (e : ExtentId) (row : Nat) : s.Narrows (s.settleRow e row).1 := by
  unfold State.settleRow
  split
  · exact (s.narrows_withRows _).trans (State.narrows_askPublish _)
  · exact .refl s

theorem State.narrows_endPlace (s : State) (c : ContextId) : s.Narrows (s.endPlace c) := by
  unfold State.endPlace
  split
  · exact .refl s
  · split
    · exact s.narrows_endOperation _ _
    · split
      · exact (s.narrows_removeCovered _).trans (State.narrows_endOperationWith _ _ _ _ _)
      · exact (s.narrows_settleRow _ _).trans (State.narrows_endOperationWith _ _ _ _ _)
      · exact s.narrows_endOperation _ _
      · exact s.narrows_endOperation _ _

end Sys2Proof.Machine
end

section
/-! SUPPORT. The commands that add no row to those worked on. -/

namespace Sys2Proof.Machine

/-- Every next state of an outcome satisfies `P`. -/
def Lands (P : State → Prop) (o : Host.Outcome State Fault Refusal) : Prop := ∀ t, o = .next t → P t

theorem Lands.next {P : State → Prop} {s : State} (h : P s) : Lands P (.next s) := fun t ht => by
  cases ht
  exact h

theorem Lands.mono {P Q : State → Prop} {o : Host.Outcome State Fault Refusal} (h : Lands P o) (k : ∀ t, P t → Q t) :
    Lands Q o := fun t ht => k t (h t ht)

theorem Lands.ite {P : State → Prop} {c : Prop} [Decidable c] {a b : Host.Outcome State Fault Refusal} (h : Lands P a)
    (k : Lands P b) : Lands P (if c then a else b) := by
  split
  · exact h
  · exact k

theorem lands_idle (s : State) : Lands s.Narrows (.next s) := .next (.refl s)

theorem State.Narrows.done {s t : State} (h : s.Narrows t) : Lands s.Narrows t.done := .next (h.trans t.narrows_settle)

/-! ## Resets -/

theorem State.narrows_endJob (s : State) (j : JobId) (cause : Option EndCause) : s.Narrows (s.endJob j cause) :=
  s.narrows_withJob j fun on => by simp [Job.isOn] at on

theorem State.narrows_answerEndedControl (s : State) (j : JobId) (status : Status) :
    s.Narrows (s.answerEndedControl j status) :=
  .trans (s.narrows_answerIf _ _ _ _) (State.narrows_withJob_same _ _ _)

theorem replaceTarget_nil (l : List Source) : (l.foldl (fun t x => replaceTarget x t) []) = [] := by
  induction l with
  | nil => rfl
  | cons x rest ih => exact ih

theorem State.narrows_placeTargets (s : State) (j : JobId) : s.Narrows (s.placeTargets j) := by
  have listed : ∀ t : State, t.Narrows (t.withExtent (s.job j).extent fun e =>
      { e with targets := (s.job j).sources.foldl (fun l x => replaceTarget x l) e.targets }) := fun t =>
    t.narrows_withExtent _ ⟨rfl, rfl, fun empty => by simp only [empty, replaceTarget_nil]⟩
  have turned := State.Narrows.trans (.foldl (fun s (x : Source) => s.narrows_turnMember x.target .target .online)
    (s.job j).sources s) (listed _)
  unfold State.placeTargets
  dsimp only
  split
  · exact .trans (.trans (.trans turned (State.narrows_turnMember _ _ _ _)) (State.narrows_askPublish _))
      (State.narrows_recompute _ _)
  · exact .trans (.trans turned (State.narrows_askPublish _)) (State.narrows_recompute _ _)

theorem State.narrows_completeJob (s : State) (j : JobId) : s.Narrows (s.completeJob j) :=
  .trans (.trans (.trans (.trans (s.narrows_placeTargets j) (State.narrows_endJob _ _ _))
    (State.narrows_answerIf _ _ _ _ _)) (State.narrows_answerEndedControl _ _ _)) (State.narrows_askPublish _)

theorem State.narrows_completeDue (s : State) : s.Narrows s.completeDue :=
  .foldl (fun s j => .ite (s.narrows_completeJob j) (.refl s)) _ s

theorem Job.engineReset_bounds (now : Stamp) (j : Job) : j.Bounds (j.engineReset now) := by
  intro on
  unfold Job.engineReset at on ⊢
  cases hs : j.state <;> simp_all [Job.isOn]

/-- A state with no row in work and the jobs of another. -/
theorem State.Narrows.of_cleared {s t : State} (extents : t.extents = s.extents) (contexts : ∀ c, t.context c = none)
    (waits : t.rows.contextWait = []) (requests : t.requests = []) (jobs : t.jobs = s.jobs) : s.Narrows t := by
  have h : s.Narrows { t with rows := s.rows, requests := s.requests } := .of_eq extents rfl rfl jobs
  refine ⟨h.extents, ?_, ?_, h.rebuilds⟩
  · rintro x row (⟨c, op, hc, -⟩ | ⟨r, hr, -⟩ | ⟨r, hr, -⟩)
    · simp [contexts] at hc
    · simp [waits] at hr
    · simp [requests] at hr
  · rintro i ⟨c, op, hc, -⟩
    simp [contexts] at hc

theorem State.narrows_engineReset (kind : ResetKind) (s : State) : s.Narrows (s.engineReset kind) := by
  have cleared : ∀ (t : State) (unsettled : List UnsettledEntry) (ports : Vector Port 16) (losses : LossList),
      t.Narrows { t with
        rows := { contexts := Vector.replicate 24 none, contextWait := [], frameWait := [], unsettled := unsettled }
        solver := { busy := none, queue := [] }, holds := { entries := [], granted := [] }, requests := []
        ports := ports, losses := losses } := fun t _ _ _ =>
    .of_cleared rfl (fun c => by simp [State.context]) rfl rfl rfl
  have spared := (s.narrows_completeDue.trans (cleared _ s.unsettledAfterReset
    (bankMap Port.engineReset s.completeDue.ports) { s.losses with transfers := [] })).trans
      (.foldl (fun s t => s.narrows_changeMember t .spare) s.completeDue.resetTargets _)
  have orphaned : ∀ (t : State) (now : Stamp) (board : Board), t.Narrows { t with
      jobs := bankMap (Job.engineReset now) t.jobs
      time := { tick := 0, sweepTimer := 0, periodCounter := 0, restartDue := false }
      guard := { state := .cool, sense := 0, hold := 0, due := none }, board := board } := fun t now _ =>
    .of_jobs rfl rfl rfl fun j => by
      simp only [State.job, bankMap_getElem]
      exact Job.engineReset_bounds _ _
  exact spared.trans (orphaned _ _ _)

/-! ## The system port and the board -/

theorem execRun_narrows (s : State) : Lands s.Narrows (execRun s) := by
  have tested : ∀ t : State, t.Narrows (t.withRequests fun l => l.map (ForegroundRequest.testPieces .running)) :=
    fun t => t.narrows_mapRequests (ForegroundRequest.testPieces_extent _) (ForegroundRequest.testPieces_pieces _)
  exact .ite ((s.narrows_withBoard _).trans (tested _)).done (lands_idle s)

theorem execQuiesce_narrows (s : State) : Lands s.Narrows (execQuiesce s) :=
  .ite (s.narrows_withBoard _).done (lands_idle s)

theorem execBoardBase_narrows (access : RegisterAccess) (value : BitVec 64) (s : State) :
    Lands s.Narrows (execBoardBase access value s) := .ite (.next (s.narrows_withBoard _)) (lands_idle s)

theorem execSweep_narrows (value : BitVec 64) (s : State) : Lands s.Narrows (execSweep value s) :=
  .ite (s.narrows_withBoard _).done (lands_idle s)

theorem execSweepHolderRead_narrows (holder : Byte) (s : State) : Lands s.Narrows (execSweepHolderRead holder s) := by
  unfold execSweepHolderRead
  split
  · exact lands_idle s
  · exact (s.narrows_withBoard _).done

theorem execTakenWrite_narrows (s : State) : Lands s.Narrows (execTakenWrite s) := by
  unfold execTakenWrite
  split
  · exact lands_idle s
  · exact (s.narrows_withBoard _).done

theorem State.narrows_takeSlip {s t : State} {tag : BitVec 64} {i : SlipId} (h : s.takeSlip tag = some (i, t)) :
    s.Narrows t := by
  unfold State.takeSlip at h
  split at h
  · cases h
  · cases h
    exact s.narrows_withBoard _

theorem execBadKind_narrows (kind : Byte) (tag : BitVec 64) (s : State) : Lands s.Narrows (execBadKind kind tag s) := by
  unfold execBadKind
  split
  · exact ((State.narrows_takeSlip ‹_›).trans (State.narrows_refuse _ _ _)).done
  · exact lands_idle s

theorem execAnswerWrite_narrows (s : State) : Lands s.Narrows (execAnswerWrite s) := by
  unfold execAnswerWrite
  split
  · exact (s.narrows_withBoard _).done
  · exact lands_idle s

theorem execPublish_narrows (s : State) : Lands s.Narrows (execPublish s) := by
  unfold execPublish
  split
  · exact lands_idle s
  · exact (s.narrows_withBoard _).done

theorem execBoardFault_narrows (access : BoardAccess) (s : State) : Lands s.Narrows (execBoardFault access s) :=
  .ite (s.narrows_withBoard _).done (lands_idle s)

theorem execQuiesceComplete_narrows (s : State) : Lands s.Narrows (execQuiesceComplete s) :=
  .ite (s.narrows_withBoard _).done (lands_idle s)

/-! ## Settings, time and pacing -/

theorem State.narrows_failStalled (s : State) : s.Narrows s.failStalled :=
  .foldl (fun s _ => .ite (s.narrows_failMember _) (.refl s)) _ s

theorem execSettings_narrows (tag : BitVec 64) (body : SlipBody) (s : State) :
    Lands s.Narrows (execSettings tag body s) := by
  unfold execSettings
  split
  · exact lands_idle s
  · rename_i u htake
    have applied : s.Narrows (u.applySettings (settingsFields body)) :=
      (State.narrows_takeSlip htake).trans (.of_eq rfl rfl rfl rfl)
    exact .ite ((State.narrows_takeSlip htake).trans (State.narrows_refuse _ _ _)).done
      ((applied.trans (.ite (State.narrows_failStalled _) (.refl _))).trans (State.narrows_answer _ _ _ _ _)).done

theorem execTick_narrows (s : State) : Lands s.Narrows (execTick s) := .next (.of_eq rfl rfl rfl rfl)

theorem execSweepTimerExpiry_narrows (s : State) : Lands s.Narrows (execSweepTimerExpiry s) :=
  .ite (State.Narrows.done (.of_eq rfl rfl rfl rfl)) (lands_idle s)

theorem execPeriodRestart_narrows (s : State) : Lands s.Narrows (execPeriodRestart s) := by
  refine .ite (.next (.of_jobs rfl rfl rfl fun j => ?_)) (lands_idle s)
  simp only [State.job, bankMap_getElem]
  unfold Job.restart
  split <;> exact .of_eq rfl rfl rfl

theorem execGuardHot_narrows (s : State) : Lands s.Narrows (execGuardHot s) := by
  have cut : s.Narrows { s with
      guard := { state := .hot, sense := 0, hold := s.settings.minimumHold, due := none }
      jobs := bankMap Job.cutHot s.jobs } := by
    refine .of_jobs rfl rfl rfl fun j => ?_
    simp only [State.job, bankMap_getElem]
    unfold Job.cutHot
    split <;> exact .of_eq rfl rfl rfl
  exact .ite (cut.trans (State.narrows_askPublish _)).done (lands_idle s)

theorem execGuardCool_narrows (s : State) : Lands s.Narrows (execGuardCool s) :=
  .ite (State.Narrows.done (.of_eq rfl rfl rfl rfl)) (lands_idle s)

/-! ## The member ports -/

theorem State.narrows_deliverRead (s : State) (p : PortId) (r : Request) (ending : Ending) (contents : List Block) :
    s.Narrows (s.deliverRead p r ending contents) := by
  unfold State.deliverRead
  split
  · exact s.narrows_withOperation _ fun op _ => op.takeRead_follows _ _ _ _
  · exact .refl s

theorem State.narrows_replyGood (s : State) (p : PortId) (r : Request) (contents : List Block) :
    s.Narrows (s.replyGood p r contents) := by
  unfold State.replyGood
  split
  · exact (s.narrows_deliverRead _ _ _ _).trans (State.narrows_clearStall _ _)
  · exact s.narrows_clearStall _
  · exact .trans (.trans (.ite (s.narrows_withPort _ _) (.refl s)) (State.narrows_deliverWritten _ _ _))
      (State.narrows_clearStall _ _)

theorem State.narrows_replyUnreadable (s : State) (p : PortId) (r : Request) (offsets : List Nat)
    (contents : List Block) : s.Narrows (s.replyUnreadable p r offsets contents) := by
  unfold State.replyUnreadable
  dsimp only
  split
  · exact ((s.narrows_withPort _ _).trans (State.narrows_deliverRead _ _ _ _ _)).trans (State.narrows_clearStall _ _)
  · exact (s.narrows_withPort _ _).trans (State.narrows_clearStall _ _)
  · exact s.narrows_withPort _ _

theorem State.narrows_endUnanswered (s : State) (p : PortId) (slot : Tag) (r : Request) (ending : Ending) :
    s.Narrows (s.endUnanswered p slot r ending) := by
  refine (s.narrows_deliverFailure p r ending).trans ?_
  unfold State.endUnanswered
  dsimp only
  split
  · exact State.narrows_writeFailure _ _
  · exact .ite (State.narrows_stallEvidence _ _ _ _) (.refl _)
  · exact .ite (State.narrows_stallEvidence _ _ _ _) (.refl _)

theorem execDriveReply_narrows (p : PortId) (reply : Reply) (s : State) :
    Lands s.Narrows (execDriveReply p reply s) := by
  have freed : s.Narrows (s.freeSlot p reply.tag) := s.narrows_withPort _ _
  unfold execDriveReply
  split
  · exact ((s.narrows_withPort _ _).trans (State.narrows_clearStall _ _)).done
  · dsimp only
    split
    · exact (freed.trans (State.narrows_replyGood _ _ _ _)).done
    · exact (freed.trans (State.narrows_replyUnreadable _ _ _ _ _)).done
    · exact (freed.trans (State.narrows_endUnanswered _ _ _ _ _)).done
    · exact (freed.trans (State.narrows_endUnanswered _ _ _ _ _)).done

theorem execLapse_narrows (p : PortId) (slot : Tag) (s : State) : Lands s.Narrows (execLapse p slot s) := by
  unfold execLapse
  split
  · exact lands_idle s
  · exact .ite (State.Narrows.trans ((s.narrows_withPort p _).trans (State.narrows_withPort _ _ _))
      (State.narrows_endUnanswered _ _ _ _ _)).done (lands_idle s)

theorem execRequestIssue_narrows (p : PortId) (s : State) : Lands s.Narrows (execRequestIssue p s) := by
  unfold execRequestIssue
  split
  · exact (State.narrows_issueOne ‹_›).done
  · exact lands_idle s

theorem execLinkUp_narrows (p : PortId) (s : State) : Lands s.Narrows (execLinkUp p s) :=
  ((s.narrows_withPort _ _).trans (State.narrows_askPublish _)).done

theorem execLinkDown_narrows (p : PortId) (s : State) : Lands s.Narrows (execLinkDown p s) := by
  have down := (s.narrows_withPort p fun x => { x with link := .down }).trans (State.narrows_askPublish _)
  unfold execLinkDown
  dsimp only
  split
  · exact (down.trans (State.narrows_failMember _ _)).done
  · exact (down.trans (State.narrows_failMember _ _)).done
  · exact ((down.trans (State.narrows_loseRequests _ _)).trans (State.narrows_changeMember _ _ _)).done
  · exact ((down.trans (State.narrows_loseRequests _ _)).trans (State.narrows_changeMember _ _ _)).done
  · exact (down.trans (State.narrows_loseRequests _ _)).done
  · exact (down.trans (State.narrows_loseRequests _ _)).done

theorem execMember_narrows (tag : BitVec 64) (body : SlipBody) (s : State) : Lands s.Narrows (execMember tag body s) := by
  unfold execMember
  split
  · exact lands_idle s
  · have taken := State.narrows_takeSlip ‹_›
    split
    · exact (taken.trans (State.narrows_refuse _ _ _)).done
    · refine .ite (taken.trans (State.narrows_answer _ _ _ _ _)).done ?_
      split
      · exact (taken.trans (State.narrows_refuse _ _ _)).done
      · exact ((taken.trans (.ite (State.narrows_failMember _ _) (State.narrows_changeMember _ _ _))).trans
          (State.narrows_answer _ _ _ _ _)).done

/-! ## Row operations -/

/-- A granted request brings the row that it was waiting with, and no closed offset. -/
theorem State.narrows_grantContext {s : State} (c : ContextId) {r : RowRequest} (h : r ∈ s.rows.contextWait) :
    s.Narrows (s.grantContext c r) := by
  refine .trans ?_ (State.narrows_withHolds _ _)
  have lookup : ∀ d op, ((s.withRows fun x => { x with contextWait := x.contextWait.erase r }).setContext c
      (some r.operation)).context d = some op → op = r.operation ∨ s.context d = some op := by
    intro d op hd
    rw [State.context_setContext] at hd
    split at hd
    · exact .inl (Option.some.inj hd).symm
    · exact .inr hd
  refine ⟨fun _ => .refl _, ?_, ?_, fun _ _ => id⟩
  · rintro x row (⟨d, op, hd, rfl, rfl⟩ | ⟨q, hq, hw⟩ | hw)
    · rcases lookup d op hd with rfl | hs
      · exact .inr (.inl ⟨r, h, rfl, rfl⟩)
      · exact .inl ⟨d, op, hs, rfl, rfl⟩
    · exact .inr (.inl ⟨q, List.mem_of_mem_erase hq, hw⟩)
    · exact .inr (.inr hw)
  · rintro i ⟨d, op, hd, hi⟩
    rcases lookup d op hd with rfl | hs
    · simp [RowRequest.operation] at hi
    · exact .inr ⟨d, op, hs, hi⟩

theorem execContextGrant_narrows (s : State) : Lands s.Narrows (execContextGrant s) := by
  unfold execContextGrant
  split
  · have waiting := List.mem_of_find?_eq_some ‹_ = some _›
    split
    · exact (s.narrows_endWaiting _ _).done
    · exact (State.narrows_grantContext _ waiting).done
  · exact lands_idle s

theorem State.narrows_decideTargets (s : State) (c : ContextId) : s.Narrows (s.decideTargets c) := by
  unfold State.decideTargets
  split
  · exact .refl s
  · exact .ite (s.narrows_withOperation_same _ _) (.refl s)

theorem execHoldGrant_narrows (s : State) : Lands s.Narrows (execHoldGrant s) := by
  unfold execHoldGrant
  split
  · exact lands_idle s
  · exact (((s.narrows_withHolds _).trans (State.narrows_decideTargets _ _)).trans (State.narrows_takePlan _ _)).done

theorem State.narrows_grantFrames (s : State) (c : ContextId) (op : Operation) : s.Narrows (s.grantFrames c op) := by
  refine .trans (s.narrows_withOperation c fun x _ => ?_) (State.narrows_submitReads _ _ _ _)
  exact Operation.Follows.trans ⟨rfl, rfl, fun _ => .inr⟩ (Operation.beginFetch_follows _ _)

theorem execFrameGrant_narrows (s : State) : Lands s.Narrows (execFrameGrant s) := by
  unfold execFrameGrant
  split
  · exact lands_idle s
  · split
    · exact lands_idle s
    · split
      · exact (s.narrows_endOperation _ _).done
      · exact .ite (State.Narrows.trans (s.narrows_withRows _) (State.narrows_grantFrames _ _ _)).done (lands_idle s)

theorem execBufferFetchEnd_narrows (c : ContextId) (fetched : Option (List Block)) (s : State) :
    Lands s.Narrows (execBufferFetchEnd c fetched s) := by
  unfold execBufferFetchEnd
  split
  · exact lands_idle s
  · refine .ite ?_ (lands_idle s)
    split
    · exact (s.narrows_withOperation_same _ _).done
    · exact (s.narrows_withOperation_same _ _).done

theorem execGatherEnd_narrows (c : ContextId) (s : State) : Lands s.Narrows (execGatherEnd c s) := by
  unfold execGatherEnd
  split
  · exact lands_idle s
  · exact .ite (s.narrows_endReads _).done (lands_idle s)

theorem execSupplementEnd_narrows (c : ContextId) (s : State) : Lands s.Narrows (execSupplementEnd c s) := by
  unfold execSupplementEnd
  split
  · exact lands_idle s
  · exact .ite (s.narrows_endReads _).done (lands_idle s)

theorem execAwaitMemberWake_narrows (c : ContextId) (s : State) : Lands s.Narrows (execAwaitMemberWake c s) := by
  unfold execAwaitMemberWake
  split
  · exact lands_idle s
  · exact .ite (s.narrows_takePlan _).done (lands_idle s)

theorem execSolverTakeHead_narrows (s : State) : Lands s.Narrows (execSolverTakeHead s) := by
  unfold execSolverTakeHead
  split
  · split
    · exact (s.narrows_withSolver _).done
    · split
      · exact (s.narrows_endOperation _ _).done
      · exact ((s.narrows_withSolver _).trans (State.narrows_withOperation_same _ _ _)).done
  · exact lands_idle s

theorem execSolveCompletion_narrows (s : State) : Lands s.Narrows (execSolveCompletion s) := by
  unfold execSolveCompletion
  split
  · exact lands_idle s
  · exact (s.narrows_completeSolve _).done

theorem State.narrows_endDelivery (s : State) (c : ContextId) (op : Operation) : s.Narrows (s.endDelivery c op) := by
  have ended : s.Narrows (s.withOperation c fun x => { x with delivering := false }) := s.narrows_withOperation_same _ _
  exact .ite ended (ended.trans (State.narrows_submitWrites _ _))

theorem execBufferDeliveryEnd_narrows (c : ContextId) (fault : Bool) (s : State) :
    Lands s.Narrows (execBufferDeliveryEnd c fault s) := by
  unfold execBufferDeliveryEnd
  split
  · exact lands_idle s
  · refine .ite (.ite ?_ (s.narrows_endDelivery _ _).done) (lands_idle s)
    split
    · exact (s.narrows_endOperation _ _).done
    · exact (s.narrows_endOperation _ _).done

theorem execPlaceEnd_narrows (c : ContextId) (s : State) : Lands s.Narrows (execPlaceEnd c s) := by
  unfold execPlaceEnd
  split
  · exact lands_idle s
  · exact .ite (s.narrows_endPlace _).done (lands_idle s)

/-! ## Jobs -/

/-- A job that is on its extent given another state in which it is on it. -/
theorem State.narrows_withJob_on (s : State) (j : JobId) (f : Job → Job) (on : (s.job j).isOn = true)
    (extent : ∀ x, (f x).extent = x.extent := by intros; rfl)
    (endRow : ∀ x, (f x).endRow = x.endRow := by intros; rfl) : s.Narrows (s.withJob j f) :=
  s.narrows_withJob j fun _ => ⟨on, extent _, endRow _⟩

theorem State.narrows_pauseJob {s : State} (slip : SlipId) {j : JobId} (on : (s.job j).isOn = true) :
    s.Narrows (s.pauseJob slip j) :=
  .ite (.trans (.trans (s.narrows_withJob_on j _ on) (State.narrows_answerJob _ _ _ _)) (State.narrows_askPublish _))
    (.trans (s.narrows_withJob_on j _ on) (State.narrows_askPublish _))

theorem execJobctlPause_narrows (tag : BitVec 64) (body : SlipBody) (s : State) :
    Lands s.Narrows (execJobctlPause tag body s) := by
  unfold execJobctlPause
  split
  · exact lands_idle s
  · have taken := State.narrows_takeSlip ‹_›
    split
    · exact (taken.trans (State.narrows_refuse _ _ _)).done
    · split
      · rename_i running
        exact (taken.trans (State.narrows_pauseJob _ (by simp [Job.isOn, running.1]))).done
      · exact (taken.trans (State.narrows_refuse _ _ _)).done

theorem State.narrows_resumeJob {s : State} (slip : SlipId) {j : JobId} (on : (s.job j).isOn = true) :
    s.Narrows (s.resumeJob slip j) :=
  .ite (.trans (s.narrows_withJob_on j _ on) (State.narrows_askPublish _))
    (.trans (.trans (s.narrows_withJob_on j _ on) (State.narrows_answerJob _ _ _ _)) (State.narrows_askPublish _))

theorem execJobctlResume_narrows (tag : BitVec 64) (body : SlipBody) (s : State) :
    Lands s.Narrows (execJobctlResume tag body s) := by
  unfold execJobctlResume
  split
  · exact lands_idle s
  · have taken := State.narrows_takeSlip ‹_›
    split
    · exact (taken.trans (State.narrows_refuse _ _ _)).done
    · split
      · rename_i paused
        exact (taken.trans (State.narrows_resumeJob _ (by simp [Job.isOn, paused]))).done
      · exact (taken.trans (State.narrows_refuse _ _ _)).done

theorem execJobctlAbort_narrows (tag : BitVec 64) (body : SlipBody) (s : State) :
    Lands s.Narrows (execJobctlAbort tag body s) := by
  unfold execJobctlAbort
  split
  · exact lands_idle s
  · have taken := State.narrows_takeSlip ‹_›
    split
    · exact (taken.trans (State.narrows_refuse _ _ _)).done
    · exact .ite ((taken.trans (State.narrows_drainJob _ _ _)).trans (State.narrows_withJob_same _ _ _)).done
        (taken.trans (State.narrows_refuse _ _ _)).done

theorem Job.change_bounds (guard : GuardState) (f : ControlFields) (j : Job) : j.Bounds (j.change guard f) := by
  unfold Job.change
  dsimp only
  split <;> exact .of_eq rfl rfl rfl

theorem execJobctlChange_narrows (tag : BitVec 64) (body : SlipBody) (s : State) :
    Lands s.Narrows (execJobctlChange tag body s) := by
  unfold execJobctlChange
  split
  · exact lands_idle s
  · have taken := State.narrows_takeSlip ‹_›
    split
    · exact (taken.trans (State.narrows_refuse _ _ _)).done
    · exact .ite (((taken.trans (State.narrows_withJob _ _ (Job.change_bounds _ _ _))).trans
        (State.narrows_answerJob _ _ _ _)).trans (State.narrows_askPublishIf _ _)).done
        (taken.trans (State.narrows_refuse _ _ _)).done

theorem execStartingDrainEnd_narrows (j : JobId) (s : State) : Lands s.Narrows (execStartingDrainEnd j s) := by
  unfold execStartingDrainEnd
  split
  · rename_i starting
    exact (State.Narrows.trans (s.narrows_withJob_on j _ (by simp [Job.isOn, starting.1]))
      (State.narrows_askPublish _)).done
  · exact lands_idle s

theorem State.narrows_answerPause (s : State) (j : JobId) : s.Narrows (s.answerPause j) := by
  unfold State.answerPause
  split
  · exact .trans (s.narrows_answerJob _ _ _) (State.narrows_withJob_same _ _ _)
  · exact .refl s

theorem execPausingDrainEnd_narrows (j : JobId) (s : State) : Lands s.Narrows (execPausingDrainEnd j s) := by
  unfold execPausingDrainEnd
  split
  · rename_i pausing
    exact (State.Narrows.trans (.trans (s.narrows_withJob_on j _ (by simp [Job.isOn, pausing.1]))
      (State.narrows_answerPause _ _)) (State.narrows_askPublish _)).done
  · exact lands_idle s

theorem execAbortingDrainEnd_narrows (j : JobId) (s : State) : Lands s.Narrows (execAbortingDrainEnd j s) :=
  .ite (State.Narrows.trans (.trans (.trans (.trans (.foldl (fun s t => s.narrows_turnMember t .target .spare) _ s)
    (State.narrows_endJob _ _ _)) (State.narrows_answerIf _ _ _ _ _)) (State.narrows_answerEndedControl _ _ _))
    (State.narrows_askPublish _)).done (lands_idle s)

theorem execJobCompletion_narrows (j : JobId) (s : State) : Lands s.Narrows (execJobCompletion j s) :=
  .ite (s.narrows_completeJob j).done (lands_idle s)

/-! ## Foreground service -/

theorem State.narrows_withRequest (s : State) (slip : SlipId) (f : ForegroundRequest → ForegroundRequest)
    (extent : ∀ r, (f r).extent = r.extent := by intros; rfl) (pieces : ∀ r, (f r).pieces = r.pieces := by intros; rfl) :
    s.Narrows (s.withRequest slip f) := by
  refine s.narrows_mapRequests (fun r => ?_) fun r => ?_
  · split
    · exact extent r
    · rfl
  · split
    · exact pieces r
    · rfl

/-- A piece started is a row of a request that is there. -/
theorem State.narrows_startPiece {s : State} {r : ForegroundRequest} {piece : Piece} (request : r ∈ s.requests)
    (mem : piece ∈ r.pieces) : s.Narrows (s.startPiece r piece) := by
  refine .ite (s.narrows_withRequest _ _) ?_
  have started := s.narrows_withRequest r.slip fun x =>
    { x with inFlight := x.inFlight ++ [piece.row], nextPiece := x.nextPiece + 1, granted := x.granted - 1 }
  refine ⟨started.extents, ?_, started.closes, started.rebuilds⟩
  rintro x row (hw | ⟨q, hq, rfl, rfl⟩ | hw)
  · exact started.works x row (.inl hw)
  · rcases List.mem_append.mp hq with hq | hq
    · exact started.works _ _ (.inr (.inl ⟨q, hq, rfl, rfl⟩))
    · obtain rfl := List.mem_singleton.mp hq
      exact .inr (.inr ⟨r, request, rfl, piece, mem, rfl⟩)
  · exact started.works x row (.inr (.inr hw))

theorem execPieceStart_narrows (slip : SlipId) (s : State) : Lands s.Narrows (execPieceStart slip s) := by
  unfold execPieceStart
  split
  · exact lands_idle s
  · have request := List.mem_of_find?_eq_some ‹_ = some _›
    refine .ite ?_ (lands_idle s)
    split
    · exact (State.narrows_startPiece request (List.mem_of_getElem? ‹_›)).done
    · exact lands_idle s

theorem execRequestFinish_narrows (slip : SlipId) (s : State) : Lands s.Narrows (execRequestFinish slip s) := by
  have removed : s.Narrows (s.withRequests fun l => l.filter fun x => x.slip != slip) :=
    s.narrows_withRequests fun r hr => ⟨r, List.mem_of_mem_filter hr, rfl, rfl⟩
  unfold execRequestFinish
  split
  · exact lands_idle s
  · exact .ite (removed.trans (State.narrows_answer _ _ _ _ _)).done (lands_idle s)

/-! ## The loss list -/

theorem execLossesExport_narrows (tag : BitVec 64) (body : SlipBody) (s : State) :
    Lands s.Narrows (execLossesExport tag body s) := by
  unfold execLossesExport
  split
  · exact lands_idle s
  · have taken := State.narrows_takeSlip ‹_›
    exact .ite (taken.trans (State.narrows_withLosses _ _)).done (taken.trans (State.narrows_refuse _ _ _)).done

theorem execLossesImport_narrows (tag : BitVec 64) (body : SlipBody) (s : State) :
    Lands s.Narrows (execLossesImport tag body s) := by
  unfold execLossesImport
  split
  · exact lands_idle s
  · have taken := State.narrows_takeSlip ‹_›
    have refused := fun i reason => (taken.trans (State.narrows_refuse _ i reason)).done
    dsimp only
    split
    · exact refused _ _
    · exact .ite (refused _ _) (.ite (refused _ _) (taken.trans (State.narrows_withLosses _ _)).done)

theorem execLossesRemove_narrows (tag : BitVec 64) (body : SlipBody) (s : State) :
    Lands s.Narrows (execLossesRemove tag body s) := by
  unfold execLossesRemove
  split
  · exact lands_idle s
  · have taken := State.narrows_takeSlip ‹_›
    dsimp only
    split
    · exact (taken.trans (State.narrows_refuse _ _ _)).done
    · exact ((taken.trans (State.narrows_removeLossRange _ _ _ _)).trans (State.narrows_answer _ _ _ _ _)).done

theorem execExportEnd_narrows (slip : SlipId) (fault : Bool) (s : State) :
    Lands s.Narrows (execExportEnd slip fault s) := by
  have ended : s.Narrows (s.endTransfer slip) := s.narrows_withLosses _
  unfold execExportEnd
  split
  · exact lands_idle s
  · split
    · exact lands_idle s
    · exact .ite (ended.trans (State.narrows_refuse _ _ _)).done (ended.trans (State.narrows_answer _ _ _ _ _)).done

theorem execImportCompletion_narrows (slip : SlipId) (records : Option (List RecordBytes)) (s : State) :
    Lands s.Narrows (execImportCompletion slip records s) := by
  have ended : s.Narrows (s.endTransfer slip) := s.narrows_withLosses _
  unfold execImportCompletion
  split
  · exact lands_idle s
  · split
    · exact lands_idle s
    · dsimp only
      split
      · exact (ended.trans (State.narrows_refuse _ _ _)).done
      · refine .ite (ended.trans (State.narrows_refuse _ _ _)).done ?_
        split
        · exact (ended.trans (State.narrows_answer _ _ _ _ _)).done
        · exact (State.Narrows.trans (ended.trans (State.narrows_insertLosses _ _))
            (State.narrows_answer _ _ _ _ _)).done

end Sys2Proof.Machine
end

section
/-! SUPPORT. The commands that add a row, a job or an extent, and O58. -/

namespace Sys2Proof.Machine

/-- An extent in use has its sizes in range. -/
theorem State.MapLegal.sized {s : State} (h : s.MapLegal) {x : ExtentId} (used : (s.extent x).inUse = true) :
    (s.extent x).sized := by
  rcases h x with ⟨-, sized⟩ | empty
  · exact sized
  · rw [empty] at used
    simp [Extent.inUse, Extent.empty] at used

/-- An entry that is not in use is empty. -/
theorem State.MapLegal.eq_empty {s : State} (h : s.MapLegal) {x : ExtentId} (unused : (s.extent x).inUse = false) :
    s.extent x = Extent.empty := by
  rcases h x with ⟨used, -⟩ | empty
  · simp [unused] at used
  · exact empty

/-! ## Power-on reset -/

/-- After power-on reset the layout map is empty and no row is worked on. -/
theorem State.inRange_reset (pending : List Instr) : State.InRange { State.reset with pending := pending } := by
  refine ⟨fun x => .inr (by simp [State.extent, State.reset]), fun c op hc => ?_, fun r hr => ?_, fun r hr => ?_,
    fun j on => ?_⟩
  · simp [State.context, State.reset] at hc
  · simp [State.reset] at hr
  · simp [State.reset] at hr
  · simp [State.job, State.reset, Job.isOn, Job.free] at on

/-! ## The layout map -/

/-- An entry replaced by one that holds the rows worked on in it. -/
theorem State.InRange.replaceExtent {s : State} (h : s.InRange) {i : ExtentId} {e : Extent}
    (form : (e.inUse = true ∧ e.sized) ∨ e = Extent.empty) (works : ∀ row, s.WorksOn i row → row ≤ e.rows - 1)
    (rebuilds : ∀ n, s.RebuildsTo i n → n ≤ e.rows) : (s.withExtent i fun _ => e).InRange := by
  obtain ⟨map, rows⟩ := h
  obtain ⟨works', closes, rebuilds'⟩ := s.rowsLegal_iff.mp rows
  refine ⟨fun x => ?_, (State.rowsLegal_iff _).mpr ⟨fun x row hw => ?_, closes, fun x n hn => ?_⟩⟩
  · rw [State.extent_withExtent]
    split
    · exact form
    · exact map x
  · rw [State.lastRows, State.extent_withExtent]
    split
    · rename_i same
      exact works row (same ▸ hw)
    · exact works' x row hw
  · rw [State.extent_withExtent]
    split
    · rename_i same
      exact rebuilds n (same ▸ hn)
    · exact rebuilds' x n hn

/-- No row but the first is worked on in an empty extent, and no job rebuilds a row of it. -/
theorem State.InRange.rows_of_empty {s : State} (h : s.InRange) {i : ExtentId} (empty : s.extent i = Extent.empty) :
    (∀ row, s.WorksOn i row → row = 0) ∧ ∀ n, s.RebuildsTo i n → n = 0 := by
  obtain ⟨works, -, rebuilds⟩ := s.rowsLegal_iff.mp h.2
  have none : Extent.empty.rows = 0 := rfl
  refine ⟨fun row hw => ?_, fun n hn => ?_⟩
  · have := works i row hw
    rw [State.lastRows, empty, none] at this
    omega
  · have := rebuilds i n hn
    rw [empty, none] at this
    omega

/-- What `DefineFields.entry` says of the entry that it gives. -/
theorem DefineFields.sized_of_entry {f : DefineFields} {e : Extent} (h : f.entry = some e) : e.sized := by
  unfold DefineFields.entry at h
  split at h
  · dsimp only at h
    split at h
    · rename_i checks
      cases h
      simp only [Bool.and_eq_true, Bool.or_eq_true, decide_eq_true_eq, beq_iff_eq] at checks
      obtain ⟨⟨⟨⟨⟨⟨⟨suits, strip⟩, low⟩, high⟩, array⟩, member⟩, -⟩, -⟩ := checks
      exact ⟨suits, or_assoc.mp strip, ⟨low, high⟩, array, member⟩
    · cases h
  · cases h

/-- An accepted DEFINE is for an entry not in use, with the sizes of R1. -/
theorem State.checkDefine_ok {s : State} {i : ExtentId} {f : DefineFields} {e : Extent}
    (h : s.checkDefine i f = .ok e) : (s.extent i).inUse = false ∧ e.sized := by
  unfold State.checkDefine at h
  split at h
  · cases h
  · rename_i unused
    refine ⟨by simpa using unused, ?_⟩
    split at h
    · cases h
    · rename_i entry
      split at h
      · cases h
      · split at h
        · cases h
        · cases h
          exact DefineFields.sized_of_entry entry

theorem State.withExtent_withExtent (s : State) (e : ExtentId) (f g : Extent → Extent) :
    (s.withExtent e f).withExtent e g = s.withExtent e (g ∘ f) := by
  simp [State.withExtent, bankModify]

theorem State.InRange.defineExtent {s : State} (h : s.InRange) {i : ExtentId} {e : Extent}
    (unused : (s.extent i).inUse = false) (sized : e.sized) : (s.defineExtent i e).InRange := by
  have joins : s.Narrows (s.joinPorts e.targets) :=
    .foldl (fun s p => .ite (s.narrows_changeMember p .online) (.refl s)) e.targets s
  have joined := joins.inRange h
  have empty := joined.1.eq_empty ((joins.extents i).inUse.trans unused)
  obtain ⟨works, rebuilds⟩ := joined.rows_of_empty empty
  refine State.Narrows.inRange (State.narrows_askPublish _) ?_
  rw [State.withExtent_withExtent]
  refine joined.replaceExtent (.inl ⟨?_, sized⟩) (fun row hw => ?_) fun n hn => ?_
  · simpa [Extent.inUse] using State.conditionOf_ne_unused _ i
  · have := works row hw
    omega
  · have := rebuilds n hn
    omega

theorem execExtentDefine_inRange {s : State} (h : s.InRange) (tag : BitVec 64) (body : SlipBody) :
    Lands State.InRange (execExtentDefine tag body s) := by
  unfold execExtentDefine
  split
  · exact .next h
  · have taken := State.narrows_takeSlip ‹_›
    have refused := fun i reason => (taken.trans (State.narrows_refuse _ i reason)).done.mono fun _ n => n.inRange h
    split
    · exact refused _ _
    · refine .ite (refused _ _) ?_
      split
      · exact refused _ _
      · rename_i checked
        obtain ⟨unused, sized⟩ := State.checkDefine_ok checked
        exact ((State.narrows_answer _ _ _ _ _).done).mono fun _ n =>
          n.inRange ((taken.inRange h).defineExtent unused sized)

/-- A CLEAR that passes its checks finds no row worked on in the extent and no job on it. -/
theorem State.idle_of_checkClear {s : State} {i : ExtentId} (h : s.checkClear i = none) :
    (∀ row, ¬ s.WorksOn i row) ∧ ∀ n, ¬ s.RebuildsTo i n := by
  unfold State.checkClear at h
  split at h
  · cases h
  · split at h
    · cases h
    · rename_i noJob
      split at h
      · cases h
      · rename_i noWork
        simp only [State.rowWorkOn, State.serves, Bool.and_true, Bool.or_eq_true, not_or, List.any_eq_true,
          beq_iff_eq, not_exists, not_and] at noWork
        obtain ⟨⟨contexts, waits⟩, -, requests⟩ := noWork
        constructor
        · rintro row (⟨c, op, hc, on, -⟩ | ⟨r, hr, on, -⟩ | ⟨r, hr, on, -⟩)
          · exact contexts (c, op) (by simp [State.operations, hc]) on
          · exact waits r hr on
          · exact requests r hr on
        · rintro n ⟨j, on, there, -⟩
          have := List.find?_eq_none.mp (Option.not_isSome_iff_eq_none.mp noJob) j (mem_bankIndices j)
          simp [on, there] at this

theorem State.InRange.clearExtent {s : State} (h : s.InRange) {i : ExtentId} (checked : s.checkClear i = none) :
    (s.clearExtent i).InRange := by
  have narrows : s.Narrows (((((s.extent i).targets.filter fun p => (s.port p).memberState == .online).foldl
      (fun s p => s.changeMember p .spare) s).withLosses fun l =>
        { l with entries := l.entries.filter fun e => e.extent != i }).withRows fun r =>
          { r with unsettled := r.unsettled.filter fun e => e.extent != i }) :=
    .trans (.trans (.foldl (fun s p => s.narrows_changeMember p .spare) _ s) (State.narrows_withLosses _ _))
      (State.narrows_withRows _ _)
  obtain ⟨works, rebuilds⟩ := State.idle_of_checkClear checked
  refine State.Narrows.inRange (State.narrows_askPublish _) ?_
  exact (narrows.inRange h).replaceExtent (.inr rfl) (fun row hw => absurd (narrows.works i row hw) (works row))
    fun n hn => absurd (narrows.rebuilds i n hn) (rebuilds n)

theorem execExtentClear_inRange {s : State} (h : s.InRange) (tag : BitVec 64) (body : SlipBody) :
    Lands State.InRange (execExtentClear tag body s) := by
  unfold execExtentClear
  split
  · exact .next h
  · have taken := State.narrows_takeSlip ‹_›
    have refused := fun i reason => (taken.trans (State.narrows_refuse _ i reason)).done.mono fun _ n => n.inRange h
    split
    · exact refused _ _
    · refine .ite (refused _ _) ?_
      split
      · exact refused _ _
      · rename_i checked
        exact ((State.narrows_answer _ _ _ _ _).done).mono fun _ n => n.inRange ((taken.inRange h).clearExtent checked)

/-! ## Jobs -/

/-- A record filled for a job that ends with the rows of its extent. -/
theorem State.InRange.withJob {s : State} (h : s.InRange) (j : JobId) {f : Job → Job}
    (bound : (f (s.job j)).endRow ≤ (s.extent (f (s.job j)).extent).rows) : (s.withJob j f).InRange := by
  obtain ⟨map, contexts, waits, requests, jobs⟩ := h
  refine ⟨map, contexts, waits, requests, fun k on => ?_⟩
  rw [State.job_withJob] at on ⊢
  split at on
  · rename_i same
    rw [if_pos same]
    exact same ▸ bound
  · rename_i other
    rw [if_neg other]
    exact jobs k on

theorem State.narrows_markCounted (s : State) (e : ExtentId) (j : JobId) : s.Narrows (s.markCounted e j) := by
  have counted : ∀ c op', (s.markCounted e j).context c = some op' → ∃ op, s.context c = some op ∧ op.Follows op' := by
    intro c op' hc
    simp only [State.markCounted, State.context, State.withRows_rows, bankMap_getElem] at hc
    obtain ⟨op, hs, rfl⟩ := Option.map_eq_some_iff.mp hc
    refine ⟨op, hs, ?_⟩
    split <;> exact ⟨rfl, rfl, fun _ => .inr⟩
  refine ⟨fun _ => .refl _, ?_, ?_, fun _ _ => id⟩
  · rintro x row (⟨c, op', hc, rfl, rfl⟩ | ⟨r, hr, hw⟩ | hw)
    · obtain ⟨op, hs, extent, row, -⟩ := counted c op' hc
      exact .inl ⟨c, op, hs, extent.symm, row.symm⟩
    · obtain ⟨q, hq, rfl⟩ := List.mem_map.mp hr
      refine .inr (.inl ⟨q, hq, ?_⟩)
      split at hw <;> exact hw
    · exact .inr (.inr hw)
  · rintro i ⟨c, op', hc, hi⟩
    obtain ⟨op, hs, -, -, closed⟩ := counted c op' hc
    exact (closed i hi).imp_right fun hi => ⟨c, op, hs, hi⟩

theorem State.InRange.acceptRebuild {s : State} (h : s.InRange) (slip : SlipId) (f : RebuildFields)
    (plan : RebuildPlan) (j : JobId) : (s.acceptRebuild slip f plan j).InRange := by
  have filled : (s.withJob j fun _ => s.newJob slip f plan).InRange := h.withJob j (Nat.le_refl _)
  exact State.Narrows.inRange (.trans (.trans (State.narrows_markCounted _ _ _)
    (.foldl (fun s (x : Source) => s.narrows_changeMember x.target .target) _ _)) (State.narrows_askPublish _)) filled

theorem execRebuild_inRange {s : State} (h : s.InRange) (tag : BitVec 64) (body : SlipBody) :
    Lands State.InRange (execRebuild tag body s) := by
  unfold execRebuild
  split
  · exact .next h
  · have taken := State.narrows_takeSlip ‹_›
    dsimp only
    split
    · exact (taken.trans (State.narrows_refuse _ _ _)).done.mono fun _ n => n.inRange h
    · exact (State.Narrows.refl _).done.mono fun _ n => n.inRange ((taken.inRange h).acceptRebuild _ _ _ _)

/-- A request joins the context wait list for a row of its extent. -/
theorem State.InRange.addWait {s : State} (h : s.InRange) {r : RowRequest} (row : r.row ≤ s.lastRows r.extent) :
    (s.withRows fun x => { x with contextWait := x.contextWait ++ [r] }).InRange := by
  obtain ⟨map, contexts, waits, requests, jobs⟩ := h
  refine ⟨map, contexts, fun q hq => ?_, requests, jobs⟩
  rcases List.mem_append.mp hq with hq | hq
  · exact waits q hq
  · obtain rfl := List.mem_singleton.mp hq
    exact row

theorem State.InRange.startRow {s : State} (h : s.InRange) {j : JobId} (terms : s.canStartRow j = true) :
    (s.startRow j).InRange := by
  simp only [State.canStartRow, Bool.and_eq_true, beq_iff_eq, decide_eq_true_eq] at terms
  obtain ⟨⟨⟨⟨⟨running, -⟩, -⟩, -⟩, -⟩, below⟩ := terms
  obtain ⟨map, contexts, waits, requests, jobs⟩ := id h
  have bound := jobs j (by simp [Job.isOn, running])
  refine State.InRange.addWait ((s.narrows_withJob_same j _).inRange h) ?_
  show (s.job j).nextRow ≤ (s.extent (s.job j).extent).rows - 1
  omega

theorem execJobRowStart_inRange {s : State} (h : s.InRange) (j : JobId) :
    Lands State.InRange (execJobRowStart j s) := by
  unfold execJobRowStart
  split
  · rename_i terms
    exact (State.Narrows.refl _).done.mono fun _ n => n.inRange (h.startRow terms.1)
  · exact .next h

/-! ## Foreground requests -/

theorem State.InRange.addRequest {s : State} (h : s.InRange) {r : ForegroundRequest}
    (rows : ∀ piece ∈ r.pieces, piece.row ≤ s.lastRows r.extent) : (s.addRequest r).InRange := by
  obtain ⟨map, contexts, waits, requests, jobs⟩ := h
  refine ⟨map, contexts, waits, fun q hq => ?_, jobs⟩
  rcases List.mem_append.mp hq with hq | hq
  · exact requests q hq
  · obtain rfl := List.mem_singleton.mp hq
    rw [ForegroundRequest.testPieces_pieces, ForegroundRequest.testPieces_extent]
    exact rows

/-- The sizes of an entry in use are positive. -/
theorem Extent.sized.pos {e : Extent} (h : e.sized) :
    0 < e.stripeBlocks ∧ 0 < e.stripSize ∧ 0 < e.rowsPerStripe ∧ 0 < e.dataCount ∧ 0 < e.stripeCount := by
  obtain ⟨suits, strip, ⟨stripes, -⟩, -⟩ := h
  have data : 0 < e.dataCount := by
    unfold Extent.dataCount Extent.parityCount
    cases hk : e.kind <;> rw [hk] at suits <;> simp [ExtentKind.suits] at suits <;> dsimp only <;> omega
  have size : 0 < e.stripSize := by omega
  refine ⟨Nat.mul_pos data size, size, ?_, data, stripes⟩
  unfold Extent.rowsPerStripe
  omega

/-- The row pieces of blocks within the array range are rows of the extent. -/
theorem Extent.row_of_mem_rowPieces {e : Extent} (h : e.sized) {first last : Nat} {piece : Piece}
    (range : last ≤ e.arrayLimit) (mem : piece ∈ e.rowPieces first last) : piece.row ≤ e.rows - 1 := by
  obtain ⟨stripe, -, -, -, stripes⟩ := h.pos
  simp only [Extent.rowPieces, List.mem_filterMap, List.mem_range] at mem
  obtain ⟨i, lt, eq⟩ := mem
  split at eq
  · cases eq
  · cases eq
    have span : last - e.arrayStart < e.stripeCount * e.stripeBlocks := by
      have := Nat.mul_pos stripes stripe
      unfold Extent.arrayLimit at range
      omega
    have lastStripe : (last - e.arrayStart) / e.stripeBlocks < e.stripeCount := Nat.div_lt_of_lt_mul (by rwa [Nat.mul_comm])
    have bound : ((last - e.arrayStart) / e.stripeBlocks + 1) * e.rowsPerStripe ≤ e.rows :=
      Nat.mul_le_mul_right _ lastStripe
    rw [Nat.sub_mul] at lt
    dsimp only
    omega

theorem State.checkServing_none {s : State} {e : ExtentId} (h : s.checkServing e = none) :
    (s.extent e).inUse = true := by
  unfold State.checkServing at h
  split at h
  · cases h
  · rename_i used
    simpa using used

theorem State.checkTransfer_ok {s : State} {f : TransferFields} {e : ExtentId} (h : s.checkTransfer f = .ok e) :
    (s.extent e).inUse = true ∧ f.firstBlock + f.blockCount - 1 ≤ (s.extent e).arrayLimit := by
  unfold State.checkTransfer at h
  split at h
  · cases h
  · split at h
    · cases h
    · split at h
      · cases h
      · rename_i serving
        split at h
        · cases h
        · rename_i range
          cases h
          exact ⟨State.checkServing_none serving, by omega⟩

theorem State.narrows_markNamed (s : State) (slip : SlipId) (extent : Nat) : s.Narrows (s.markNamed slip extent) := by
  unfold State.markNamed
  split
  · exact s.narrows_withBoard _
  · exact .refl s

theorem State.InRange.takeTransfer {s : State} (h : s.InRange) (slip : SlipId) (kind : ForegroundKind)
    (f : TransferFields) : (s.takeTransfer slip kind f).InRange := by
  have marked := (s.narrows_markNamed slip f.extent).inRange h
  unfold State.takeTransfer
  dsimp only
  split
  · exact (State.narrows_refuse _ _ _).inRange marked
  · rename_i checked
    obtain ⟨used, range⟩ := State.checkTransfer_ok checked
    exact marked.addRequest fun piece mem => Extent.row_of_mem_rowPieces (marked.1.sized used) range mem

theorem execRead_inRange {s : State} (h : s.InRange) (tag : BitVec 64) (body : SlipBody) :
    Lands State.InRange (execRead tag body s) := by
  unfold execRead
  split
  · exact .next h
  · exact (State.Narrows.refl _).done.mono fun _ n =>
      n.inRange (((State.narrows_takeSlip ‹_›).inRange h).takeTransfer _ _ _)

theorem execWrite_inRange {s : State} (h : s.InRange) (tag : BitVec 64) (body : SlipBody) :
    Lands State.InRange (execWrite tag body s) := by
  unfold execWrite
  split
  · exact .next h
  · exact (State.Narrows.refl _).done.mono fun _ n =>
      n.inRange (((State.narrows_takeSlip ‹_›).inRange h).takeTransfer _ _ _)

theorem State.checkResync_ok {s : State} {f : ResyncFields} {e : ExtentId} (h : s.checkResync f = .ok e) :
    f.firstRow + f.rowCount ≤ (s.extent e).rows := by
  unfold State.checkResync at h
  split at h
  · cases h
  · split at h
    · cases h
    · split at h
      · cases h
      · split at h
        · cases h
        · rename_i range
          cases h
          omega

theorem execResync_inRange {s : State} (h : s.InRange) (tag : BitVec 64) (body : SlipBody) :
    Lands State.InRange (execResync tag body s) := by
  unfold execResync
  split
  · exact .next h
  · rename_i slip _ taken
    have marked := (State.narrows_takeSlip taken).trans (State.narrows_markNamed _ slip (resyncFields body).extent)
    dsimp only
    split
    · exact (marked.trans (State.narrows_refuse _ _ _)).done.mono fun _ n => n.inRange h
    · rename_i checked
      have range := State.checkResync_ok checked
      refine (State.Narrows.refl _).done.mono fun _ n => n.inRange ((marked.inRange h).addRequest fun piece mem => ?_)
      simp only [resyncRequest, resyncPieces, List.mem_map, List.mem_range] at mem
      obtain ⟨i, lt, rfl⟩ := mem
      simp only [State.lastRows, resyncRequest]
      omega

/-! ## Every command -/

/-- Every command keeps the layout map legal and the rows worked on in their extents. -/
theorem exec_inRange (i : Instr) {s : State} (h : s.InRange) : Lands State.InRange (exec i s) := by
  have kept : ∀ {o}, Lands s.Narrows o → Lands State.InRange o := fun n => n.mono fun _ n => n.inRange h
  cases i with
  | powerOnReset => exact .next (State.inRange_reset _)
  | linkReset => exact kept (.next (s.narrows_engineReset _))
  | run => exact kept (execRun_narrows s)
  | quiesce => exact kept (execQuiesce_narrows s)
  | reset => exact kept (.next (s.narrows_engineReset _))
  | boardBase access value => exact kept (execBoardBase_narrows access value s)
  | sweep value => exact kept (execSweep_narrows value s)
  | attention value => exact kept (.next (s.narrows_withBoard _))
  | enableSet value => exact kept (.next (s.narrows_withBoard _))
  | enableClear value => exact kept (.next (s.narrows_withBoard _))
  | registerWriteIgnored offset value => exact kept (lands_idle s)
  | sweepHolderRead holder => exact kept (execSweepHolderRead_narrows holder s)
  | takenWrite => exact kept (execTakenWrite_narrows s)
  | settings tag body => exact kept (execSettings_narrows tag body s)
  | member tag body => exact kept (execMember_narrows tag body s)
  | extentDefine tag body => exact execExtentDefine_inRange h tag body
  | extentClear tag body => exact execExtentClear_inRange h tag body
  | rebuild tag body => exact execRebuild_inRange h tag body
  | jobctlPause tag body => exact kept (execJobctlPause_narrows tag body s)
  | jobctlResume tag body => exact kept (execJobctlResume_narrows tag body s)
  | jobctlAbort tag body => exact kept (execJobctlAbort_narrows tag body s)
  | jobctlChange tag body => exact kept (execJobctlChange_narrows tag body s)
  | read tag body => exact execRead_inRange h tag body
  | write tag body => exact execWrite_inRange h tag body
  | resync tag body => exact execResync_inRange h tag body
  | lossesExport tag body => exact kept (execLossesExport_narrows tag body s)
  | lossesImport tag body => exact kept (execLossesImport_narrows tag body s)
  | lossesRemove tag body => exact kept (execLossesRemove_narrows tag body s)
  | badKind kind tag => exact kept (execBadKind_narrows kind tag s)
  | answerWrite => exact kept (execAnswerWrite_narrows s)
  | publish => exact kept (execPublish_narrows s)
  | boardFault access => exact kept (execBoardFault_narrows access s)
  | quiesceComplete => exact kept (execQuiesceComplete_narrows s)
  | tick => exact kept (execTick_narrows s)
  | lapse port slot => exact kept (execLapse_narrows port slot s)
  | sweepTimerExpiry => exact kept (execSweepTimerExpiry_narrows s)
  | periodRestart => exact kept (execPeriodRestart_narrows s)
  | guardHot => exact kept (execGuardHot_narrows s)
  | guardCool => exact kept (execGuardCool_narrows s)
  | driveReply port reply => exact kept (execDriveReply_narrows port reply s)
  | linkUp port => exact kept (execLinkUp_narrows port s)
  | linkDown port => exact kept (execLinkDown_narrows port s)
  | requestIssue port => exact kept (execRequestIssue_narrows port s)
  | contextGrant => exact kept (execContextGrant_narrows s)
  | holdGrant => exact kept (execHoldGrant_narrows s)
  | frameGrant => exact kept (execFrameGrant_narrows s)
  | bufferFetchEnd context fetched => exact kept (execBufferFetchEnd_narrows context fetched s)
  | gatherEnd context => exact kept (execGatherEnd_narrows context s)
  | supplementEnd context => exact kept (execSupplementEnd_narrows context s)
  | awaitMemberWake context => exact kept (execAwaitMemberWake_narrows context s)
  | solverTakeHead => exact kept (execSolverTakeHead_narrows s)
  | solveCompletion => exact kept (execSolveCompletion_narrows s)
  | bufferDeliveryEnd context fault => exact kept (execBufferDeliveryEnd_narrows context fault s)
  | placeEnd context => exact kept (execPlaceEnd_narrows context s)
  | jobRowStart job => exact execJobRowStart_inRange h job
  | startingDrainEnd job => exact kept (execStartingDrainEnd_narrows job s)
  | pausingDrainEnd job => exact kept (execPausingDrainEnd_narrows job s)
  | abortingDrainEnd job => exact kept (execAbortingDrainEnd_narrows job s)
  | jobCompletion job => exact kept (execJobCompletion_narrows job s)
  | pieceStart slip => exact kept (execPieceStart_narrows slip s)
  | requestFinish slip => exact kept (execRequestFinish_narrows slip s)
  | exportEnd slip fault => exact kept (execExportEnd_narrows slip fault s)
  | importCompletion slip records => exact kept (execImportCompletion_narrows slip records s)

/-- Settles O58: the map and the rows worked on stay in range through every command (`exec_inRange`). -/
theorem rowsStayInRange : Obligations.RowsStayInRange := by
  intro s t map rows h
  unfold step at h
  split at h
  · cases h
    exact ⟨map, rows⟩
  · rename_i c rest _
    exact exec_inRange c (s := { s with pending := rest }) ⟨map, rows⟩ t h

end Sys2Proof.Machine
end

section
/-! O2 and O60: the state after power-on reset. -/

namespace Sys2Proof.Machine

/-! Every bank of the reset state holds one value throughout. -/

theorem State.reset_port (p : PortId) : State.reset.port p = Port.powerOn := by simp [State.port, State.reset]
theorem State.reset_extent (x : ExtentId) : State.reset.extent x = Extent.empty := by
  simp [State.extent, State.reset]
theorem State.reset_job (j : JobId) : State.reset.job j = Job.free := by simp [State.job, State.reset]
theorem State.reset_context (c : ContextId) : State.reset.context c = none := by simp [State.context, State.reset]

/-- With no operation in a context every frame is free. -/
theorem State.framesFree_of_no_context {s : State} (h : ∀ c, s.context c = none) : s.framesFree = 160 := by
  have none : s.operations = [] := by simp [State.operations, h]
  rw [State.framesFree, State.framesInUse, none]
  rfl

/-- Settles O2: power-on reset answers the reset state, which only the commands waiting are added to. -/
theorem powerOnResetLeaves : Obligations.PowerOnResetLeaves := by
  intro s
  have ports : ∀ p, ({ State.reset with pending := s.pending } : State).port p = Port.powerOn := State.reset_port
  have contexts : ∀ c, ({ State.reset with pending := s.pending } : State).context c = none := State.reset_context
  refine ⟨{ State.reset with pending := s.pending }, rfl, rfl, fun p => ?_, State.reset_extent, contexts, rfl, rfl, rfl,
    State.framesFree_of_no_context contexts, rfl, rfl, rfl, rfl, State.reset_job, ?_⟩
  · rw [ports]
    exact ⟨rfl, rfl, rfl, rfl, rfl, rfl, rfl, rfl, rfl, rfl, rfl, rfl⟩
  · repeat' apply And.intro
    all_goals rfl

/-- The power-on settings lie in their ranges. -/
theorem Settings.powerOn_legal : Settings.powerOn.legal := by
  unfold Settings.legal
  decide

/-- Settles O60: after power-on reset no port, job, extent or list holds anything, and the map and rows are those of
`State.inRange_reset`. -/
theorem invariantsAtReset : Obligations.InvariantsAtReset := by
  refine ⟨rfl, fun p => ?_, fun j on => ?_, ⟨List.nodup_nil, Nat.zero_le _, fun run h => nomatch h⟩,
    ⟨fun h mem => (List.not_mem_nil mem).elim, List.Pairwise.nil⟩, Settings.powerOn_legal,
    ⟨Nat.zero_le _, fun e mem => (List.not_mem_nil mem).elim, List.Pairwise.nil⟩,
    ⟨Nat.zero_le _, fun e mem => (List.not_mem_nil mem).elim, List.Pairwise.nil⟩, State.inRange_reset []⟩
  · rw [State.reset_port]
    exact fun _ => ⟨rfl, rfl⟩
  · rw [State.reset_job] at on
    cases on

end Sys2Proof.Machine
end

section
/-! SUPPORT and O48, O49: the address arithmetic of an extent. -/

namespace Sys2Proof.Machine

/-! ## A rotation of the positions -/

/-- A number below twice the modulus is at most once reduced. -/
theorem mod_of_lt_two_mul {a n : Nat} (h : a < 2 * n) : a % n = if a < n then a else a - n := by
  split
  · exact Nat.mod_eq_of_lt ‹_›
  · rw [Nat.mod_eq_sub_mod (by omega), Nat.mod_eq_of_lt (by omega)]

/-- The place of a position after `L`, wrapping, undoes the position of a place. -/
theorem index_rotate {n L j : Nat} (hL : L < n) (hj : j < n) : ((L + 1 + j) % n + n - L - 1) % n = j := by
  rw [mod_of_lt_two_mul (a := L + 1 + j) (by omega)]
  split
  · rw [mod_of_lt_two_mul (by omega)]
    split <;> omega
  · rw [mod_of_lt_two_mul (by omega)]
    split <;> omega

theorem rotate_index {n L p : Nat} (hL : L < n) (hp : p < n) : (L + 1 + (p + n - L - 1) % n) % n = p := by
  rw [mod_of_lt_two_mul (a := p + n - L - 1) (by omega)]
  split
  · rw [mod_of_lt_two_mul (by omega)]
    split <;> omega
  · rw [mod_of_lt_two_mul (by omega)]
    split <;> omega

/-! ## Parity placement (R6) -/

theorem Extent.parityCount_eq (e : Extent) : e.parityCount = if e.kind = .double then 2 else 1 := by
  unfold Extent.parityCount
  cases e.kind <;> rfl

theorem Extent.legal.parityCount_lt {e : Extent} (h : e.legal) : e.parityCount < e.memberCount := by
  obtain ⟨suits, -⟩ := h
  unfold Extent.parityCount
  cases hk : e.kind <;> rw [hk] at suits <;> simp [ExtentKind.suits] at suits <;> dsimp only <;> omega

/-- A legal entry has its sizes in range. -/
theorem Extent.legal.sized {e : Extent} (h : e.legal) : e.sized := by
  obtain ⟨suits, strip, stripes, array, member, -⟩ := h
  exact ⟨suits, strip, stripes, array, member⟩

theorem Extent.parityCount_pos (e : Extent) : 0 < e.parityCount := by
  rw [e.parityCount_eq]
  split <;> omega

theorem Extent.pPosition_lt {e : Extent} (h : e.legal) (s : Nat) : e.pPosition s < e.memberCount := by
  have lt := h.parityCount_lt
  have pos := e.parityCount_pos
  unfold Extent.pPosition
  cases e.rotation
  · dsimp only
    omega
  · exact Nat.mod_lt _ (by omega)
  · exact Nat.mod_lt _ (by omega)

theorem Extent.qPosition_eq (e : Extent) (s : Nat) :
    e.qPosition s = if e.kind = .double then some ((e.pPosition s + 1) % e.memberCount) else none := by
  unfold Extent.qPosition
  cases e.kind <;> rfl

theorem Extent.lastParity_eq (e : Extent) (s : Nat) :
    e.lastParity s = if e.kind = .double then (e.pPosition s + 1) % e.memberCount else e.pPosition s := by
  rw [Extent.lastParity, e.qPosition_eq]
  split <;> rfl

theorem Extent.lastParity_lt {e : Extent} (h : e.legal) (s : Nat) : e.lastParity s < e.memberCount := by
  have lt := h.parityCount_lt
  rw [e.lastParity_eq]
  split
  · exact Nat.mod_lt _ (by omega)
  · exact Extent.pPosition_lt h s

theorem Extent.dataPosition_lt {e : Extent} (h : e.legal) (s j : Nat) : e.dataPosition s j < e.memberCount :=
  Nat.mod_lt _ (by have := h.parityCount_lt; omega)

theorem Extent.isParity_iff (e : Extent) (s p : Nat) :
    e.isParity s p = true ↔ p = e.pPosition s ∨ e.qPosition s = some p := by
  simp only [Extent.isParity, Bool.or_eq_true, beq_iff_eq]
  exact or_congr_right eq_comm

/-- The positions that hold no parity in a stripe have the data indices below k. -/
theorem Extent.index_lt {e : Extent} (h : e.legal) {s p : Nat} (lt : p < e.memberCount)
    (data : e.isParity s p = false) :
    (p + e.memberCount - e.lastParity s - 1) % e.memberCount < e.dataCount := by
  have hp := Extent.pPosition_lt h s
  have hL := Extent.lastParity_lt h s
  have hk := h.parityCount_lt
  have notParity : p ≠ e.pPosition s ∧ e.qPosition s ≠ some p := by
    rw [← not_or, ← e.isParity_iff, data]
    decide
  obtain ⟨notP, notQ⟩ := notParity
  rw [e.qPosition_eq] at notQ
  rw [e.lastParity_eq] at hL ⊢
  rw [Extent.dataCount]
  rw [e.parityCount_eq] at hk ⊢
  split at hL
  · rename_i double
    simp only [double, if_true, ne_eq, Option.some.injEq] at notQ hk ⊢
    by_cases inside : e.pPosition s + 1 < e.memberCount
    · rw [Nat.mod_eq_of_lt inside] at notQ hL ⊢
      rw [mod_of_lt_two_mul (by omega)]
      split <;> omega
    · have wraps : (e.pPosition s + 1) % e.memberCount = 0 := by
        rw [show e.pPosition s + 1 = e.memberCount by omega, Nat.mod_self]
      rw [wraps] at notQ ⊢
      rw [mod_of_lt_two_mul (by omega)]
      split <;> omega
  · rename_i other
    simp only [other, if_false] at hk ⊢
    rw [mod_of_lt_two_mul (by omega)]
    split <;> omega

/-- A position that holds no parity holds the data strip of its index, and no other. -/
theorem Extent.dataIndex_of_data {e : Extent} (h : e.legal) {s p : Nat} (lt : p < e.memberCount)
    (data : e.isParity s p = false) :
    ∃ j, j < e.dataCount ∧ e.dataIndex s p = some j ∧ e.dataPosition s j = p := by
  refine ⟨_, Extent.index_lt h lt data, ?_, rotate_index (Extent.lastParity_lt h s) lt⟩
  simp [Extent.dataIndex, data]

theorem Extent.dataCount_le (e : Extent) : e.dataCount ≤ e.memberCount := Nat.sub_le _ _

/-- Two data strips of a stripe lie at different positions. -/
theorem Extent.dataPosition_injective {e : Extent} (h : e.legal) {s i j : Nat} (hi : i < e.dataCount)
    (hj : j < e.dataCount) (same : e.dataPosition s i = e.dataPosition s j) : i = j := by
  have hL := Extent.lastParity_lt h s
  have le := e.dataCount_le
  have back := index_rotate hL (j := i) (by omega)
  rw [show (e.lastParity s + 1 + i) % e.memberCount = (e.lastParity s + 1 + j) % e.memberCount from same,
    index_rotate hL (by omega)] at back
  exact back.symm

/-- No data strip lies at a parity position. -/
theorem Extent.not_isParity_dataPosition {e : Extent} (h : e.legal) {s j : Nat} (hj : j < e.dataCount) :
    e.isParity s (e.dataPosition s j) = false := by
  have hp := Extent.pPosition_lt h s
  have hL := Extent.lastParity_lt h s
  have hk := h.parityCount_lt
  rw [← Bool.not_eq_true, e.isParity_iff]
  rw [Extent.dataPosition, e.qPosition_eq]
  rw [Extent.dataCount] at hj
  rw [e.parityCount_eq] at hk hj
  rw [e.lastParity_eq] at hL ⊢
  split at hL
  · rename_i double
    simp only [double, if_true, Option.some.injEq] at hk hj ⊢
    rw [mod_of_lt_two_mul (a := e.pPosition s + 1) (by omega)] at hL ⊢
    rw [mod_of_lt_two_mul (a := _ + 1 + j) (by omega)]
    split <;> split <;> omega
  · rename_i other
    simp only [other, if_false, reduceCtorEq, or_false] at hk hj ⊢
    rw [mod_of_lt_two_mul (a := _ + 1 + j) (by omega)]
    split <;> omega

/-- The data index of the position of a data strip is the strip. -/
theorem Extent.dataIndex_dataPosition {e : Extent} (h : e.legal) {s j : Nat} (hj : j < e.dataCount) :
    e.dataIndex s (e.dataPosition s j) = some j := by
  have le := e.dataCount_le
  simp only [Extent.dataIndex, Extent.not_isParity_dataPosition h hj, Bool.false_eq_true, if_false,
    Option.some.injEq]
  exact index_rotate (Extent.lastParity_lt h s) (by omega)

/-- The P position, with the modulus over the integers. -/
theorem Extent.pPosition_int {e : Extent} (h : e.legal) (s : Nat) :
    ((e.pPosition s : Nat) : Int) =
      match e.rotation with
      | .fixed => ((e.memberCount - e.parityCount : Nat) : Int)
      | .descending => (((e.memberCount - e.parityCount : Nat) : Int) - s) % e.memberCount
      | .ascending => (((e.memberCount - e.parityCount : Nat) : Int) + s) % e.memberCount := by
  have lt := h.parityCount_lt
  unfold Extent.pPosition
  cases e.rotation
  · rfl
  · have below : s % e.memberCount < e.memberCount := Nat.mod_lt _ (by omega)
    dsimp only
    rw [Int.natCast_emod, Nat.cast_sub (by omega), Nat.cast_add, Int.natCast_emod]
    rw [show ((e.memberCount - e.parityCount : Nat) : Int) + e.memberCount - (s : Int) % e.memberCount =
      ((e.memberCount - e.parityCount : Nat) : Int) - (s : Int) % e.memberCount + e.memberCount by ring,
      Int.add_emod_right, Int.sub_emod, Int.emod_emod, ← Int.sub_emod]
  · dsimp only
    push_cast
    rfl

/-- Settles O48: the places after the last parity position, wrapping, are a rotation of the stripe's positions whose last
ones are parity (`Extent.index_lt`). -/
theorem parityPlacement : Obligations.ParityPlacement := by
  intro e s legal n base
  have baseEq : base = n - e.parityCount := by
    rw [e.parityCount_eq]
    split <;> simp_all [base]
  have hk := legal.parityCount_lt
  refine ⟨?_, e.qPosition_eq s, fun j _ => ?_, ?_, fun p lt => ?_⟩
  · rw [baseEq]
    exact Extent.pPosition_int legal s
  · rw [Extent.dataPosition, e.lastParity_eq]
  · rw [← e.parityCount_eq, Extent.dataCount]
    omega
  · by_cases parity : e.isParity s p = true
    · have none : e.dataIndex s p = none := by simp [Extent.dataIndex, parity]
      rcases (e.isParity_iff s p).mp parity with isP | isQ
      · exact .inl ⟨isP, none⟩
      · by_cases isP : p = e.pPosition s
        · exact .inl ⟨isP, none⟩
        · exact .inr (.inl ⟨isP, isQ, none⟩)
    · obtain ⟨j, hj, index, place⟩ := Extent.dataIndex_of_data legal lt (Bool.not_eq_true _ ▸ parity)
      rw [e.isParity_iff, not_or] at parity
      exact .inr (.inr ⟨parity.1, parity.2, j, hj, index, place, fun i hi there =>
        Extent.dataPosition_injective legal hi hj (there.trans place.symm)⟩)

/-! ## Translation (R4, R5, R8) -/

/-- The place of a port in a list without repetition. -/
theorem Extent.positionOf_of_getElem {e : Extent} (nodup : e.targets.Nodup) {k : Nat} {p : PortId}
    (h : e.targets[k]? = some p) : e.positionOf p = some k := by
  obtain ⟨lt, rfl⟩ := List.getElem?_eq_some_iff.mp h
  refine List.findIdx?_eq_some_iff_getElem.mpr ⟨lt, by simp, fun j hj => ?_⟩
  simp only [beq_iff_eq]
  exact fun same => absurd ((nodup.getElem_inj_iff).mp same) (by omega)

/-- A member block at `b` of the strip of stripe `s`, where it lies in the extent, reverses to the block of its data
strip. -/
theorem Extent.reverse_of_index {e : Extent} {s b j p : Nat} (stripe : s < e.stripeCount) (within : b < e.stripSize)
    (index : e.dataIndex s p = some j) :
    e.reverse p (e.memberBase + s * e.stripSize + b) =
      some (e.arrayStart + s * e.stripeBlocks + j * e.stripSize + b) := by
  have span : (s + 1) * e.stripSize ≤ e.stripeCount * e.stripSize := Nat.mul_le_mul_right _ stripe
  rw [Nat.add_mul, Nat.one_mul] at span
  have offset : e.memberBase + s * e.stripSize + b - e.memberBase = b + s * e.stripSize := by omega
  have quotient : (b + s * e.stripSize) / e.stripSize = s := by
    rw [Nat.add_mul_div_right _ _ (by omega), Nat.div_eq_of_lt within, Nat.zero_add]
  have rest : (b + s * e.stripSize) % e.stripSize = b := by rw [Nat.add_mul_mod_self_right, Nat.mod_eq_of_lt within]
  unfold Extent.reverse Extent.memberLimit
  rw [if_neg (by omega)]
  simp only [offset, quotient, rest, index, Option.map_some]

/-- The row at block `b` of a strip of stripe `s` lies in that stripe, at offset `b / 16`. -/
theorem Extent.stripeOf_row {e : Extent} {s b : Nat} (within : b / 16 < e.rowsPerStripe) :
    e.stripeOf (s * e.rowsPerStripe + b / 16) = s ∧ e.rowOffset (s * e.rowsPerStripe + b / 16) = b / 16 := by
  constructor
  · rw [Extent.stripeOf, Nat.add_comm, Nat.add_mul_div_right _ _ (by omega), Nat.div_eq_of_lt within, Nat.zero_add]
  · rw [Extent.rowOffset, Nat.add_comm, Nat.add_mul_mod_self_right, Nat.mod_eq_of_lt within]

/-- A strip of a legal extent is cut into whole rows. -/
theorem Extent.sized.row_within {e : Extent} (h : e.sized) {b : Nat} (within : b < e.stripSize) :
    b / 16 < e.rowsPerStripe := by
  obtain ⟨-, strip, -⟩ := h
  unfold Extent.rowsPerStripe
  omega

/-- The digits of a block of the array range: its stripe, data strip and block in the strip. -/
theorem Extent.exists_digits {e : Extent} (h : e.sized) {a : Nat} (low : e.arrayStart ≤ a) (high : a ≤ e.arrayLimit) :
    ∃ s j b, s < e.stripeCount ∧ j < e.dataCount ∧ b < e.stripSize ∧
      (a - e.arrayStart) / e.stripeBlocks = s ∧ (a - e.arrayStart) % e.stripeBlocks / e.stripSize = j ∧
      (a - e.arrayStart) % e.stripeBlocks % e.stripSize = b ∧
      e.arrayStart + s * e.stripeBlocks + j * e.stripSize + b = a := by
  obtain ⟨stripeBlocks, stripSize, -, -, stripeCount⟩ := h.pos
  have total : 0 < e.stripeCount * e.stripeBlocks := Nat.mul_pos stripeCount stripeBlocks
  refine ⟨_, _, _, Nat.div_lt_of_lt_mul ?_, Nat.div_lt_of_lt_mul ?_, Nat.mod_lt _ stripSize, rfl, rfl, rfl, ?_⟩
  · rw [Nat.mul_comm]
    unfold Extent.arrayLimit at high
    omega
  · rw [Nat.mul_comm]
    exact Nat.mod_lt _ stripeBlocks
  · have outer := Nat.div_add_mod' (a - e.arrayStart) e.stripeBlocks
    have inner := Nat.div_add_mod' ((a - e.arrayStart) % e.stripeBlocks) e.stripSize
    omega

/-- Settles O49: the stripe, strip and block of an array block are its digits, from which the row geometry and reverse
translation put it together again. -/
theorem translationRoundTrip : Obligations.TranslationRoundTrip := by
  intro s x a legal e k sb
  replace legal : e.legal := legal
  refine ⟨fun outside => if_pos outside, fun low high => ?_, fun p b outside => ?_⟩
  · obtain ⟨stripe, j, b, hs, hj, hb, stripeEq, indexEq, blockEq, digits⟩ := Extent.exists_digits legal.sized low high
    have inRow := legal.sized.row_within hb
    obtain ⟨rowStripe, rowOffset⟩ := Extent.stripeOf_row (s := stripe) inRow
    have rowEnd : (stripe + 1) * e.rowsPerStripe ≤ e.rows := Nat.mul_le_mul_right _ hs
    have stripEnd : (stripe + 1) * e.stripSize ≤ e.stripeCount * e.stripSize := Nat.mul_le_mul_right _ hs
    rw [Nat.add_mul, Nat.one_mul] at rowEnd stripEnd
    obtain ⟨-, -, -, -, -, -, length, nodup⟩ := id legal
    obtain ⟨p, hp⟩ : ∃ p, e.targets[e.dataPosition stripe j]? = some p :=
      ⟨_, List.getElem?_eq_getElem (by rw [length]; exact Extent.dataPosition_lt legal stripe j)⟩
    refine ⟨{ stripe := stripe, dataIndex := j, blockInStrip := b, row := stripe * e.rowsPerStripe + b / 16,
              blockOffset := b % 16, position := e.dataPosition stripe j, port := some p,
              memberBlock := e.memberBase + stripe * e.stripSize + b }, p, ?_, stripeEq.symm, indexEq.symm,
      blockEq.symm, rfl, rfl, rfl, rfl, hp, rfl, hj, ?_, ?_, ?_, ?_, ?_⟩
    · rw [Extent.translate, if_neg (by omega)]
      simp only [stripeEq, indexEq, blockEq, hp]
    · dsimp only
      omega
    · unfold Extent.memberLimit
      dsimp only
      omega
    · simp only [Extent.memberBlock, rowStripe, rowOffset]
      omega
    · simp only [Extent.arrayBlock, rowStripe, rowOffset]
      omega
    · have reverse := Extent.reverse_of_index hs hb (Extent.dataIndex_dataPosition legal hj)
      rw [digits] at reverse
      have position : (s.extent x).positionOf p = some (e.dataPosition stripe j) :=
        Extent.positionOf_of_getElem nodup hp
      rw [State.reverseTranslate, position]
      exact reverse
  · unfold Extent.reverse
    split
    · rfl
    · have parity : e.isParity ((b - e.memberBase) / e.stripSize) p = true := by tauto
      simp [Extent.dataIndex, parity]

end Sys2Proof.Machine
end

section
/-! SUPPORT and O16: what a DEFINE asks for, and its checks. -/

namespace Sys2Proof.Machine

/-! ## Numbers and codes -/

theorem numberOf_val {n : Nat} (i : Fin n) : numberOf n i.val = some i := by simp [numberOf]

theorem numberOf_eq_some {n v : Nat} {i : Fin n} (h : numberOf n v = some i) : i.val = v := by
  unfold numberOf at h
  split at h
  · cases h
    rfl
  · cases h

theorem numberOf_eq_none {n v : Nat} (h : n ≤ v) : numberOf n v = none := dif_neg (by omega)

/-- A list of numbers below `n` is the list of values of one list of `Fin n`. -/
theorem mapM_numberOf {n : Nat} {l : List Nat} {t : List (Fin n)} :
    l.mapM (numberOf n) = some t ↔ t.map Fin.val = l := by
  constructor
  · intro h
    induction l generalizing t with
    | nil =>
      cases h
      rfl
    | cons v rest ih =>
      simp only [List.mapM_cons, Option.bind_eq_bind, Option.bind_eq_some_iff, Option.pure_def, Option.some.injEq] at h
      obtain ⟨i, hi, t', ht, rfl⟩ := h
      rw [List.map_cons, numberOf_eq_some hi, ih ht]
  · rintro rfl
    induction t with
    | nil => rfl
    | cons i rest ih => simp [List.mapM_cons, numberOf_val, ih]

theorem ExtentKind.ofCode_eq_some {c : Nat} {k : ExtentKind} : ExtentKind.ofCode c = some k ↔ k.code = c := by
  constructor
  · intro h
    unfold ExtentKind.ofCode at h
    split at h <;> cases h <;> rfl
  · rintro rfl
    cases k <;> rfl

theorem Rotation.ofCode_eq_some {c : Nat} {r : Rotation} : Rotation.ofCode c = some r ↔ r.code = c := by
  constructor
  · intro h
    unfold Rotation.ofCode at h
    split at h <;> cases h <;> rfl
  · rintro rfl
    cases r <;> rfl

/-! ## The entry that a DEFINE asks for -/

/-- `e` is the entry that the fields spell, its condition still to be computed. -/
structure DefineFields.Describes (f : DefineFields) (e : Extent) : Prop where
  condition : e.condition = .unused
  kind : e.kind.code = f.kind
  memberCount : e.memberCount = f.memberCount
  stripSize : e.stripSize = f.stripSize
  arrayStart : e.arrayStart = f.arrayStart
  stripeCount : e.stripeCount = f.stripeCount
  memberBase : e.memberBase = f.memberBase
  rotation : e.rotation.code = f.rotation
  targets : e.targets.map Fin.val = f.ports.take f.memberCount

/-- The ranges of R1 for an entry, its target list apart from its length. -/
def Extent.inRanges (e : Extent) : Prop :=
  e.sized ∧ (e.kind = .mirror → e.rotation = .fixed) ∧ e.targets.Nodup

/-- A slip's fields give an entry exactly where they spell one in the ranges of R1. -/
theorem DefineFields.entry_eq_some {f : DefineFields} {e : Extent} :
    f.entry = some e ↔ f.Describes e ∧ e.inRanges := by
  have checks : ∀ e : Extent, (e.kind.suits e.memberCount && (e.stripSize == 16 || e.stripSize == 32 || e.stripSize == 64) &&
      decide (1 ≤ e.stripeCount) && decide (e.stripeCount ≤ Config.maxCount) &&
      decide (e.arrayLimit < Config.blockSpace) && decide (e.memberLimit < Config.blockSpace) &&
      (e.kind != .mirror || e.rotation == .fixed) && decide e.targets.Nodup) = true ↔ e.inRanges := fun e => by
    simp only [Extent.inRanges, Extent.sized, Bool.and_eq_true, Bool.or_eq_true, decide_eq_true_eq, beq_iff_eq,
      bne_iff_ne, ne_eq, ← imp_iff_not_or]
    tauto
  unfold DefineFields.entry
  constructor
  · intro h
    split at h
    · rename_i kind rotation targets hk hr ht
      dsimp only at h
      split at h
      · rename_i passed
        cases h
        exact ⟨⟨rfl, ExtentKind.ofCode_eq_some.mp hk, rfl, rfl, rfl, rfl, rfl, Rotation.ofCode_eq_some.mp hr,
          mapM_numberOf.mp ht⟩, (checks _).mp passed⟩
      · cases h
    · cases h
  · rintro ⟨spelt, ranges⟩
    have passed := (checks e).mpr ranges
    obtain ⟨condition, kind, memberCount, stripSize, arrayStart, stripeCount, memberBase, rotation, targets⟩ := spelt
    rw [ExtentKind.ofCode_eq_some.mpr kind, Rotation.ofCode_eq_some.mpr rotation, mapM_numberOf.mpr targets]
    dsimp only
    rw [← memberCount, ← stripSize, ← arrayStart, ← stripeCount, ← memberBase, ← condition]
    exact if_pos passed

/-- The fields of a DEFINE lie in the ranges of R1, as O16 writes them. -/
def DefineFields.InRange (f : DefineFields) : Prop :=
  let n := f.memberCount
  let k := n - if f.kind = 2 then 2 else 1
  ((f.kind = 0 ∧ n = 2) ∨ (f.kind = 1 ∧ 3 ≤ n ∧ n ≤ 16) ∨ (f.kind = 2 ∧ 4 ≤ n ∧ n ≤ 16)) ∧
    (f.stripSize = 16 ∨ f.stripSize = 32 ∨ f.stripSize = 64) ∧ 1 ≤ f.stripeCount ∧ f.stripeCount < 2 ^ 32 ∧
    f.arrayStart + f.stripeCount * (k * f.stripSize) - 1 < 2 ^ 40 ∧
    f.memberBase + f.stripeCount * f.stripSize - 1 < 2 ^ 40 ∧ f.rotation ≤ 2 ∧ (f.kind = 0 → f.rotation = 0) ∧
    (∀ q ∈ f.ports.take n, q < 16) ∧ (f.ports.take n).Nodup

/-- An entry that the fields spell is in the ranges exactly where the fields are. -/
theorem DefineFields.Describes.inRanges_iff {f : DefineFields} {e : Extent} (h : f.Describes e) :
    e.inRanges ↔ f.InRange := by
  obtain ⟨-, kind, memberCount, stripSize, arrayStart, stripeCount, memberBase, rotation, targets⟩ := h
  have ports : (∀ q ∈ f.ports.take f.memberCount, q < 16) := by
    rw [← targets]
    simp
  have nodup : e.targets.Nodup ↔ (f.ports.take f.memberCount).Nodup := by
    rw [← targets, List.nodup_map_iff Fin.val_injective]
  have count : e.stripeCount ≤ Config.maxCount ↔ f.stripeCount < 2 ^ 32 := by
    rw [stripeCount, Config.maxCount]
    omega
  have suits : e.kind.suits e.memberCount = true ↔ ((f.kind = 0 ∧ f.memberCount = 2) ∨
      (f.kind = 1 ∧ 3 ≤ f.memberCount ∧ f.memberCount ≤ 16) ∨
      (f.kind = 2 ∧ 4 ≤ f.memberCount ∧ f.memberCount ≤ 16)) := by
    rw [← kind, memberCount]
    cases e.kind <;> simp [ExtentKind.suits, ExtentKind.code]
  have data : e.dataCount = f.memberCount - if f.kind = 2 then 2 else 1 := by
    rw [Extent.dataCount, e.parityCount_eq, memberCount, ← kind]
    cases e.kind <;> rfl
  have fixed : (e.kind = .mirror → e.rotation = .fixed) ↔ (f.kind = 0 → f.rotation = 0) := by
    rw [← kind, ← rotation]
    cases e.kind <;> cases e.rotation <;> simp [ExtentKind.code, Rotation.code]
  have turned : f.rotation ≤ 2 := by
    rw [← rotation]
    cases e.rotation <;> decide
  unfold Extent.inRanges Extent.sized DefineFields.InRange Extent.arrayLimit Extent.memberLimit Extent.stripeBlocks
  rw [suits, count, fixed, nodup, data, stripSize, arrayStart, stripeCount, memberBase,
    show Config.blockSpace = 2 ^ 40 from rfl]
  exact ⟨fun ⟨⟨sizes, strip, ⟨low, high⟩, array, member⟩, mirror, apart⟩ =>
      ⟨sizes, strip, low, high, array, member, turned, mirror, ports, apart⟩,
    fun ⟨sizes, strip, low, high, array, member, _, mirror, _, apart⟩ =>
      ⟨⟨sizes, strip, ⟨low, high⟩, array, member⟩, mirror, apart⟩⟩

/-- Fields in the ranges of R1 spell an entry. -/
theorem DefineFields.InRange.exists_describes {f : DefineFields} (h : f.InRange) : ∃ e, f.Describes e := by
  obtain ⟨kinds, -, -, -, -, -, turned, -, ports, -⟩ := h
  obtain ⟨kind, hk⟩ : ∃ k : ExtentKind, k.code = f.kind := by
    rcases kinds with ⟨is, -⟩ | ⟨is, -⟩ | ⟨is, -⟩
    · exact ⟨.mirror, is.symm⟩
    · exact ⟨.single, is.symm⟩
    · exact ⟨.double, is.symm⟩
  obtain ⟨rotation, hr⟩ : ∃ r : Rotation, r.code = f.rotation := by
    rcases (by omega : f.rotation = 0 ∨ f.rotation = 1 ∨ f.rotation = 2) with is | is | is
    · exact ⟨.fixed, is.symm⟩
    · exact ⟨.descending, is.symm⟩
    · exact ⟨.ascending, is.symm⟩
  obtain ⟨targets, ht⟩ : ∃ t : List PortId, t.map Fin.val = f.ports.take f.memberCount := CanLift.prf _ ports
  exact ⟨⟨.unused, kind, f.memberCount, f.stripSize, f.arrayStart, f.stripeCount, f.memberBase, rotation, targets⟩,
    rfl, hk, rfl, rfl, rfl, rfl, rfl, hr, ht⟩

/-- The entry that a slip asks for is legal. -/
theorem DefineFields.legal_of_entry {body : SlipBody} {e : Extent} (h : (defineFields body).entry = some e) :
    e.legal := by
  obtain ⟨spelt, sized, fixed, nodup⟩ := DefineFields.entry_eq_some.mp h
  obtain ⟨suits, strip, stripes, array, member⟩ := sized
  refine ⟨suits, strip, stripes, array, member, fixed, ?_, nodup⟩
  have small : e.memberCount ≤ 16 := by
    cases hk : e.kind <;> rw [hk] at suits <;> simp [ExtentKind.suits] at suits <;> omega
  have length := congrArg List.length spelt.targets
  rw [spelt.memberCount] at small ⊢
  rw [List.length_map, List.length_take] at length
  have listed : (defineFields body).ports.length = 16 := by simp [defineFields]
  omega

/-! ## The checks (R14) -/

/-- Some other entry in use shares an array block with `e`. -/
def State.SharesBlock (s : State) (i : ExtentId) (e : Extent) : Prop :=
  ∃ x : ExtentId, x ≠ i ∧ (s.extent x).condition ≠ .unused ∧ ∃ block,
    (e.arrayStart ≤ block ∧ block ≤ e.arrayLimit) ∧ (s.extent x).arrayStart ≤ block ∧ block ≤ (s.extent x).arrayLimit

theorem Extent.inUse_iff (e : Extent) : e.inUse = true ↔ e.condition ≠ .unused := by simp [Extent.inUse]

theorem State.overlapsOther_iff (s : State) (i : ExtentId) (e : Extent) :
    s.overlapsOther i e = true ↔ ∃ x : ExtentId, x ≠ i ∧ (s.extent x).condition ≠ .unused ∧
      (s.extent x).arrayStart ≤ e.arrayLimit ∧ e.arrayStart ≤ (s.extent x).arrayLimit := by
  simp only [State.overlapsOther, List.any_eq_true, mem_bankIndices, true_and, Bool.and_eq_true, bne_iff_ne,
    Extent.inUse_iff, Extent.overlaps, decide_eq_true_eq, and_assoc]

theorem State.overlapsOther_of_shares {s : State} {i : ExtentId} {e : Extent} (h : s.SharesBlock i e) :
    s.overlapsOther i e = true := by
  obtain ⟨x, other, used, block, ⟨low, high⟩, low', high'⟩ := h
  exact (s.overlapsOther_iff i e).mpr ⟨x, other, used, by omega, by omega⟩

/-- An extent in use has a block. -/
theorem Extent.sized.start_le {e : Extent} (h : e.sized) : e.arrayStart ≤ e.arrayLimit := by
  obtain ⟨stripe, -, -, -, stripes⟩ := h.pos
  have := Nat.mul_pos stripes stripe
  unfold Extent.arrayLimit
  omega

theorem State.MapLegal.shares_of_overlapsOther {s : State} (map : s.MapLegal) {i : ExtentId} {e : Extent}
    (sized : e.sized) (h : s.overlapsOther i e = true) : s.SharesBlock i e := by
  obtain ⟨x, other, used, high, low⟩ := (s.overlapsOther_iff i e).mp h
  have mine := sized.start_le
  have its := (map.sized ((Extent.inUse_iff _).mpr used)).start_le
  exact ⟨x, other, used, max e.arrayStart (s.extent x).arrayStart, by omega, by omega, by omega⟩

/-- A port that R14 bars from a new target list. -/
def State.Barred (s : State) (p : PortId) : Prop :=
  (∃ x : ExtentId, (s.extent x).condition ≠ .unused ∧ p ∈ (s.extent x).targets) ∨
    (s.port p).memberState = .target ∨ (s.port p).memberState = .released

theorem State.extentOfPort_isSome {s : State} {p : PortId} {x : ExtentId} (used : (s.extent x).condition ≠ .unused)
    (mem : p ∈ (s.extent x).targets) : (s.extentOfPort p).isSome = true := by
  refine List.find?_isSome.mpr ⟨x, mem_bankIndices x, ?_⟩
  simp [(Extent.inUse_iff _).mpr used, mem]

theorem State.conflicts_of_barred {s : State} {p : PortId} (h : s.Barred p) : s.conflicts p = true := by
  simp only [State.conflicts, Bool.or_eq_true, beq_iff_eq]
  rcases h with ⟨x, used, mem⟩ | target | released
  · exact .inl (.inl (State.extentOfPort_isSome used mem))
  · exact .inl (.inr target)
  · exact .inr released

theorem State.conflicts_eq_false {s : State} {p : PortId} (free : s.extentOfPort p = none) (h : ¬ s.Barred p) :
    s.conflicts p = false := by
  unfold State.Barred at h
  simp only [not_or] at h
  simp [State.conflicts, free, h.2.1, h.2.2]

/-- Settles O16: the checks are made in the order of R14 on the entry that the fields spell. -/
theorem defineChecks : Obligations.DefineChecks := by
  intro s i body f n k inRange shares conflicts
  refine ⟨fun used => if_pos ((Extent.inUse_iff _).mpr used), fun unused out => ?_, fun unused ranges map => ?_,
    fun e ok => ?_⟩
  · have free : (s.extent i).inUse = false := by simp [Extent.inUse, unused]
    have none : f.entry = none := Option.eq_none_iff_forall_not_mem.mpr fun e he =>
      out (DefineFields.entry_eq_some.mp he |>.elim fun spelt ranges => spelt.inRanges_iff.mp ranges)
    simp [State.checkDefine, free, none]
  · have free : (s.extent i).inUse = false := by simp [Extent.inUse, unused]
    have ranges : f.InRange := ranges
    obtain ⟨e, spelt⟩ := ranges.exists_describes
    have good := spelt.inRanges_iff.mpr ranges
    have entry := DefineFields.entry_eq_some.mpr ⟨spelt, good⟩
    refine ⟨e, spelt.condition, spelt.kind, spelt.memberCount, spelt.stripSize, spelt.arrayStart, spelt.stripeCount,
      spelt.memberBase, spelt.rotation, spelt.targets, fun shared => ?_, fun apart barred => ?_, fun apart clear => ?_⟩
    · simp [State.checkDefine, free, entry, State.overlapsOther_of_shares shared]
    · have noOverlap : s.overlapsOther i e = false :=
        Bool.eq_false_iff.mpr fun o => apart (map.shares_of_overlapsOther good.1 o)
      obtain ⟨p, mem, bar⟩ := barred
      have conflict : e.targets.any s.conflicts = true :=
        List.any_eq_true.mpr ⟨p, mem, State.conflicts_of_barred bar⟩
      simp only [State.checkDefine, free, entry, noOverlap, conflict, Bool.false_eq_true, if_false, if_true]
    · have noOverlap : s.overlapsOther i e = false :=
        Bool.eq_false_iff.mpr fun o => apart (map.shares_of_overlapsOther good.1 o)
      have noConflict : e.targets.any s.conflicts = false := List.any_eq_false.mpr fun p mem => by
        simp [State.conflicts_eq_false (clear p mem).1 (clear p mem).2]
      simp only [State.checkDefine, free, entry, noOverlap, noConflict, Bool.false_eq_true, if_false]
  · unfold State.checkDefine at ok
    split at ok
    · cases ok
    · rename_i free
      split at ok
      · cases ok
      · rename_i entry
        split at ok
        · cases ok
        · rename_i noOverlap
          split at ok
          · cases ok
          · rename_i noConflict
            cases ok
            refine ⟨by simpa [Extent.inUse] using free, DefineFields.legal_of_entry entry,
              fun shared => noOverlap (State.overlapsOther_of_shares shared), fun p mem bar => noConflict ?_⟩
            exact List.any_eq_true.mpr ⟨p, mem, State.conflicts_of_barred bar⟩

end Sys2Proof.Machine
end

section
/-! O25, refuted. `JobCompletes` asks that a target that has failed meanwhile keep its whole port record. Where its
entering the list makes the extent LOST, the rows that run on the extent withdraw what they have pending (R63), at every
port: a request of theirs that is pending at the failed target leaves its list. No hypothesis of the statement excludes
such a request (in a run the failure itself has ended every request of the port, R35). -/

namespace Sys2Proof.Machine

/-- A READ of context 0, pending at the failed target. -/
def pendingRead : Request :=
  { kind := .read, cls := .foreground, owner := some 0, position := 0, offset := 0, memberBlock := 0, count := 1,
    repair := false }

/-- A MIRROR of ports 0 and 1, port 1 FAILED, and a READ_ROW on it in GATHER. Job 0 has brought position 0 to port 2, its
last row has ended, and port 2 is FAILED with a request of the READ_ROW pending. -/
def losingCompletion : State :=
  let s := State.reset.withExtent 0 fun _ =>
    { condition := .exposed, kind := .mirror, memberCount := 2, stripSize := 16, arrayStart := 0, stripeCount := 1,
      memberBase := 0, rotation := .fixed, targets := [0, 1] }
  let s := s.withPort 0 fun x => { x with memberState := .online }
  let s := s.withPort 1 fun x => { x with memberState := .failed }
  let s := s.withPort 2 fun x => { x with memberState := .failed, waiting := [pendingRead] }
  let s := s.withJob 0 fun j => { j with state := .running, sources := [{ position := 0, target := 2 }] }
  let read : RowRequest :=
    { kind := .readRow, owner := .slip 0 0, extent := 0, row := 0, requested := [], countedBy := none }
  s.setContext 0 (some { read.operation with phase := .gather })

/-- The completion makes the extent LOST, and the READ_ROW's request leaves the failed target's pending list. -/
theorem losingCompletion_withdraws :
    ((losingCompletion.completeJob 0).extent 0).condition = .lost ∧
      ((losingCompletion.completeJob 0).port 2).waiting = [] := by decide +kernel

/-- Refutes O25: in `losingCompletion` the failed target does not keep its pending list. -/
theorem not_jobCompletes : ¬ Obligations.JobCompletes := by
  intro h
  obtain ⟨t, run, -, -, -, -, -, -, -, -, -, -, -, targets, -⟩ := h losingCompletion 0 rfl (.inl rfl) rfl rfl (by decide)
    (by decide +kernel) (by decide +kernel) (fun q none => nomatch none)
  have completes : (losingCompletion.job 0).completes = true := by decide +kernel
  have due : exec (.jobCompletion 0) losingCompletion = (losingCompletion.completeJob 0).done := by
    show execJobCompletion 0 losingCompletion = _
    rw [execJobCompletion, if_pos completes]
  obtain rfl : (losingCompletion.completeJob 0).settle = t := by
    rw [due] at run
    injection run
  have kept := congrArg Port.waiting (targets { position := 0, target := 2 } (by decide +kernel))
  rw [State.settle_port, losingCompletion_withdraws.2] at kept
  exact absurd kept (by decide +kernel)

end Sys2Proof.Machine
end

section
/-! SUPPORT. A slip answered in the step that reads it, and a change of member state that no extent's condition depends
on. -/

namespace Sys2Proof.Machine

/-! ## A slip answered at once -/

/-- A board that differs from the one after the slip read in the answer `a` at its queue's tail and the publish asked for
has answered the slip at once. -/
theorem State.answersAtOnce_settle {s v : State} {run : SweepRun} {tag : BitVec 64} {a : Answer}
    (board : v.board = { (s.afterTake run tag).board with
      answers := s.board.answers ++ [a], publishAsked := v.board.publishAsked }) :
    s.AnswersAtOnce v.settle run tag a := by
  refine ⟨State.dispatched_of_afterTake ?_ ?_ ?_ ?_ ?_, ?_, ?_, State.answerBegins_settle ?_⟩
  · rw [State.settle_taken, board]
  · rw [State.settle_sweep, board]
  · rw [State.settle_sweepPending, board]
  · rw [State.settle_roundPointer, board]
    rfl
  · rw [State.settle_deferred, board]
    rfl
  · rw [State.Answers, State.settle_answers, board]
  · simp only [State.SameRegisters, State.settle_base, State.settle_generation, State.settle_engine,
      State.settle_quiesced, State.settle_causes, State.settle_enables, State.settle_resetKind, State.settle_clean,
      State.settle_abandoned, State.settle_slipsWritten, State.settle_pagesWritten, State.settle_cuts]
    rw [board]
    exact ⟨rfl, rfl, rfl, rfl, rfl, rfl, rfl, rfl, rfl, rfl, rfl, rfl⟩
  · rw [board]
    rfl

/-- Jobs that are the same agree. -/
theorem State.SameJobs.of_eq {s t : State} (h : t.jobs = s.jobs) : s.SameJobs t := fun j => by
  rw [State.job, State.job, h]
  rfl

/-- A slip refused in the step that reads it. -/
theorem State.refuses_settle {s : State} {run : SweepRun} {tag : BitVec 64} (rest : s.AtRest) (reason : Reason) :
    s.Refuses ((s.afterTake run tag).refuse run.slip reason).settle run tag reason := by
  refine ⟨State.answersAtOnce_settle rfl, ⟨⟨?_, ?_, ?_⟩, ⟨?_, ?_, ?_, ?_⟩, ⟨?_, ?_, ?_⟩,
    State.sameJobs_settle (.of_eq rfl), ?_⟩, State.silent_settle rest rfl rfl fun _ => rfl⟩
  all_goals simp [State.afterTake]

/-- What a command that refuses its slip does. -/
theorem State.done_refuses {s : State} {run : SweepRun} {tag : BitVec 64} (rest : s.AtRest) (reason : Reason) :
    ∃ t : State, ((s.afterTake run tag).refuse run.slip reason).done = .next t ∧ s.Refuses t run tag reason :=
  ⟨_, rfl, State.refuses_settle rest reason⟩

/-! ## Changes at the ports alone -/

/-- From `s` to `t` nothing has changed but the ports, the operations in contexts and the mark of a publish asked for. -/
def State.MovesPorts (s t : State) : Prop :=
  t = { s with
    ports := t.ports
    rows := { s.rows with contexts := t.rows.contexts }
    board := { s.board with publishAsked := t.board.publishAsked } }

namespace State.MovesPorts

theorem refl (s : State) : s.MovesPorts s := rfl

theorem trans {s t u : State} (a : s.MovesPorts t) (b : t.MovesPorts u) : s.MovesPorts u := by
  unfold State.MovesPorts at *
  rw [a] at b
  exact b

theorem foldl {α : Type} {f : State → α → State} (h : ∀ (s : State) (x : α), s.MovesPorts (f s x)) (l : List α)
    (s : State) : s.MovesPorts (l.foldl f s) := by
  induction l generalizing s with
  | nil => exact refl s
  | cons x rest ih => exact (h s x).trans (ih _)

variable {s t : State} (h : s.MovesPorts t)
include h

theorem extents : t.extents = s.extents := by rw [h]
theorem extent (x : ExtentId) : t.extent x = s.extent x := by rw [State.extent, h.extents, State.extent]
theorem jobs : t.jobs = s.jobs := by rw [h]
theorem unsettled : t.rows.unsettled = s.rows.unsettled := by rw [h]
theorem solver : t.solver = s.solver := by rw [h]
theorem holds : t.holds = s.holds := by rw [h]
theorem requests : t.requests = s.requests := by rw [h]
theorem losses : t.losses = s.losses := by rw [h]
theorem settings : t.settings = s.settings := by rw [h]
theorem time : t.time = s.time := by rw [h]
theorem guard : t.guard = s.guard := by rw [h]
theorem pending : t.pending = s.pending := by rw [h]
theorem board : t.board = { s.board with publishAsked := t.board.publishAsked } := congrArg State.board h

end State.MovesPorts

theorem State.movesPorts_deliverFailure (s : State) (p : PortId) (r : Request) (ending : Ending) :
    s.MovesPorts (s.deliverFailure p r ending) := by
  unfold State.deliverFailure
  split
  · rfl
  · split <;> rfl

/-- A failure delivered to its owner changes no port. -/
theorem State.deliverFailure_ports (s : State) (p : PortId) (r : Request) (ending : Ending) :
    (s.deliverFailure p r ending).ports = s.ports := by
  unfold State.deliverFailure
  split
  · rfl
  · split <;> rfl

theorem State.deliverFailures_port (p q : PortId) (ending : Ending) (l : List Request) (s : State) :
    (l.foldl (fun s r => s.deliverFailure p r ending) s).port q = s.port q := by
  induction l generalizing s with
  | nil => rfl
  | cons r rest ih =>
    rw [List.foldl_cons, ih, State.port, State.deliverFailure_ports, State.port]

/-! ## A change of member state -/

/-- A change of member state before it is reported (R22, R23). -/
def State.moveMember (s : State) (p : PortId) (new : MemberState) : State :=
  let moved := s.withPort p fun x =>
    if new.carries then { x with memberState := new } else { x.clearFlags with memberState := new }
  if (s.port p).memberState.carries && (new == .spare || new == .released) then
    (moved.port p).waiting.foldl (fun s r => s.deliverFailure p r .linkLost)
      (moved.withPort p fun x => { x with waiting := [] })
  else moved

theorem State.changeMember_eq (s : State) (p : PortId) (new : MemberState) :
    s.changeMember p new = (s.moveMember p new).reportMember p := rfl

theorem State.movesPorts_moveMember (s : State) (p : PortId) (new : MemberState) :
    s.MovesPorts (s.moveMember p new) := by
  unfold State.moveMember
  dsimp only
  split
  · exact State.MovesPorts.trans (t := (s.withPort p _).withPort p _) rfl
      (.foldl (fun s r => s.movesPorts_deliverFailure p r .linkLost) _ _)
  · rfl

/-- A port that changes to a state with flags keeps the rest of its record. -/
theorem State.port_moveMember_of_carries (s : State) (p q : PortId) {new : MemberState} (carries : new.carries = true) :
    (s.moveMember p new).port q = if p = q then { s.port q with memberState := new } else s.port q := by
  have stays : (new == .spare || new == .released) = false := by cases new <;> first | rfl | cases carries
  unfold State.moveMember
  simp only [stays, Bool.and_false, Bool.false_eq_true, if_false, State.port_withPort, carries, if_true]

/-- A port that leaves ONLINE or TARGET for SPARE or RELEASED loses its flags and what it has pending. -/
theorem State.port_moveMember_of_leaves (s : State) (p q : PortId) {new : MemberState}
    (old : (s.port p).memberState.carries = true) (leaves : new = .spare ∨ new = .released) :
    (s.moveMember p new).port q =
      if p = q then { (s.port q).clearFlags with memberState := new, waiting := [] } else s.port q := by
  have bare : new.carries = false := by rcases leaves with rfl | rfl <;> rfl
  have left : (new == .spare || new == .released) = true := by rcases leaves with rfl | rfl <;> rfl
  unfold State.moveMember
  dsimp only
  rw [old, left, Bool.and_self, if_pos rfl, State.deliverFailures_port, State.port_withPort, State.port_withPort]
  split
  · rw [bare]
    rfl
  · rfl

/-! ## Conditions (R9) -/

/-- R9 counts the FAILED and ABSENT ports of the list, and compares with the parity of the kind. -/
theorem State.conditionOf_congr {s t : State} {x : ExtentId} (targets : (t.extent x).targets = (s.extent x).targets)
    (kind : (t.extent x).kind = (s.extent x).kind)
    (lost : ∀ q ∈ (s.extent x).targets, ((t.port q).memberState == .failed || (t.port q).memberState == .absent) =
      ((s.port q).memberState == .failed || (s.port q).memberState == .absent)) :
    t.conditionOf x = s.conditionOf x := by
  have count : t.lostPositions x = s.lostPositions x := by
    rw [State.lostPositions, State.lostPositions, targets, List.filter_congr lost]
  have parity : (t.extent x).parityCount = (s.extent x).parityCount := by
    rw [Extent.parityCount, Extent.parityCount, kind]
  rw [State.conditionOf, State.conditionOf, count, parity]

/-- The extent of a port is told by the layout map and the jobs. -/
theorem State.extentOfPort_congr {s t : State} (extents : t.extents = s.extents) (jobs : t.jobs = s.jobs) :
    t.extentOfPort = s.extentOfPort := by
  funext p
  simp only [State.extentOfPort, State.extent, extents, State.completesOnto, State.jobOn, State.job, jobs]

/-- A change of member state to one other than FAILED, at a port whose extent, if it has one, has the condition of R9
after it: the change is reported, and nothing comes of it. -/
theorem State.reportMember_quiet {s : State} {p : PortId} (alive : (s.port p).memberState ≠ .failed)
    (settled : ∀ x, s.extentOfPort p = some x → (s.extent x).condition = s.conditionOf x) :
    s.reportMember p = s.askPublish.wake p := by
  have unmoved : ∀ x, s.extentOfPort p = some x → (s.askPublish.wake p).recompute x = s.askPublish.wake p := by
    intro x hx
    have same : (s.askPublish.wake p).conditionOf x = ((s.askPublish.wake p).extent x).condition := (settled x hx).symm
    unfold State.recompute
    split
    · exact if_pos same
    · rfl
  unfold State.reportMember
  dsimp only
  rw [if_neg (c := ((s.askPublish.wake p).port p).memberState = .failed) alive]
  show (match s.extentOfPort p with
    | some e => (s.askPublish.wake p).recompute e
    | none => s.askPublish.wake p) = _
  cases hx : s.extentOfPort p with
  | none => rfl
  | some x => exact unmoved x hx

/-- What a change of member state does that no condition depends on: the ports are those of the move, and nothing else
changes but operations that wake or lose a request. -/
theorem State.changeMember_quiet {s : State} {p : PortId} {new : MemberState}
    (alive : ((s.moveMember p new).port p).memberState ≠ .failed)
    (settled : ∀ x, s.extentOfPort p = some x → (s.extent x).condition = (s.moveMember p new).conditionOf x) :
    s.MovesPorts (s.changeMember p new) ∧ ∀ q, (s.changeMember p new).port q = (s.moveMember p new).port q := by
  have moves := s.movesPorts_moveMember p new
  rw [State.changeMember_eq, State.reportMember_quiet alive fun x hx => by
    rw [State.extentOfPort_congr moves.extents moves.jobs] at hx
    rw [moves.extent, settled x hx]]
  exact ⟨moves.trans rfl, fun _ => rfl⟩

end Sys2Proof.Machine
end

section
/-! O17 and O18: EXTENT_DEFINE and EXTENT_CLEAR. -/

namespace Sys2Proof.Machine

/-- From `s` to `t` the jobs, the requests, the pacing and the commands waiting are as they were, and of the board all but
a publish that has been asked for. -/
structure State.AsksPublish (s t : State) : Prop where
  jobs : t.jobs = s.jobs
  requests : t.requests = s.requests
  settings : t.settings = s.settings
  time : t.time = s.time
  guard : t.guard = s.guard
  pending : t.pending = s.pending
  board : t.board = { s.board with publishAsked := true }

/-- A slip answered GOOD at once after a change that asks for a publish and leaves the jobs alone. -/
theorem State.AsksPublish.answered {s t : State} {run : SweepRun} {tag : BitVec 64}
    (h : (s.afterTake run tag).AsksPublish t) (body : List BodyField) :
    s.SameJobs (t.answer run.slip .good .none body).settle ∧
      (t.answer run.slip .good .none body).settle.requests = s.requests ∧
      s.SamePacing (t.answer run.slip .good .none body).settle ∧
      (t.answer run.slip .good .none body).settle.pending = s.pending ∧
      s.Publishes (t.answer run.slip .good .none body).settle ∧
      s.AnswersAtOnce (t.answer run.slip .good .none body).settle run tag
        { slip := run.slip, status := .good, reason := .none, body := body } := by
  have fronts : ∀ j, ((t.answer run.slip .good .none body).job j).publishedFrontier = (s.job j).publishedFrontier := by
    intro j
    rw [State.job, State.answer_jobs, h.jobs]
    rfl
  refine ⟨State.sameJobs_settle (.of_eq h.jobs), (State.settle_requests _).trans h.requests,
    ⟨(State.settle_settings _).trans h.settings, (State.settle_time _).trans h.time, (State.settle_guard _).trans h.guard⟩,
    (State.settle_pending _).trans h.pending, State.publishes_settle ?_ ?_ ?_ fronts, State.answersAtOnce_settle ?_⟩
  all_goals rw [State.answer_board, h.board]
  all_goals rfl

/-! ## DEFINE -/

/-- The SPARE ports of a list that belong to no extent join it: they become ONLINE, and nothing else comes of it. -/
theorem State.joinPorts_spec {s : State} {l : List PortId} (free : ∀ p ∈ l, s.extentOfPort p = none) :
    s.MovesPorts (s.joinPorts l) ∧ ∀ q, (s.joinPorts l).port q =
      if q ∈ l ∧ (s.port q).memberState = .spare then { s.port q with memberState := .online } else s.port q := by
  induction l generalizing s with
  | nil => exact ⟨.refl s, fun q => by simp [State.joinPorts]⟩
  | cons p rest ih =>
    obtain ⟨moves, ports⟩ : s.MovesPorts (if (s.port p).memberState = .spare then s.changeMember p .online else s) ∧
        ∀ q, (if (s.port p).memberState = .spare then s.changeMember p .online else s).port q =
          if q = p ∧ (s.port q).memberState = .spare then { s.port q with memberState := .online } else s.port q := by
      split
      · rename_i spare
        have moved : ∀ q, (s.moveMember p .online).port q =
            if p = q then { s.port q with memberState := .online } else s.port q :=
          fun q => s.port_moveMember_of_carries p q rfl
        obtain ⟨moves, ports⟩ := State.changeMember_quiet (s := s) (p := p) (new := .online)
          (by rw [moved, if_pos rfl]; exact fun failed => nomatch failed)
          fun x hx => by rw [free p List.mem_cons_self] at hx; cases hx
        refine ⟨moves, fun q => ?_⟩
        rw [ports, moved]
        by_cases same : p = q
        · subst same
          simp [spare]
        · simp [same, Ne.symm same]
      · rename_i other
        refine ⟨.refl s, fun q => (if_neg ?_).symm⟩
        rintro ⟨rfl, spare⟩
        exact other spare
    have still : ∀ q ∈ rest, (if (s.port p).memberState = .spare then s.changeMember p .online else s).extentOfPort q =
        none := fun q mem => by
      rw [State.extentOfPort_congr moves.extents moves.jobs]
      exact free q (List.mem_cons_of_mem _ mem)
    obtain ⟨moves', ports'⟩ := ih still
    refine ⟨moves.trans moves', fun q => (ports' q).trans ?_⟩
    rw [ports]
    by_cases here : q = p
    · by_cases spare : (s.port q).memberState = .spare <;> simp [here ▸ spare, here]
    · simp [here]

theorem State.afterTake_extentOfPort (s : State) (run : SweepRun) (tag : BitVec 64) :
    (s.afterTake run tag).extentOfPort = s.extentOfPort := State.extentOfPort_congr rfl rfl

/-- The checks of a DEFINE do not look at the board. -/
theorem State.checkDefine_afterTake (s : State) (run : SweepRun) (tag : BitVec 64) (i : ExtentId) (f : DefineFields) :
    (s.afterTake run tag).checkDefine i f = s.checkDefine i f := by
  have conflicts : (s.afterTake run tag).conflicts = s.conflicts := by
    funext p
    rw [State.conflicts, State.afterTake_extentOfPort]
    rfl
  unfold State.checkDefine
  rw [conflicts]
  rfl

/-- An entry that passes the checks has no port in an extent. -/
theorem State.free_of_checkDefine {s : State} {i : ExtentId} {f : DefineFields} {e : Extent}
    (h : s.checkDefine i f = .ok e) : ∀ p ∈ e.targets, s.extentOfPort p = none := by
  unfold State.checkDefine at h
  split at h
  · cases h
  · split at h
    · cases h
    · split at h
      · cases h
      · split at h
        · cases h
        · rename_i noConflict
          cases h
          intro p mem
          by_contra conflict
          refine noConflict (List.any_eq_true.mpr ⟨p, mem, ?_⟩)
          simp [State.conflicts, Option.isSome_iff_ne_none.mpr conflict]

/-- What an accepted DEFINE does (R15). -/
theorem State.defineExtent_spec {s : State} {i : ExtentId} {e : Extent} (free : ∀ p ∈ e.targets, s.extentOfPort p = none) :
    (s.defineExtent i e).extent i = { e with condition := (s.defineExtent i e).conditionOf i } ∧
      (∀ x, x ≠ i → (s.defineExtent i e).extent x = s.extent x) ∧
      (∀ q, (s.defineExtent i e).port q = if q ∈ e.targets ∧ (s.port q).memberState = .spare then
        { s.port q with memberState := .online } else s.port q) ∧
      s.defineExtent i e = { s with
        ports := (s.defineExtent i e).ports, extents := (s.defineExtent i e).extents
        rows := { s.rows with contexts := (s.defineExtent i e).rows.contexts }
        board := { s.board with publishAsked := true } } := by
  obtain ⟨moves, ports⟩ := s.joinPorts_spec free
  have filled : ∀ x, (s.defineExtent i e).extent x = if i = x then
      { e with condition := ((s.joinPorts e.targets).withExtent i fun _ => e).conditionOf i } else s.extent x := by
    intro x
    show ((((s.joinPorts e.targets).withExtent i fun _ => e).withExtent i _).extent x) = _
    rw [State.withExtent_withExtent, State.extent_withExtent, moves.extent]
    rfl
  have condition : (s.defineExtent i e).conditionOf i =
      ((s.joinPorts e.targets).withExtent i fun _ => e).conditionOf i := by
    refine State.conditionOf_congr ?_ ?_ fun _ _ => rfl
    · rw [filled, if_pos rfl, State.extent_withExtent_self]
    · rw [filled, if_pos rfl, State.extent_withExtent_self]
  refine ⟨by rw [filled, if_pos rfl, condition], fun x other => by rw [filled, if_neg (Ne.symm other)], ports, ?_⟩
  unfold State.MovesPorts at moves
  unfold State.defineExtent State.withExtent State.askPublish State.withBoard
  rw [moves]

/-- What EXTENT_DEFINE does with a slip whose extent number is none. -/
theorem execExtentDefine_badNumber {s : State} {run : SweepRun} {tag : BitVec 64} {body : SlipBody}
    (read : s.sweepAt .slipRead = some run) (bad : slipField body 0x20 1 ≠ 0 ∨ 16 ≤ slipField body 0x21 1) :
    execExtentDefine tag body s = ((s.afterTake run tag).refuse run.slip .badField).done := by
  unfold execExtentDefine
  rw [State.takeSlip_afterTake tag read]
  dsimp only
  split
  · rfl
  · rename_i i number
    have small := numberOf_eq_some number
    exact if_pos (bad.resolve_right (by omega))

/-- What EXTENT_DEFINE does with a slip for entry `i`. -/
theorem execExtentDefine_eq {s : State} {run : SweepRun} {tag : BitVec 64} {body : SlipBody} {i : ExtentId}
    (read : s.sweepAt .slipRead = some run) (code : slipField body 0x20 1 = 0) (number : slipField body 0x21 1 = i.val) :
    execExtentDefine tag body s = match s.checkDefine i (defineFields body) with
      | .error reason => ((s.afterTake run tag).refuse run.slip reason).done
      | .ok e => (((s.afterTake run tag).defineExtent i e).answer run.slip .good .none
          (defineBody (((s.afterTake run tag).defineExtent i e).extent i))).done := by
  unfold execExtentDefine
  rw [State.takeSlip_afterTake tag read]
  dsimp only
  rw [number, numberOf_val]
  dsimp only
  cases checked : s.checkDefine i (defineFields body) with
  | error reason => rw [if_neg (by omega), State.checkDefine_afterTake, checked]
  | ok e => rw [if_neg (by omega), State.checkDefine_afterTake, checked]

/-- Settles O17: the checks leave a refusal, or a DEFINE that only its own ports and entry take part in
(`State.defineExtent_spec`). -/
theorem extentDefined : Obligations.ExtentDefined := by
  refine ⟨fun s run tag body rest read bad => ?_, fun s run tag body i rest read code number =>
    ⟨fun reason refused => ?_, fun e accepted legal => ?_⟩⟩
  · show ∃ t, execExtentDefine tag body s = .next t ∧ _
    rw [execExtentDefine_badNumber read bad]
    exact State.done_refuses rest _
  · show ∃ t, execExtentDefine tag body s = .next t ∧ _
    rw [execExtentDefine_eq read code number, refused]
    exact State.done_refuses rest reason
  · have free : ∀ p ∈ e.targets, (s.afterTake run tag).extentOfPort p = none := by
      rw [State.afterTake_extentOfPort]
      exact State.free_of_checkDefine accepted
    obtain ⟨entry, others, ports, frame⟩ := State.defineExtent_spec (i := i) free
    refine ⟨(((s.afterTake run tag).defineExtent i e).answer run.slip .good .none
      (defineBody (((s.afterTake run tag).defineExtent i e).extent i))).settle, ?_, ?_⟩
    · show execExtentDefine tag body s = _
      rw [execExtentDefine_eq read code number, accepted]
      rfl
    generalize ht : (s.afterTake run tag).defineExtent i e = t at entry others ports frame
    have condition : (t.answer run.slip .good .none (defineBody (t.extent i))).settle.conditionOf i = t.conditionOf i :=
      State.conditionOf_congr (by rw [State.settle_extent]; rfl) (by rw [State.settle_extent]; rfl)
        fun q _ => by rw [State.settle_port]; rfl
    have extents : ∀ x, (t.answer run.slip .good .none (defineBody (t.extent i))).settle.extent x = t.extent x :=
      fun x => State.settle_extent _ x
    have portOf : ∀ q, (t.answer run.slip .good .none (defineBody (t.extent i))).settle.port q = t.port q :=
      fun q => State.settle_port _ q
    have asks : (s.afterTake run tag).AsksPublish t := by constructor <;> rw [frame]
    obtain ⟨jobs, requests, pacing, pending, publishes, answers⟩ := asks.answered (defineBody (t.extent i))
    refine ⟨by rw [extents, condition, entry], fun x other => by rw [extents, others x other]; rfl,
      fun p => (portOf p).trans (ports p), fun p mem _ spare => ?_, ?_, ?_, jobs, requests, ?_, ?_, pacing, pending,
      publishes, ?_⟩
    · have spared : ((s.afterTake run tag).port p).memberState = .spare := spare
      rw [portOf, ports, if_pos ⟨mem, spared⟩]
      exact legal p (by rw [spare]; rfl)
    · rw [State.settle_losses, State.answer_losses, frame]
      rfl
    · rw [State.settle_rows, State.answer_rows, frame]
      rfl
    · rw [State.settle_holds, State.answer_holds, frame]
      rfl
    · rw [State.settle_solver, State.answer_solver, frame]
      rfl
    · have body : [field1 (t.extent i).condition.code, field8 e.rows, field8 e.arrayLimit] = defineBody (t.extent i) := by
        rw [entry]
        rfl
      rw [extents, body]
      exact answers

/-! ## CLEAR -/

/-- The ONLINE ports of an extent leave it one after another: each becomes SPARE with its stall clear and nothing pending,
and, as R9 counts neither state, nothing else comes of it. -/
theorem State.sparePorts_spec {s : State} {i : ExtentId} {l : List PortId} (nodup : l.Nodup)
    (listed : ∀ p ∈ l, s.extentOfPort p = some i) (online : ∀ p ∈ l, (s.port p).memberState = .online)
    (condition : (s.extent i).condition = s.conditionOf i) :
    s.MovesPorts (l.foldl (fun s p => s.changeMember p .spare) s) ∧
      ∀ q, (l.foldl (fun s p => s.changeMember p .spare) s).port q =
        if q ∈ l then { (s.port q).clearFlags with memberState := .spare, waiting := [] } else s.port q := by
  induction l generalizing s with
  | nil => exact ⟨.refl s, fun q => by simp⟩
  | cons p rest ih =>
    obtain ⟨apart, nodup⟩ := List.nodup_cons.mp nodup
    have here := online p List.mem_cons_self
    have moved : ∀ q, (s.moveMember p .spare).port q =
        if p = q then { (s.port q).clearFlags with memberState := .spare, waiting := [] } else s.port q :=
      fun q => s.port_moveMember_of_leaves p q (by rw [here]; rfl) (.inl rfl)
    have uncounted : ∀ {t : State}, t.extent i = s.extent i →
        (∀ q, t.port q = (s.moveMember p .spare).port q) → t.conditionOf i = s.conditionOf i := fun same ports =>
      State.conditionOf_congr (by rw [same]) (by rw [same]) fun q _ => by
        rw [ports, moved]
        split
        · rename_i is
          rw [← is, here]
          rfl
        · rfl
    have settled : ∀ x, s.extentOfPort p = some x → (s.extent x).condition = (s.moveMember p .spare).conditionOf x := by
      intro x hx
      rw [listed p List.mem_cons_self] at hx
      cases hx
      rw [uncounted ((s.movesPorts_moveMember p .spare).extent i) fun _ => rfl, condition]
    obtain ⟨moves, ports⟩ := State.changeMember_quiet (by rw [moved, if_pos rfl]; exact fun failed => nomatch failed) settled
    obtain ⟨moves', ports'⟩ := ih (s := s.changeMember p .spare) nodup
      (fun q mem => by
        rw [State.extentOfPort_congr moves.extents moves.jobs]
        exact listed q (List.mem_cons_of_mem _ mem))
      (fun q mem => by
        have other : p ≠ q := fun same => apart (same ▸ mem)
        rw [ports, moved, if_neg other]
        exact online q (List.mem_cons_of_mem _ mem))
      (by rw [moves.extent, uncounted (moves.extent i) ports, condition])
    refine ⟨moves.trans moves', fun q => (ports' q).trans ?_⟩
    rw [ports, moved]
    by_cases same : p = q
    · subst same
      simp [apart]
    · simp [same, Ne.symm same]

/-- The checks of a CLEAR look at the board for foreground slips alone. -/
theorem State.checkClear_afterTake (s : State) (run : SweepRun) (tag : BitVec 64) (i : ExtentId) :
    (s.afterTake run tag).checkClear i = s.checkClear i := by
  have serves : (s.afterTake run tag).serves i = s.serves i := by
    have taken : (s.afterTake run tag).board.taken.any (fun t => t.foreground == some i) =
        s.board.taken.any fun t => t.foreground == some i := by
      rw [State.afterTake, List.any_map]
      congr 1
      funext t
      dsimp only [Function.comp]
      split <;> rfl
    rw [State.serves, State.serves, taken]
    rfl
  unfold State.checkClear
  rw [serves]
  rfl

/-- An extent in use with work on it is refused. -/
theorem State.checkClear_busy {s : State} {i : ExtentId} (used : (s.extent i).condition ≠ .unused)
    (busy : (∃ j : JobId, (s.job j).isOn = true ∧ (s.job j).extent = i) ∨
      (∃ c op, s.context c = some op ∧ op.extent = i) ∨ (∃ r ∈ s.rows.contextWait, r.extent = i) ∨
      (∃ x ∈ s.board.taken, x.foreground = some i) ∨ (∃ r ∈ s.requests, r.extent = i)) :
    s.checkClear i = some .busyExtent := by
  have work : (s.jobOn i).isSome = true ∨ (s.rowWorkOn i (fun _ => true) || s.serves i) = true := by
    rcases busy with ⟨j, on, there⟩ | ⟨c, op, hc, there⟩ | ⟨r, hr, there⟩ | ⟨x, hx, there⟩ | ⟨r, hr, there⟩
    · exact .inl (List.find?_isSome.mpr ⟨j, mem_bankIndices j, by simp [on, there]⟩)
    · have mem : (c, op) ∈ s.operations := by simp [State.operations, hc]
      have any : (s.operations.any fun x => x.2.extent == i && true) = true :=
        List.any_eq_true.mpr ⟨_, mem, by simp [there]⟩
      exact .inr (by simp only [State.rowWorkOn, any, Bool.true_or])
    · have any : (s.rows.contextWait.any fun r => r.extent == i && true) = true :=
        List.any_eq_true.mpr ⟨_, hr, by simp [there]⟩
      exact .inr (by simp only [State.rowWorkOn, any, Bool.or_true, Bool.true_or])
    · have any : (s.board.taken.any fun t => t.foreground == some i) = true :=
        List.any_eq_true.mpr ⟨_, hx, by simp [there]⟩
      exact .inr (by simp only [State.serves, any, Bool.true_or, Bool.or_true])
    · have any : (s.requests.any fun r => r.extent == i) = true := List.any_eq_true.mpr ⟨_, hr, by simp [there]⟩
      exact .inr (by simp only [State.serves, any, Bool.or_true])
  unfold State.checkClear
  rw [(Extent.inUse_iff _).mpr used, Bool.not_true, if_neg Bool.false_ne_true]
  split
  · rfl
  · rename_i noJob
    exact if_pos (work.resolve_left noJob)

/-- An extent in use with no work on it is cleared. -/
theorem State.checkClear_idle {s : State} {i : ExtentId} (used : (s.extent i).condition ≠ .unused)
    (jobs : ∀ j : JobId, (s.job j).isOn = true → (s.job j).extent ≠ i)
    (contexts : ∀ c op, s.context c = some op → op.extent ≠ i) (waits : ∀ r ∈ s.rows.contextWait, r.extent ≠ i)
    (taken : ∀ x ∈ s.board.taken, x.foreground ≠ some i) (requests : ∀ r ∈ s.requests, r.extent ≠ i) :
    s.checkClear i = none := by
  have noJob : s.jobOn i = none := List.find?_eq_none.mpr fun j _ => by
    simpa only [Bool.and_eq_true, beq_iff_eq, not_and] using jobs j
  have noContext : (s.operations.any fun x => x.2.extent == i && true) = false := by
    refine List.any_eq_false.mpr fun x mem => ?_
    simp only [State.operations, List.mem_filterMap, Option.map_eq_some_iff] at mem
    obtain ⟨c, -, op, hc, rfl⟩ := mem
    simpa using contexts c op hc
  have noWait : (s.rows.contextWait.any fun r => r.extent == i && true) = false :=
    List.any_eq_false.mpr fun r mem => by simpa using waits r mem
  have noSlip : (s.board.taken.any fun t => t.foreground == some i) = false :=
    List.any_eq_false.mpr fun x mem => by simpa using taken x mem
  have noRequest : (s.requests.any fun r => r.extent == i) = false :=
    List.any_eq_false.mpr fun r mem => by simpa using requests r mem
  unfold State.checkClear
  rw [(Extent.inUse_iff _).mpr used, noJob, State.rowWorkOn, noContext, noWait, State.serves, noSlip, noRequest]
  rfl

/-- What an accepted CLEAR does (R17). -/
theorem State.clearExtent_spec {s : State} {i : ExtentId} (listed : ∀ p ∈ (s.extent i).targets, s.extentOfPort p = some i)
    (nodup : (s.extent i).targets.Nodup) (condition : (s.extent i).condition = s.conditionOf i) :
    (∀ x, (s.clearExtent i).extent x = if i = x then Extent.empty else s.extent x) ∧
      (∀ q, (s.clearExtent i).port q = if q ∈ (s.extent i).targets ∧ (s.port q).memberState = .online then
        { (s.port q).clearFlags with memberState := .spare, waiting := [] } else s.port q) ∧
      s.clearExtent i = { s with
        ports := (s.clearExtent i).ports, extents := (s.clearExtent i).extents
        losses := { s.losses with entries := s.losses.entries.filter fun e => e.extent ≠ i }
        rows := { s.rows with
          contexts := (s.clearExtent i).rows.contexts
          unsettled := s.rows.unsettled.filter fun e => e.extent ≠ i }
        board := { s.board with publishAsked := true } } := by
  have left : ∀ q, q ∈ (s.extent i).targets.filter (fun p => (s.port p).memberState == .online) ↔
      q ∈ (s.extent i).targets ∧ (s.port q).memberState = .online := fun q => by simp
  obtain ⟨moves, ports⟩ := State.sparePorts_spec (nodup.filter fun p => (s.port p).memberState == .online)
    (fun p mem => listed p ((left p).mp mem).1) (fun p mem => ((left p).mp mem).2) condition
  refine ⟨fun x => ?_, fun q => ?_, ?_⟩
  · show (State.withExtent _ i _).extent x = _
    rw [State.extent_withExtent]
    split
    · rfl
    · exact moves.extent x
  · refine (ports q).trans ?_
    simp only [left]
  · have differ : ∀ x : ExtentId, (x != i) = decide (x ≠ i) := fun x => by
      rw [Bool.eq_iff_iff, bne_iff_ne, decide_eq_true_iff]
    unfold State.MovesPorts at moves
    unfold State.clearExtent State.withExtent State.askPublish State.withBoard State.withRows State.withLosses
    rw [moves]
    simp only [differ]

/-- What EXTENT_CLEAR does with a slip whose operation code or extent number is none. -/
theorem execExtentClear_badNumber {s : State} {run : SweepRun} {tag : BitVec 64} {body : SlipBody}
    (read : s.sweepAt .slipRead = some run) (bad : slipField body 0x20 1 ≠ 1 ∨ 16 ≤ slipField body 0x21 1) :
    execExtentClear tag body s = ((s.afterTake run tag).refuse run.slip .badField).done := by
  unfold execExtentClear
  rw [State.takeSlip_afterTake tag read]
  dsimp only
  split
  · rfl
  · rename_i i number
    have small := numberOf_eq_some number
    exact if_pos (bad.resolve_right (by omega))

/-- What EXTENT_CLEAR does with a slip for entry `i`. -/
theorem execExtentClear_eq {s : State} {run : SweepRun} {tag : BitVec 64} {body : SlipBody} {i : ExtentId}
    (read : s.sweepAt .slipRead = some run) (code : slipField body 0x20 1 = 1) (number : slipField body 0x21 1 = i.val) :
    execExtentClear tag body s = match s.checkClear i with
      | some reason => ((s.afterTake run tag).refuse run.slip reason).done
      | none => (((s.afterTake run tag).clearExtent i).answer run.slip .good .none
          [field2 (s.clearCounts i).ports, field2 (s.clearCounts i).losses, field8 (s.clearCounts i).unsettled]).done := by
  unfold execExtentClear
  rw [State.takeSlip_afterTake tag read]
  dsimp only
  rw [number, numberOf_val]
  dsimp only
  rw [if_neg (by omega), State.checkClear_afterTake]
  cases s.checkClear i <;> rfl

/-- Settles O18: the checks leave a refusal, or a CLEAR of an idle extent (`State.clearExtent_spec`). -/
theorem extentCleared : Obligations.ExtentCleared := by
  refine ⟨fun s run tag body rest read bad => ?_, fun s run tag body i rest read code number =>
    ⟨fun unused => ?_, fun used busy => ?_,
      fun used jobs contexts waits taken requests listed nodup condition => ?_⟩⟩
  · show ∃ t, execExtentClear tag body s = .next t ∧ _
    rw [execExtentClear_badNumber read bad]
    exact State.done_refuses rest _
  · have refused : s.checkClear i = some .noExtent := by simp [State.checkClear, Extent.inUse, unused]
    show ∃ t, execExtentClear tag body s = .next t ∧ _
    rw [execExtentClear_eq read code number, refused]
    exact State.done_refuses rest _
  · show ∃ t, execExtentClear tag body s = .next t ∧ _
    rw [execExtentClear_eq read code number, State.checkClear_busy used busy]
    exact State.done_refuses rest _
  · have accepted := State.checkClear_idle used jobs contexts waits taken requests
    obtain ⟨extents, ports, frame⟩ := State.clearExtent_spec (s := s.afterTake run tag) (i := i)
      (by rw [State.afterTake_extentOfPort]; exact listed) nodup condition
    refine ⟨_, by
      show execExtentClear tag body s = _
      rw [execExtentClear_eq read code number, accepted]
      rfl, ?_⟩
    generalize ht : (s.afterTake run tag).clearExtent i = t at extents ports frame
    have asks : (s.afterTake run tag).AsksPublish t := by constructor <;> rw [frame]
    have counts : [field2 (s.clearCounts i).ports, field2 (s.clearCounts i).losses,
        field8 (s.clearCounts i).unsettled] =
        [field2 ((s.extent i).targets.countP fun p => (s.port p).memberState == .online),
          field2 (s.losses.entries.countP fun e => e.extent == i),
          field8 ((s.rows.unsettled.filter fun e => e.extent == i).map
            fun e => e.last (s.lastRows i) + 1 - e.first).sum] := by
      simp only [State.clearCounts, List.countP_eq_length_filter, UnsettledEntry.size]
    rw [counts]
    obtain ⟨jobs, requests, pacing, pending, publishes, answers⟩ := asks.answered
      [field2 ((s.extent i).targets.countP fun p => (s.port p).memberState == .online),
        field2 (s.losses.entries.countP fun e => e.extent == i),
        field8 ((s.rows.unsettled.filter fun e => e.extent == i).map
          fun e => e.last (s.lastRows i) + 1 - e.first).sum]
    refine ⟨?_, fun x other => ?_, fun p => ?_, ?_, ?_, jobs, requests, pacing, pending, publishes, answers⟩
    · rw [State.settle_extent]
      exact (extents i).trans (if_pos rfl)
    · rw [State.settle_extent]
      exact (extents x).trans (if_neg (Ne.symm other))
    · rw [State.settle_port]
      split
      · rename_i leaves
        have left := (ports p).trans (if_pos leaves)
        rw [show ∀ i st r b, (t.answer i st r b).port p = t.port p from fun _ _ _ _ => rfl, left]
        exact ⟨rfl, rfl, rfl, rfl⟩
      · rename_i stays
        exact (ports p).trans (if_neg stays)
    · rw [State.settle_losses, State.answer_losses, frame]
      rfl
    · rw [State.settle_rows, State.answer_rows, frame]
      rfl

end Sys2Proof.Machine
end

section
/-! O43, refuted. The clause of `EvaluationSays` on what a READ_ROW asks the solver for is said for every `p`, also past the
last position. R6 places the data strips modulo the number of positions, and `Extent.dataIndex` wraps with it: `p` and
`p + memberCount` hold the same strip for `RowRequest.requestedAt`, so that `Operation.asks` is met at both. `State.Wanted`
names the strip by its one position below memberCount. -/

namespace Sys2Proof.Machine

/-- A MIRROR of two members over one stripe, its data strip at position 0. -/
def twoMemberMirror : State :=
  State.reset.withExtent 0 fun _ =>
    { condition := .whole, kind := .mirror, memberCount := 2, stripSize := 16, arrayStart := 0, stripeCount := 1,
      memberBase := 0, rotation := .fixed, targets := [0, 1] }

/-- A READ_ROW of the first block of the row's one data strip. -/
def firstBlockRead : Operation :=
  let read : RowRequest :=
    { kind := .readRow, owner := .slip 0 0, extent := 0, row := 0,
      requested := [{ strip := 0, first := 0, count := 1 }], countedBy := none }
  read.operation

theorem twoMemberMirror_legal : (twoMemberMirror.extent firstBlockRead.extent).legal := by
  unfold Extent.legal
  decide +kernel

/-- What is asked of a row lies at a position of its extent (R6). -/
theorem State.Asked.position_lt {s : State} {op : Operation} {p i : Nat} (h : s.Asked op p i)
    (legal : (s.extent op.extent).legal) : p < (s.extent op.extent).memberCount := by
  obtain ⟨-, r, -, -, -, -, rfl⟩ := h
  exact Extent.dataPosition_lt legal _ _

/-- Position 2 of two, the data strip's position once around. -/
theorem firstBlockRead_asks_past_positions :
    firstBlockRead.asks (twoMemberMirror.extent firstBlockRead.extent) 0 2 = true := by decide +kernel

/-- Refutes O43: the read of `firstBlockRead` asks at 2, a position that no strip has and so nothing is wanted of. -/
theorem not_evaluationSays : ¬ Obligations.EvaluationSays := by
  intro h
  obtain ⟨rows, -, -⟩ := h
  obtain ⟨-, -, -, -, -, -, -, asks, -⟩ := rows twoMemberMirror firstBlockRead twoMemberMirror_legal
  have wanted : twoMemberMirror.Wanted firstBlockRead 2 0 :=
    ((asks 2 0 (by decide)).1 firstBlockRead_asks_past_positions).1
  exact absurd (wanted.1.position_lt twoMemberMirror_legal) (by decide)

end Sys2Proof.Machine
end

section
/-! SUPPORT. What the failure of a request or of a member sets off, short of the change of member state itself: the
shared operations that deliver endings, drain jobs, end the operations that have nothing running and recompute a
condition. -/

namespace Sys2Proof.Machine

/-! ## What follows -/

/-- An operation that goes on: its owner, extent and phase stand, it remembers what it did, it keeps the results that it
has had, and nothing is added to what it is still to write. -/
structure Operation.GoesOn (a b : Operation) : Prop where
  owner : b.owner = a.owner
  extent : b.extent = a.extent
  phase : b.phase = a.phase
  lostSeen : a.lostSeen = true → b.lostSeen = true
  results : a.results ⊆ b.results
  writesLeft : b.writesLeft ⊆ a.writesLeft

theorem Operation.GoesOn.refl (a : Operation) : a.GoesOn a := ⟨rfl, rfl, rfl, id, fun _ h => h, fun _ h => h⟩

theorem Operation.GoesOn.trans {a b c : Operation} (h : a.GoesOn b) (k : b.GoesOn c) : a.GoesOn c :=
  ⟨k.owner.trans h.owner, k.extent.trans h.extent, k.phase.trans h.phase, k.lostSeen ∘ h.lostSeen,
    fun _ m => k.results (h.results m), fun _ m => h.writesLeft (k.writesLeft m)⟩

/-- What becomes of a context: it stays free, its operation ends with nothing running, or its operation goes on. -/
inductive ContextFollows : Option Operation → Option Operation → Prop
  | free : ContextFollows none none
  | ended {a : Operation} (idle : a.phase.idle = true) : ContextFollows (some a) none
  | goesOn {a b : Operation} (h : a.GoesOn b) : ContextFollows (some a) (some b)

theorem ContextFollows.refl : ∀ a : Option Operation, ContextFollows a a
  | none => .free
  | some a => .goesOn (.refl a)

theorem ContextFollows.trans {a b c : Option Operation} (h : ContextFollows a b) (k : ContextFollows b c) :
    ContextFollows a c := by
  cases h with
  | free => exact k
  | ended idle => cases k; exact .ended idle
  | goesOn h =>
    cases k with
    | ended idle => exact .ended (h.phase ▸ idle)
    | goesOn k => exact .goesOn (h.trans k)

/-- An operation found afterwards is one that was there and went on. -/
theorem ContextFollows.of_some {a : Option Operation} {b : Operation} (h : ContextFollows a (some b)) :
    ∃ op, a = some op ∧ op.GoesOn b := by
  cases h with
  | goesOn h => exact ⟨_, rfl, h⟩

/-- An operation that has something running is still there. -/
theorem ContextFollows.of_running {a : Operation} {b : Option Operation} (h : ContextFollows (some a) b)
    (running : a.phase.idle = false) : ∃ op, b = some op ∧ a.GoesOn op := by
  cases h with
  | ended idle => rw [running] at idle; cases idle
  | goesOn h => exact ⟨_, rfl, h⟩

/-- What an owner has been told stands while operations go on or end. -/
theorem State.Told.follows {s t : State} {p : PortId} {r : Request} {ending : Ending} (told : s.Told p r ending)
    (contexts : ∀ c, ContextFollows (s.context c) (t.context c)) : t.Told p r ending := by
  intro c op' owner held
  have follows := contexts c
  rw [held] at follows
  obtain ⟨op, was, goes⟩ := follows.of_some
  obtain ⟨read, write⟩ := told c op owner was
  exact ⟨fun kind => goes.results (read kind), fun kind w mem => write kind w (goes.writesLeft mem)⟩

/-- The owner of a request that was pending at a port has been told that it has ended there. -/
def State.ToldGone (s : State) (p : PortId) (r : Request) : Prop := s.Told p r .linkLost ∨ s.Told p r .withdrawn

theorem State.ToldGone.follows {s t : State} {p : PortId} {r : Request} (told : s.ToldGone p r)
    (contexts : ∀ c, ContextFollows (s.context c) (t.context c)) : t.ToldGone p r :=
  told.imp (·.follows contexts) (·.follows contexts)

/-- A job record that failures leave on its extent, or off it, and at its place: one whose last row has ended keeps its
targets, and no other becomes such a one. -/
structure Job.Endures (a b : Job) : Prop where
  extent : b.extent = a.extent
  isOn : b.isOn = a.isOn
  completes : b.completes = a.completes
  sources : a.completes = true → b.sources = a.sources
  published : b.publishedFrontier = a.publishedFrontier

theorem Job.Endures.refl (a : Job) : a.Endures a := ⟨rfl, rfl, rfl, fun _ => rfl, rfl⟩

theorem Job.Endures.trans {a b c : Job} (h : a.Endures b) (k : b.Endures c) : a.Endures c :=
  ⟨k.extent.trans h.extent, k.isOn.trans h.isOn, k.completes.trans h.completes,
    fun m => (k.sources (h.completes.trans m)).trans (h.sources m), k.published.trans h.published⟩

/-- A record changed but for the fields that say where the job stands. -/
theorem Job.Endures.of_eq {a b : Job} (extent : b.extent = a.extent) (state : b.state = a.state)
    (frontier : b.frontier = a.frontier) (endRow : b.endRow = a.endRow)
    (sources : a.completes = true → b.sources = a.sources) (published : b.publishedFrontier = a.publishedFrontier) :
    a.Endures b :=
  ⟨extent, by rw [Job.isOn, Job.isOn, state], by rw [Job.completes, Job.completes, state, frontier, endRow], sources,
    published⟩

/-- What follows from `s` to `t`: ports lose at most pending requests, whose owners are told, operations go on or end with nothing running, no
request joins the context wait list, the entries of the layout map in `moved` change in their conditions alone and the
others stand, jobs endure, and of the rest nothing changes but answers given and a publish asked for. -/
structure State.Aftermath (s : State) (moved : Set ExtentId) (t : State) : Prop where
  ports : ∀ q, ∃ w, w.Sublist (s.port q).waiting ∧ t.port q = { s.port q with waiting := w }
  contexts : ∀ c, ContextFollows (s.context c) (t.context c)
  told : ∀ q, ∀ r ∈ (s.port q).waiting, r ∈ (t.port q).waiting ∨ t.ToldGone q r
  waits : t.rows.contextWait ⊆ s.rows.contextWait
  extents : ∀ x, t.extent x = { s.extent x with condition := (t.extent x).condition }
  inUse : ∀ x, (t.extent x).inUse = (s.extent x).inUse
  still : ∀ x, x ∉ moved → t.extent x = s.extent x
  jobs : ∀ j, (s.job j).Endures (t.job j)
  answers : s.board.answers <+: t.board.answers
  asked : s.board.publishAsked = true → t.board.publishAsked = true
  rest : s.RestKept t

theorem State.Aftermath.refl {M : Set ExtentId} (s : State) : s.Aftermath M s :=
  ⟨fun _ => ⟨_, .refl _, rfl⟩, fun _ => .refl _, fun _ _ => .inl, fun _ h => h, fun _ => rfl, fun _ => rfl,
    fun _ _ => rfl, fun _ => .refl _, List.prefix_refl _, id, .refl s⟩

theorem State.Aftermath.trans {M : Set ExtentId} {s t u : State} (h : s.Aftermath M t) (k : t.Aftermath M u) :
    s.Aftermath M u where
  ports q := by
    obtain ⟨w, sub, port⟩ := h.ports q
    obtain ⟨w', sub', port'⟩ := k.ports q
    rw [port] at sub' port'
    exact ⟨w', sub'.trans sub, port'⟩
  contexts c := (h.contexts c).trans (k.contexts c)
  told q r mem := (h.told q r mem).elim (k.told q r) fun told => .inr (told.follows k.contexts)
  waits := fun _ m => h.waits (k.waits m)
  extents x := by rw [k.extents x, h.extents x]
  inUse x := (k.inUse x).trans (h.inUse x)
  still x out := (k.still x out).trans (h.still x out)
  jobs j := (h.jobs j).trans (k.jobs j)
  answers := h.answers.trans k.answers
  asked := k.asked ∘ h.asked
  rest := h.rest.trans k.rest

theorem State.Aftermath.ite {M : Set ExtentId} {s t u : State} {c : Prop} [Decidable c] (h : s.Aftermath M t)
    (k : s.Aftermath M u) : s.Aftermath M (if c then t else u) := by
  split
  · exact h
  · exact k

theorem State.Aftermath.foldl {M : Set ExtentId} {α : Type} {f : State → α → State}
    (h : ∀ (s : State) (x : α), s.Aftermath M (f s x)) (l : List α) (s : State) : s.Aftermath M (l.foldl f s) := by
  induction l generalizing s with
  | nil => exact .refl s
  | cons x rest ih => exact (h s x).trans (ih _)

/-- An update that leaves the ports, the contexts and the layout map alone. -/
theorem State.Aftermath.of_jobs {s t : State} (jobs : ∀ j, (s.job j).Endures (t.job j))
    (answers : s.board.answers <+: t.board.answers := by exact List.prefix_refl _)
    (asked : s.board.publishAsked = true → t.board.publishAsked = true := by exact id)
    (rest : s.RestKept t := by exact ⟨rfl, rfl, rfl, rfl, rfl, rfl⟩) (ports : t.ports = s.ports := by rfl)
    (contexts : t.rows.contexts = s.rows.contexts := by rfl)
    (waits : t.rows.contextWait = s.rows.contextWait := by rfl) (extents : t.extents = s.extents := by rfl) :
    s.Aftermath ∅ t where
  ports q := ⟨_, .refl _, by rw [State.port, ports]; rfl⟩
  contexts c := by rw [State.context, State.context, contexts]; exact .refl _
  told q r mem := .inl (by rw [State.port, ports]; exact mem)
  waits := by rw [waits]; exact fun _ h => h
  extents x := by rw [State.extent, extents]; rfl
  inUse x := by rw [State.extent, State.extent, extents]
  still x _ := by rw [State.extent, State.extent, extents]
  jobs := jobs
  answers := answers
  asked := asked
  rest := rest

theorem State.aftermath_withJob (s : State) (j : JobId) (f : Job → Job) (h : (s.job j).Endures (f (s.job j))) :
    s.Aftermath ∅ (s.withJob j f) := .of_jobs fun k => by
  rw [State.job_withJob]
  split
  · rename_i same
    exact same ▸ h
  · exact .refl _

/-- The contexts changed, and of the rest of the row engine, the solver, the hold table and the requests anything. -/
theorem State.Aftermath.of_contexts {s t : State} (contexts : ∀ c, ContextFollows (s.context c) (t.context c))
    (rest : s.RestKept t := by exact ⟨rfl, rfl, rfl, rfl, rfl, rfl⟩) (ports : t.ports = s.ports := by rfl)
    (waits : t.rows.contextWait ⊆ s.rows.contextWait := by exact fun _ h => h) (extents : t.extents = s.extents := by rfl)
    (jobs : t.jobs = s.jobs := by rfl) (board : t.board = s.board := by rfl) : s.Aftermath ∅ t where
  ports q := ⟨_, .refl _, by rw [State.port, ports]; rfl⟩
  contexts := contexts
  told q r mem := .inl (by rw [State.port, ports]; exact mem)
  waits := waits
  extents x := by rw [State.extent, extents]; rfl
  inUse x := by rw [State.extent, State.extent, extents]
  still x _ := by rw [State.extent, State.extent, extents]
  jobs j := by rw [State.job, State.job, jobs]; exact .refl _
  answers := by rw [board]
  asked := by rw [board]; exact id
  rest := rest

theorem State.aftermath_withOperation (s : State) (c : ContextId) (f : Operation → Operation)
    (h : ∀ op, s.context c = some op → op.GoesOn (f op)) : s.Aftermath ∅ (s.withOperation c f) := .of_contexts fun d => by
  rw [State.context_withOperation]
  split
  · rename_i same
    subst same
    cases held : s.context c with
    | none => exact .free
    | some op => exact .goesOn (h op held)
  · exact .refl _

theorem State.aftermath_askPublish (s : State) : s.Aftermath ∅ s.askPublish :=
  .of_jobs (fun _ => .refl _) (asked := fun _ => rfl)

theorem State.aftermath_answerJob (s : State) (i : SlipId) (status : Status) (c : ControlAnswer) :
    s.Aftermath ∅ (s.answerJob i status c) := .of_jobs (fun _ => .refl _) (answers := List.prefix_append _ _)

/-! ## Endings -/

theorem Operation.takeRead_goesOn (p : PortId) (r : Request) (ending : Ending) (contents : List Block)
    (op : Operation) : op.GoesOn (op.takeRead p r ending contents) :=
  ⟨rfl, rfl, rfl, id, fun _ h => List.mem_append_left _ h, fun _ h => h⟩

theorem Operation.dropRuns_goesOn (p : PortId) (op : Operation) : op.GoesOn (op.dropRuns p) :=
  ⟨rfl, rfl, rfl, id, fun _ h => h, List.filter_subset_self _⟩

theorem State.aftermath_deliverFailure (s : State) (p : PortId) (r : Request) (ending : Ending) :
    s.Aftermath ∅ (s.deliverFailure p r ending) := by
  unfold State.deliverFailure
  split
  · exact .refl s
  · split
    · exact s.aftermath_withOperation _ _ fun op _ => op.takeRead_goesOn _ _ _ _
    · exact s.aftermath_withOperation _ _ fun op _ => op.dropRuns_goesOn _
    · exact .refl s

theorem State.told_deliverFailure (s : State) (p : PortId) (r : Request) (ending : Ending) :
    (s.deliverFailure p r ending).Told p r ending := by
  intro c op owner held
  unfold State.deliverFailure at held
  rw [owner] at held
  cases kind : r.kind <;> rw [kind] at held
  · obtain ⟨was, -, rfl⟩ := Option.map_eq_some_iff.mp ((State.context_withOperation_self _ _ _).symm.trans held)
    exact ⟨fun _ => List.mem_append_right _ (List.mem_singleton_self _), nofun⟩
  · obtain ⟨was, -, rfl⟩ := Option.map_eq_some_iff.mp ((State.context_withOperation_self _ _ _).symm.trans held)
    exact ⟨nofun, fun _ w mem => by simpa using (List.mem_filter.mp mem).2⟩
  · exact ⟨nofun, nofun⟩

theorem State.told_deliverFailures (p : PortId) (ending : Ending) {r : Request} {l : List Request} (mem : r ∈ l)
    (s : State) : (l.foldl (fun s r => s.deliverFailure p r ending) s).Told p r ending := by
  induction l generalizing s with
  | nil => cases mem
  | cons x rest ih =>
    rcases List.mem_cons.mp mem with rfl | mem
    · have later : (s.deliverFailure p r ending).Aftermath ∅
          (rest.foldl (fun s r => s.deliverFailure p r ending) (s.deliverFailure p r ending)) :=
        .foldl (fun s x => s.aftermath_deliverFailure p x ending) rest _
      exact (s.told_deliverFailure p r ending).follows later.contexts
    · exact ih mem _

/-- The pending requests of a port that `gone` picks leave its list, and each ends. -/
def State.dropWaiting (s : State) (p : PortId) (gone : Request → Bool) (ending : Ending) : State :=
  ((s.port p).waiting.filter gone).foldl (fun s r => s.deliverFailure p r ending)
    (s.withPort p fun x => { x with waiting := x.waiting.filter fun r => !gone r })

theorem State.dropWaiting_port (s : State) (p : PortId) (gone : Request → Bool) (ending : Ending) (q : PortId) :
    (s.dropWaiting p gone ending).port q =
      if p = q then { s.port q with waiting := (s.port q).waiting.filter fun r => !gone r } else s.port q := by
  rw [State.dropWaiting, State.deliverFailures_port, State.port_withPort]

theorem State.aftermath_dropWaiting (s : State) (p : PortId) (gone : Request → Bool) {ending : Ending}
    (h : ending = .linkLost ∨ ending = .withdrawn) : s.Aftermath ∅ (s.dropWaiting p gone ending) := by
  have ended : (s.withPort p fun x => { x with waiting := x.waiting.filter fun r => !gone r }).Aftermath ∅
      (s.dropWaiting p gone ending) := .foldl (fun s r => s.aftermath_deliverFailure p r ending) _ _
  refine { ended with
    ports := fun q => ?_
    told := fun q r mem => ?_
    rest := (s.restKept_withPort p _).trans ended.rest }
  · rw [State.dropWaiting_port]
    split
    · exact ⟨_, List.filter_sublist, rfl⟩
    · exact ⟨_, .refl _, rfl⟩
  · rw [State.dropWaiting_port]
    split
    · rename_i same
      subst same
      cases left : gone r with
      | false => exact .inl (List.mem_filter.mpr ⟨mem, by rw [left]; rfl⟩)
      | true =>
        have told := State.told_deliverFailures p ending (List.mem_filter.mpr ⟨mem, left⟩)
          (s.withPort p fun x => { x with waiting := x.waiting.filter fun r => !gone r })
        exact .inr (h.elim (fun same => .inl (same ▸ told)) fun same => .inr (same ▸ told))
    · exact .inl mem

theorem State.aftermath_withdrawAt (s : State) (c : ContextId) (p : PortId) : s.Aftermath ∅ (s.withdrawAt c p) :=
  s.aftermath_dropWaiting p (fun r => r.owner == some c) (.inr rfl)

theorem State.aftermath_withdraw (s : State) (c : ContextId) : s.Aftermath ∅ (s.withdraw c) :=
  .foldl (fun s _ => s.aftermath_withdrawAt _ _) _ _

/-! ## Drains and the ends of row operations -/

theorem State.aftermath_supersedePause (s : State) (j : JobId) (cause : EndCause) :
    s.Aftermath ∅ (s.supersedePause j cause) := by
  unfold State.supersedePause
  split
  · exact s.aftermath_answerJob _ _ _
  · exact .refl s

/-- A job that can be set draining is on its extent, and its last row has not ended. -/
theorem Job.not_completes_of_drainable {j : Job} (h : j.drainable = true) : j.completes = false := by
  rw [Job.drainable, Bool.and_eq_true, Bool.not_eq_true'] at h
  exact h.2

/-- A job set draining. -/
def Job.drained (cause : EndCause) (j : Job) : Job :=
  { j with state := .aborting, drainCause := some cause, control := none }

theorem Job.drained_endures {j : Job} (cause : EndCause) (h : j.drainable = true) : j.Endures (j.drained cause) where
  extent := rfl
  isOn := (Job.isOn_of_drainable h).symm ▸ rfl
  completes := by rw [Job.not_completes_of_drainable h]; rfl
  sources _ := rfl
  published := rfl

theorem State.drainJob_eq (s : State) (j : JobId) (cause : EndCause) : s.drainJob j cause =
    if (s.job j).drainable then ((s.supersedePause j cause).withJob j (Job.drained cause)).askPublish else s := rfl

theorem State.aftermath_drainJob (s : State) (j : JobId) (cause : EndCause) : s.Aftermath ∅ (s.drainJob j cause) := by
  rw [State.drainJob_eq]
  split
  · rename_i drainable
    refine .trans (.trans (s.aftermath_supersedePause j cause) (State.aftermath_withJob _ j _ ?_))
      (State.aftermath_askPublish _)
    rw [State.supersedePause_job]
    exact Job.drained_endures cause drainable
  · exact .refl s

theorem State.aftermath_drainCounted (s : State) (counted : Option JobId) (e : ExtentId) :
    s.Aftermath ∅ (s.drainCounted counted e) := by
  unfold State.drainCounted
  split
  · exact .refl s
  · exact .ite (s.aftermath_withJob _ _ (.of_eq rfl rfl rfl rfl (fun _ => rfl) rfl)) (.refl s)

/-- A row that ends without completing changes of its job the rows in flight, the lane count and the count of lost
blocks. -/
theorem State.jobTakesRow_of_failure (s : State) (j : JobId) (row : Nat) {outcome : RowOutcome}
    (failure : outcome.completed = false) (copied : Bool) (t : RowTallies) :
    s.jobTakesRow j row outcome copied t =
      if (s.job j).inFlight.contains row then s.withJob j (Job.takeFailure row t) else s := by
  unfold State.jobTakesRow
  split
  · cases outcome with
    | done | doneWithLoss | recovered => cases failure
    | extentLost | targetLost | bufferFault | skipped => rfl
  · rfl

theorem State.aftermath_handOver (s : State) (owner : RowOwner) (row : Nat) {outcome : RowOutcome}
    (failure : outcome.completed = false) (copied : Bool) (t : RowTallies) (kept settled : Bool) :
    s.Aftermath ∅ (s.handOver owner row outcome copied t kept settled) := by
  cases owner with
  | job j =>
    rw [State.handOver, s.jobTakesRow_of_failure j row failure]
    exact .ite (s.aftermath_withJob _ _ (.of_eq rfl rfl rfl rfl (fun _ => rfl) rfl)) (.refl s)
  | slip i piece => exact .of_contexts fun _ => .refl _

theorem State.context_freeContext (s : State) (c d : ContextId) :
    (s.freeContext c).context d = if c = d then none else s.context d := bankModify_getElem _ _ _ _

/-- The operation of a context that has nothing running ends without completing. -/
theorem State.aftermath_endOperation {s : State} {c : ContextId} {outcome : RowOutcome}
    (failure : outcome.completed = false) (idle : ∀ op, s.context c = some op → op.phase.idle = true) :
    s.Aftermath ∅ (s.endOperation c outcome) := by
  unfold State.endOperation State.endOperationWith
  split
  · exact .refl s
  · rename_i op held
    have told := (s.aftermath_drainCounted op.countedBy op.extent).trans
      (State.aftermath_handOver _ op.owner op.row failure op.plan.copy op.tallies false false)
    refine told.trans (.of_contexts fun d => ?_)
    rw [State.context_freeContext]
    split
    · rename_i same
      subst same
      have follows := told.contexts c
      rw [held] at follows
      cases after : (((s.drainCounted op.countedBy op.extent).handOver op.owner op.row outcome op.plan.copy op.tallies
          false false)).context c with
      | none => exact .free
      | some op' =>
        rw [after] at follows
        cases follows with
        | goesOn goes => exact .ended (goes.phase ▸ idle op held)
    · exact .refl _

theorem State.aftermath_endWaiting (s : State) (r : RowRequest) {outcome : RowOutcome}
    (failure : outcome.completed = false) : s.Aftermath ∅ (s.endWaiting r outcome) :=
  ((s.aftermath_drainCounted _ _).trans (State.aftermath_handOver _ _ _ failure _ _ _ _)).trans
    (.of_contexts (fun _ => .refl _) (waits := List.filter_subset_self _))

/-- Operations that have nothing running end one after another. -/
theorem State.aftermath_endOperations {outcome : RowOutcome} (failure : outcome.completed = false)
    (l : List (ContextId × Operation)) {s : State}
    (idle : ∀ x ∈ l, ∀ op, s.context x.1 = some op → op.phase.idle = true) :
    s.Aftermath ∅ (l.foldl (fun s x => s.endOperation x.1 outcome) s) := by
  induction l generalizing s with
  | nil => exact .refl s
  | cons x rest ih =>
    have ended := State.aftermath_endOperation failure (idle x List.mem_cons_self)
    refine ended.trans (ih fun y mem op held => ?_)
    have follows := ended.contexts y.1
    rw [held] at follows
    obtain ⟨before, was, goes⟩ := follows.of_some
    exact goes.phase ▸ idle y (List.mem_cons_of_mem _ mem) before was

theorem State.mem_operations {s : State} {c : ContextId} {op : Operation} :
    (c, op) ∈ s.operations ↔ s.context c = some op := by
  simp only [State.operations, List.mem_filterMap, Option.map_eq_some_iff, mem_bankIndices, true_and]
  constructor
  · rintro ⟨d, op', held, same⟩
    cases same
    exact held
  · exact fun held => ⟨c, op, held, rfl⟩

theorem State.aftermath_endIdle (s : State) (which : RowOwner → ExtentId → Bool) {outcome : RowOutcome}
    (failure : outcome.completed = false) : s.Aftermath ∅ (s.endIdle which outcome) := by
  refine .trans (.foldl (fun s _ => s.aftermath_endWaiting _ failure) _ s)
    (State.aftermath_endOperations failure _ fun x mem op held => ?_)
  obtain ⟨listed, picked⟩ := List.mem_filter.mp mem
  have same : x.2 = op := Option.some.inj ((State.mem_operations.mp listed).symm.trans held)
  exact same ▸ (Bool.and_eq_true_iff.mp picked).1

/-- An operation that runs on an extent which has become LOST (R63; log 26). -/
def Operation.bereft (op : Operation) : Operation := { op with lostSeen := true, writesLeft := [] }

/-- The operation of a context withdraws what it has pending and remembers the loss of its extent. -/
def State.bereave (s : State) (c : ContextId) : State := (s.withdraw c).withOperation c Operation.bereft

theorem State.aftermath_bereave (s : State) (c : ContextId) : s.Aftermath ∅ (s.bereave c) :=
  (s.aftermath_withdraw c).trans (State.aftermath_withOperation _ _ _ fun _ _ => ⟨rfl, rfl, rfl, fun _ => rfl,
    fun _ h => h, List.nil_subset _⟩)

/-- The operations that run on an extent, with their contexts. -/
def State.runningOn (s : State) (e : ExtentId) : List (ContextId × Operation) :=
  s.operations.filter fun x => x.2.phase.running && x.2.extent == e

theorem State.loseRows_eq (s : State) (e : ExtentId) : s.loseRows e =
    ((s.endIdle (fun _ x => x == e) .extentLost).runningOn e).foldl (fun s x => s.bereave x.1)
      (s.endIdle (fun _ x => x == e) .extentLost) := by
  unfold State.loseRows State.runningOn State.bereave Operation.bereft
  with_reducible rfl

theorem State.aftermath_loseRows (s : State) (e : ExtentId) : s.Aftermath ∅ (s.loseRows e) := by
  rw [State.loseRows_eq]
  exact .trans (s.aftermath_endIdle _ (outcome := .extentLost) rfl)
    (.foldl (f := fun (s : State) (x : ContextId × Operation) => s.bereave x.1) (fun s x => s.aftermath_bereave x.1) _ _)

theorem State.aftermath_endTargetless (s : State) (j : JobId) : s.Aftermath ∅ (s.endTargetless j) :=
  .ite (s.aftermath_endIdle _ rfl) (.refl s)

/-! ## Member states and conditions -/

/-- An operation that waits for port `p` woken (R68). -/
def Operation.wakenFor (p : PortId) (op : Operation) : Operation :=
  if op.phase = .awaitMember ∧ op.waitSet.contains p then { op with woken := true } else op

theorem State.context_wake (s : State) (p : PortId) (c : ContextId) :
    (s.wake p).context c = (s.context c).map (Operation.wakenFor p) := bankMap_getElem _ _ _

theorem Operation.wakenFor_goesOn (p : PortId) (op : Operation) : op.GoesOn (op.wakenFor p) := by
  unfold Operation.wakenFor
  split
  · exact ⟨rfl, rfl, rfl, id, fun _ h => h, fun _ h => h⟩
  · exact .refl op

theorem State.aftermath_wake (s : State) (p : PortId) : s.Aftermath ∅ (s.wake p) := .of_contexts fun c => by
  rw [State.context_wake]
  cases s.context c with
  | none => exact .free
  | some op => exact .goesOn (op.wakenFor_goesOn p)

theorem State.aftermath_jobSeesCondition (s : State) (e : ExtentId) (c : Condition) :
    s.Aftermath ∅ (s.jobSeesCondition e c) := by
  have exposed : ∀ j, s.Aftermath ∅ (s.withJob j fun x => { x with exposed := c == .exposed }) := fun j =>
    s.aftermath_withJob j _ (.of_eq rfl rfl rfl rfl (fun _ => rfl) rfl)
  unfold State.jobSeesCondition
  split
  · exact .refl s
  · exact .ite ((exposed _).trans (State.aftermath_drainJob _ _ _)) (exposed _)

/-- What changes no condition changes none but those of `M`. -/
theorem State.Aftermath.within {M : Set ExtentId} {s t : State} (h : s.Aftermath ∅ t) : s.Aftermath M t :=
  { h with still := fun x _ => h.still x (Set.notMem_empty x) }

/-- What changes the condition of no entry but those of `M` changes that of none but those of a larger set. -/
theorem State.Aftermath.mono {M N : Set ExtentId} {s t : State} (h : s.Aftermath M t) (sub : M ⊆ N) :
    s.Aftermath N t :=
  { h with still := fun x out => h.still x fun mem => out (sub mem) }

/-- An entry in use given a condition other than UNUSED. -/
theorem State.aftermath_setCondition {s : State} {e : ExtentId} {c : Condition} (used : (s.extent e).inUse = true)
    (h : c ≠ .unused) : s.Aftermath {e} (s.withExtent e fun x => { x with condition := c }) :=
  { State.Aftermath.refl (M := {e}) s with
    extents := fun x => by
      rw [State.extent_withExtent]
      split <;> rfl
    inUse := fun x => by
      rw [State.extent_withExtent]
      split
      · rename_i same
        rw [← same, used]
        exact bne_iff_ne.mpr h
      · rfl
    still := fun x out => by rw [State.extent_withExtent, if_neg (Ne.symm out)]
    rest := s.restKept_withExtent e _ }

theorem State.aftermath_recompute (s : State) (e : ExtentId) : s.Aftermath {e} (s.recompute e) := by
  unfold State.recompute
  split
  · rename_i used
    have seen := (State.aftermath_setCondition used (s.conditionOf_ne_unused e)).trans
      ((State.aftermath_askPublish _).trans (State.aftermath_jobSeesCondition _ e (s.conditionOf e))).within
    exact .ite (.refl s) (.ite (seen.trans (State.aftermath_loseRows _ e).within) seen)
  · exact .refl s

theorem State.aftermath_loseTarget (p : PortId) {s : State} {j : JobId} (running : (s.job j).completes = false) :
    s.Aftermath ∅ (State.loseTarget p s j) := by
  have lost : ∀ {t : State}, s.Aftermath ∅ t → t.Aftermath ∅ (t.withJob j fun x => { x with targetless := true }) :=
    fun {t} _ => t.aftermath_withJob j _ (.of_eq rfl rfl rfl rfl (fun _ => rfl) rfl)
  have drains := s.aftermath_drainJob j .targetLost
  refine .ite ((s.aftermath_withJob j _ (.of_eq rfl rfl rfl rfl (fun ends => ?_) rfl)).trans
    (State.aftermath_askPublish _)) ((drains.trans (lost drains)).trans (State.aftermath_endTargetless _ _))
  rw [running] at ends
  cases ends

theorem State.aftermath_targetLost (s : State) (p : PortId) : s.Aftermath ∅ (s.targetLost p) := by
  have running : ∀ j ∈ (bankIndices 4).filter fun j =>
      (s.job j).isOn && !(s.job j).completes && (s.job j).ownTargets.contains p, (s.job j).completes = false := by
    intro j mem
    have picked := (List.mem_filter.mp mem).2
    simp only [Bool.and_eq_true, Bool.not_eq_true'] at picked
    obtain ⟨⟨-, running⟩, -⟩ := picked
    exact running
  have fold : ∀ (l : List JobId) (t : State), s.Aftermath ∅ t → (∀ j ∈ l, (s.job j).completes = false) →
      t.Aftermath ∅ (l.foldl (State.loseTarget p) t) := by
    intro l
    induction l with
    | nil => exact fun t _ _ => .refl t
    | cons j rest ih =>
      intro t h running
      have lost := State.aftermath_loseTarget p ((h.jobs j).completes.trans (running j List.mem_cons_self))
      exact lost.trans (ih _ (h.trans lost) fun k mem => running k (List.mem_cons_of_mem _ mem))
  exact fold _ s (.refl s) running

theorem State.aftermath_copyToReconstruct (s : State) (p : PortId) : s.Aftermath ∅ (s.copyToReconstruct p) := by
  unfold State.copyToReconstruct
  split
  · exact .refl s
  · exact (s.aftermath_withJob _ _ (.of_eq rfl rfl rfl rfl (fun _ => rfl) rfl)).trans (State.aftermath_askPublish _)

/-! ## A change of member state reported -/

/-- What follows a change of member state leaves every port in the extent that it was in. -/
theorem State.Aftermath.extentOfPort {M : Set ExtentId} {s t : State} (h : s.Aftermath M t) :
    t.extentOfPort = s.extentOfPort := by
  have jobOn : t.jobOn = s.jobOn := by
    funext e
    simp only [State.jobOn, (h.jobs _).isOn, (h.jobs _).extent]
  have completesOnto : t.completesOnto = s.completesOnto := by
    funext e p
    unfold State.completesOnto
    rw [jobOn]
    split
    · rfl
    · rename_i j _
      rw [(h.jobs j).completes]
      cases completes : (s.job j).completes with
      | false => rfl
      | true => rw [(h.jobs j).sources completes]
  funext p
  unfold State.extentOfPort
  congr 1
  funext e
  rw [h.inUse, h.extents, completesOnto]

/-- R9 gives the same condition afterwards. -/
theorem State.Aftermath.conditionOf {M : Set ExtentId} {s t : State} (h : s.Aftermath M t) (x : ExtentId) :
    t.conditionOf x = s.conditionOf x := by
  refine State.conditionOf_congr (by rw [h.extents]) (by rw [h.extents]) fun q _ => ?_
  obtain ⟨w, -, port⟩ := h.ports q
  rw [port]

/-- What a report of a member's change is to the jobs that its failure reaches. -/
def State.failureSeen (s : State) (p : PortId) : State :=
  if (s.port p).memberState = .failed then (s.copyToReconstruct p).targetLost p else s

theorem State.aftermath_failureSeen (s : State) (p : PortId) : s.Aftermath ∅ (s.failureSeen p) :=
  .ite ((s.aftermath_copyToReconstruct p).trans (State.aftermath_targetLost _ p)) (.refl s)

end Sys2Proof.Machine
end

section
/-! SUPPORT. A change of member state: what it is at the port, and what follows from it. -/

namespace Sys2Proof.Machine

/-! ## Endings told -/

/-- What an owner has been told stands, whatever follows. -/
theorem State.Told.aftermath {M : Set ExtentId} {s t : State} {p : PortId} {r : Request} {ending : Ending}
    (told : s.Told p r ending) (h : s.Aftermath M t) : t.Told p r ending := told.follows h.contexts

theorem State.Told.settle {s : State} {p : PortId} {r : Request} {ending : Ending} (told : s.Told p r ending) :
    s.settle.Told p r ending := fun c op owner held => told c op owner (by rwa [State.settle_context] at held)

/-! ## The requests of a port lost -/

/-- A port with no request outstanding or pending. -/
def Port.emptied (x : Port) : Port := { x with slots := Vector.replicate 8 none, waiting := [] }

theorem State.aftermath_loseRequests (s : State) (p : PortId) :
    (s.withPort p Port.emptied).Aftermath ∅ (s.loseRequests p) :=
  .foldl (f := fun (s : State) (r : Request) => s.deliverFailure p r .linkLost)
    (fun s r => s.aftermath_deliverFailure p r .linkLost) _ _

theorem State.told_loseRequests (s : State) (p : PortId) {r : Request} (mem : r ∈ (s.port p).allRequests) :
    (s.loseRequests p).Told p r .linkLost := State.told_deliverFailures p .linkLost mem _

theorem Port.mem_allRequests_of_waiting {x : Port} {r : Request} (mem : r ∈ x.waiting) : r ∈ x.allRequests :=
  List.mem_append_right _ mem

theorem Port.mem_allRequests_of_slot {x : Port} {i : Tag} {o : Outstanding} (held : x.slots[i.val] = some o) :
    o.request ∈ x.allRequests := by
  refine List.mem_append_left _ (List.mem_filterMap.mpr ⟨some o, ?_, rfl⟩)
  rw [Array.mem_toList_iff, Vector.mem_toArray_iff, ← held]
  exact Vector.getElem_mem _

/-! ## The report -/

/-- The extents of a port: the one that holds it, if there is one. -/
def State.extentsOf (s : State) (p : PortId) : Set ExtentId := { x | s.extentOfPort p = some x }

theorem State.extentsOf_withPort (s : State) (p q : PortId) (f : Port → Port) :
    (s.withPort p f).extentsOf q = s.extentsOf q := by
  have same : (s.withPort p f).extentOfPort = s.extentOfPort := State.extentOfPort_congr rfl rfl
  rw [State.extentsOf, same, State.extentsOf]

/-- The condition of the extent of a port recomputed. -/
def State.recomputeOf (s : State) (p : PortId) : State :=
  match s.extentOfPort p with
  | some e => s.recompute e
  | none => s

theorem State.reportMember_eq (s : State) (p : PortId) :
    s.reportMember p = ((s.askPublish.wake p).failureSeen p).recomputeOf p := rfl

theorem State.aftermath_recomputeOf (s : State) (p : PortId) : s.Aftermath (s.extentsOf p) (s.recomputeOf p) := by
  unfold State.extentsOf State.recomputeOf
  split
  · rename_i e held
    exact (s.aftermath_recompute e).mono fun x mem => by rw [Set.mem_singleton_iff.mp mem]; exact held
  · exact .refl s

theorem State.aftermath_wakeSeen (s : State) (p : PortId) : s.Aftermath ∅ ((s.wake p).failureSeen p) :=
  (s.aftermath_wake p).trans (State.aftermath_failureSeen _ p)

/-- What follows the publish asked for by a report. -/
theorem State.aftermath_reported (s : State) (p : PortId) :
    s.askPublish.Aftermath (s.extentsOf p) (s.reportMember p) := by
  have seen := s.askPublish.aftermath_wakeSeen p
  refine seen.within.trans ?_
  have same : s.extentsOf p = ((s.askPublish.wake p).failureSeen p).extentsOf p := by
    rw [State.extentsOf, State.extentsOf, seen.extentOfPort]
    rfl
  rw [same]
  exact State.aftermath_recomputeOf _ p

theorem State.aftermath_reportMember (s : State) (p : PortId) : s.Aftermath (s.extentsOf p) (s.reportMember p) :=
  s.aftermath_askPublish.within.trans (s.aftermath_reported p)

theorem State.reportMember_asked (s : State) (p : PortId) : (s.reportMember p).board.publishAsked = true :=
  (s.aftermath_reported p).asked rfl

theorem State.inUse_of_extentOfPort {s : State} {p : PortId} {e : ExtentId} (held : s.extentOfPort p = some e) :
    (s.extent e).inUse = true := by
  unfold State.extentOfPort at held
  have picked := List.find?_some held
  exact (Bool.and_eq_true_iff.mp picked).1

/-- A condition recomputed is that of R9. -/
theorem State.condition_recompute {s : State} {e : ExtentId} (used : (s.extent e).inUse = true) :
    ((s.recompute e).extent e).condition = s.conditionOf e := by
  unfold State.recompute
  rw [if_pos used]
  dsimp only
  split
  · rename_i same
    exact same.symm
  · have seen := (State.aftermath_askPublish (s.withExtent e fun x => { x with condition := s.conditionOf e })).trans
      (State.aftermath_jobSeesCondition _ e (s.conditionOf e))
    have set : ((s.withExtent e fun x => { x with condition := s.conditionOf e }).extent e).condition =
        s.conditionOf e := by rw [State.extent_withExtent_self]
    split
    · rw [(seen.trans (State.aftermath_loseRows _ e)).still e (Set.notMem_empty e), set]
    · rw [seen.still e (Set.notMem_empty e), set]

/-- After the report the extent of the port has the condition of R9. -/
theorem State.condition_reportMember {s : State} {p : PortId} {e : ExtentId} (held : s.extentOfPort p = some e) :
    ((s.reportMember p).extent e).condition = (s.reportMember p).conditionOf e := by
  have seen := s.askPublish.aftermath_wakeSeen p
  have same : ((s.askPublish.wake p).failureSeen p).extentOfPort p = some e := by
    rw [seen.extentOfPort]
    exact held
  rw [State.reportMember_eq, (State.aftermath_recomputeOf _ p).conditionOf, State.recomputeOf, same]
  exact State.condition_recompute (State.inUse_of_extentOfPort same)

/-! ## A member's becoming FAILED -/

theorem State.withPort_withPort (s : State) (p : PortId) (f g : Port → Port) :
    (s.withPort p f).withPort p g = s.withPort p (g ∘ f) := by simp [State.withPort, bankModify]

/-- A port whose member has become FAILED (R35). -/
def Port.fallen (x : Port) : Port :=
  { x with
    memberState := .failed, stalled := false, lapseCount := 0, slots := Vector.replicate 8 none, waiting := [] }

theorem State.failMember_eq (s : State) (p : PortId) :
    s.failMember p = (((s.withPort p fun x => { x.clearFlags with memberState := .failed }).loseRequests p).reportMember
      p) := rfl

/-- From the port fallen, its requests are lost. -/
theorem State.aftermath_fallen (s : State) (p : PortId) : (s.withPort p Port.fallen).Aftermath ∅
    ((s.withPort p fun x => { x.clearFlags with memberState := .failed }).loseRequests p) := by
  have lost := (s.withPort p fun x => { x.clearFlags with memberState := .failed }).aftermath_loseRequests p
  rw [State.withPort_withPort] at lost
  exact lost

/-- What a member's becoming FAILED does: its port falls, and the rest follows. -/
theorem State.aftermath_failMember (s : State) (p : PortId) :
    (s.withPort p Port.fallen).Aftermath (s.extentsOf p) (s.failMember p) := by
  have lost := s.aftermath_fallen p
  have same : s.extentsOf p =
      ((s.withPort p fun x => { x.clearFlags with memberState := .failed }).loseRequests p).extentsOf p := by
    rw [← s.extentsOf_withPort p p Port.fallen, State.extentsOf, ← lost.extentOfPort]
    rfl
  rw [State.failMember_eq, same]
  exact lost.within.trans (State.aftermath_reportMember _ p)

/-- Every request of the port has ended in link loss. -/
theorem State.told_failMember (s : State) (p : PortId) {r : Request} (mem : r ∈ (s.port p).allRequests) :
    (s.failMember p).Told p r .linkLost := by
  refine State.Told.aftermath (State.told_loseRequests _ p ?_) (State.aftermath_reportMember _ p)
  rw [State.port_withPort_self]
  exact mem

theorem State.failMember_asked (s : State) (p : PortId) : (s.failMember p).board.publishAsked = true :=
  State.reportMember_asked _ p

theorem State.condition_failMember {s : State} {p : PortId} {e : ExtentId} (held : s.extentOfPort p = some e) :
    ((s.failMember p).extent e).condition = (s.failMember p).conditionOf e := by
  refine State.condition_reportMember ?_
  rw [(s.aftermath_fallen p).extentOfPort]
  exact held

/-! ## Any other change of member state -/

/-- A port whose member has changed to a state other than FAILED (R22, R23). -/
def Port.become (new : MemberState) (x : Port) : Port :=
  if new.carries then { x with memberState := new } else { x.clearFlags with memberState := new }

theorem State.aftermath_moveMember (s : State) (p : PortId) (new : MemberState) :
    (s.withPort p (Port.become new)).Aftermath ∅ (s.moveMember p new) := by
  have emptied := (s.withPort p (Port.become new)).aftermath_dropWaiting p (fun _ => true) (.inl rfl)
  unfold State.dropWaiting at emptied
  simp only [Bool.not_true, List.filter_false, List.filter_true] at emptied
  exact .ite emptied (.refl _)

theorem State.extentOfPort_moveMember (s : State) (p : PortId) (new : MemberState) :
    (s.moveMember p new).extentOfPort = s.extentOfPort := by
  rw [(s.aftermath_moveMember p new).extentOfPort]
  rfl

theorem State.aftermath_changeMember (s : State) (p : PortId) (new : MemberState) :
    (s.withPort p (Port.become new)).Aftermath (s.extentsOf p) (s.changeMember p new) := by
  have same : s.extentsOf p = (s.moveMember p new).extentsOf p := by
    rw [State.extentsOf, State.extentsOf, State.extentOfPort_moveMember]
  rw [State.changeMember_eq, same]
  exact (s.aftermath_moveMember p new).within.trans (State.aftermath_reportMember _ p)

theorem State.changeMember_asked (s : State) (p : PortId) (new : MemberState) :
    (s.changeMember p new).board.publishAsked = true := State.reportMember_asked _ p

theorem State.condition_changeMember {s : State} {p : PortId} {e : ExtentId} (new : MemberState)
    (held : s.extentOfPort p = some e) :
    ((s.changeMember p new).extent e).condition = (s.changeMember p new).conditionOf e := by
  rw [State.changeMember_eq]
  refine State.condition_reportMember ?_
  rw [State.extentOfPort_moveMember]
  exact held

/-! ## The end of the step -/

/-- What a step keeps when its operations keep the rest. -/
theorem State.RestKept.settle {s u : State} (h : s.RestKept u) :
    u.settle.losses = s.losses ∧ s.SamePacing u.settle ∧ u.settle.pending = s.pending ∧ s.SameRegisters u.settle ∧
      s.SameSweep u.settle := by
  refine ⟨(State.settle_losses u).trans h.losses, ⟨?_, ?_, ?_⟩, (State.settle_pending u).trans h.pending, ?_, ?_⟩
  · exact (State.settle_settings u).trans h.settings
  · exact (State.settle_time u).trans h.time
  · exact (State.settle_guard u).trans h.guard
  · simp only [State.SameRegisters, State.settle_base, State.settle_generation, State.settle_engine,
      State.settle_quiesced, State.settle_causes, State.settle_enables, State.settle_resetKind, State.settle_clean,
      State.settle_abandoned, State.settle_slipsWritten, State.settle_pagesWritten, State.settle_cuts]
    rw [h.board]
    exact ⟨rfl, rfl, rfl, rfl, rfl, rfl, rfl, rfl, rfl, rfl, rfl, rfl⟩
  · simp only [State.SameSweep, State.settle_roundPointer, State.settle_taken, State.settle_sweep,
      State.settle_sweepPending, State.settle_deferred]
    rw [h.board]
    exact ⟨rfl, rfl, rfl, rfl, rfl⟩

/-- A publish asked for is published, where what was done keeps the rest and the published frontiers. -/
theorem State.RestKept.publishes {s u : State} (h : s.RestKept u) (asked : u.board.publishAsked = true)
    (published : ∀ j, (u.job j).publishedFrontier = (s.job j).publishedFrontier) : s.Publishes u.settle :=
  State.publishes_settle asked (by rw [h.board]) (by rw [h.board]) published

theorem State.RestKept.silent {s u : State} (h : s.RestKept u) (asked : u.board.publishAsked = false)
    (published : ∀ j, (u.job j).publishedFrontier = (s.job j).publishedFrontier) : s.Silent u.settle :=
  State.silent_settle asked (by rw [h.board]) (by rw [h.board]) published

theorem State.RestKept.answerBegins {s u : State} (h : s.RestKept u) : s.AnswerBegins u.settle :=
  State.answerBegins_settle (by rw [h.board])

/-- A step at the ports, from `s` to `t`: the ports, the operations in contexts and the publish state apart, everything is
as it was, the jobs' published frontiers excepted. -/
structure State.PortStep (s t : State) : Prop where
  rows : t.rows = { s.rows with contexts := t.rows.contexts }
  extents : t.extents = s.extents
  losses : t.losses = s.losses
  solver : t.solver = s.solver
  holds : t.holds = s.holds
  requests : t.requests = s.requests
  jobs : s.SameJobs t
  pacing : s.SamePacing t
  pending : t.pending = s.pending
  registers : s.SameRegisters t
  sweep : s.SameSweep t
  answers : s.Answers t []
  begins : s.AnswerBegins t

namespace State.MovesPorts

variable {s u : State} (h : s.MovesPorts u)
include h

theorem restKept : s.RestKept u :=
  ⟨h.losses, h.settings, h.time, h.guard, h.pending, by rw [h.board]⟩

theorem portStep : s.PortStep u.settle := by
  obtain ⟨losses, pacing, pending, registers, sweep⟩ := h.restKept.settle
  exact {
    rows := by
      rw [State.settle_rows]
      exact congrArg State.rows h
    extents := (State.settle_extents u).trans h.extents
    losses := losses
    solver := (State.settle_solver u).trans h.solver
    holds := (State.settle_holds u).trans h.holds
    requests := (State.settle_requests u).trans h.requests
    jobs := State.sameJobs_settle (.of_eq h.jobs)
    pacing := pacing
    pending := pending
    registers := registers
    sweep := sweep
    answers := by rw [State.Answers, State.settle_answers, h.board, List.append_nil]
    begins := h.restKept.answerBegins }

theorem published (j : JobId) : (u.job j).publishedFrontier = (s.job j).publishedFrontier := by
  rw [State.job, h.jobs, State.job]

theorem publishes (asked : u.board.publishAsked = true) : s.Publishes u.settle := h.restKept.publishes asked h.published

theorem silent (asked : u.board.publishAsked = false) : s.Silent u.settle := h.restKept.silent asked h.published

end State.MovesPorts

theorem State.movesPorts_withPort (s : State) (p : PortId) (f : Port → Port) : s.MovesPorts (s.withPort p f) := rfl

theorem State.movesPorts_askPublish (s : State) : s.MovesPorts s.askPublish := rfl

theorem State.movesPorts_withOperation (s : State) (c : ContextId) (f : Operation → Operation) :
    s.MovesPorts (s.withOperation c f) := rfl

/-- The conditions of R9 do not look at the end of a step. -/
theorem State.conditionOf_settle (s : State) (x : ExtentId) : s.settle.conditionOf x = s.conditionOf x :=
  State.conditionOf_congr (by rw [State.settle_extent]) (by rw [State.settle_extent])
    fun q _ => by rw [State.settle_port]

end Sys2Proof.Machine
end

section
/-! O34: LINK_UP and LINK_DOWN. -/

namespace Sys2Proof.Machine

/-- From `s` to `t` the state is that of `s` with port `p` changed by `f`, and what follows from it. -/
theorem State.Aftermath.port_self {M : Set ExtentId} {s t : State} {p : PortId} {f : Port → Port}
    (h : (s.withPort p f).Aftermath M t) :
    ∃ w, w.Sublist (f (s.port p)).waiting ∧ t.port p = { f (s.port p) with waiting := w } := by
  have port := h.ports p
  rwa [State.port_withPort_self] at port

/-- The member of another port is as it was. -/
theorem State.Aftermath.sameMember {M : Set ExtentId} {s t : State} {p q : PortId} {f : Port → Port}
    (h : (s.withPort p f).Aftermath M t) (other : q ≠ p) : (s.port q).SameMember (t.port q) := by
  obtain ⟨w, -, port⟩ := h.ports q
  rw [State.port_withPort, if_neg (Ne.symm other)] at port
  rw [port]
  exact ⟨rfl, rfl, rfl, rfl, rfl, rfl, rfl, rfl, rfl, rfl, rfl⟩

/-- What a change at the ports does to the rest with what follows from it, once the step has ended: conditions change at
most in `M`, and the publish asked for is published. -/
theorem State.Aftermath.settled {M : Set ExtentId} {s v u : State} (h : v.Aftermath M u) (moves : s.MovesPorts v)
    (asked : u.board.publishAsked = true) :
    (∀ x, x ∉ M → u.settle.extent x = s.extent x) ∧ u.settle.losses = s.losses ∧ s.SamePacing u.settle ∧
      u.settle.pending = s.pending ∧ s.SameRegisters u.settle ∧ s.SameSweep u.settle ∧ s.Publishes u.settle := by
  have rest := moves.restKept.trans h.rest
  obtain ⟨losses, pacing, pending, registers, sweep⟩ := rest.settle
  exact ⟨fun x out => (State.settle_extent u x).trans ((h.still x out).trans (moves.extent x)), losses, pacing, pending,
    registers, sweep, rest.publishes asked fun j => ((h.jobs j).published).trans (moves.published j)⟩

theorem State.withPort_congr {s : State} {p : PortId} {f g : Port → Port} (h : f (s.port p) = g (s.port p)) :
    s.withPort p f = s.withPort p g := by
  have h : f s.ports[p.val] = g s.ports[p.val] := h
  simp only [State.withPort, bankModify, h]

/-- What follows a change also follows it where the port was changed besides, its pending list apart. -/
theorem State.Aftermath.withPort {M : Set ExtentId} {s t : State} (h : s.Aftermath M t) (p : PortId) {f : Port → Port}
    (apart : ∀ x w, f { x with waiting := w } = { f x with waiting := w }) :
    (s.withPort p f).Aftermath M (t.withPort p f) :=
  { h with
    ports := fun q => by
      obtain ⟨w, sub, port⟩ := h.ports q
      rw [State.port_withPort, State.port_withPort]
      split
      · have waiting := congrArg Port.waiting (apart (s.port q) (s.port q).waiting)
        refine ⟨w, ?_, by rw [port, apart]⟩
        rw [show (f (s.port q)).waiting = (s.port q).waiting from waiting]
        exact sub
      · exact ⟨w, sub, port⟩
    told := fun q r mem => by
      have kept : ∀ x : Port, (f x).waiting = x.waiting := fun x => (congrArg Port.waiting (apart x x.waiting) :)
      have same : ∀ u : State, ((u.withPort p f).port q).waiting = (u.port q).waiting := fun u => by
        rw [State.port_withPort]
        split
        · exact kept _
        · rfl
      rw [same] at mem ⊢
      exact h.told q r mem
    rest := { h.rest with } }

/-! ## LINK_DOWN -/

/-- A port whose link has gone down (R36). -/
def Port.unlinked (x : Port) : Port :=
  match x.memberState with
  | .online | .target => { x.fallen with link := .down }
  | .spare | .released => { x.emptied.clearFlags with memberState := .absent, link := .down }
  | .absent | .failed => { x.emptied with link := .down }

/-- The state in which LINK_DOWN finds the member. -/
def State.linkLost (s : State) (p : PortId) : State := (s.withPort p fun x => { x with link := .down }).askPublish

theorem State.linkLost_withPort (s : State) (p : PortId) (f : Port → Port) :
    (s.linkLost p).withPort p f = (s.withPort p fun x => f { x with link := .down }).askPublish := by
  show ((s.withPort p _).withPort p f).askPublish = _
  rw [State.withPort_withPort]
  rfl

theorem State.extentOfPort_linkLost (s : State) (p : PortId) : (s.linkLost p).extentOfPort = s.extentOfPort :=
  State.extentOfPort_congr rfl rfl

theorem State.port_linkLost (s : State) (p : PortId) : (s.linkLost p).port p = { s.port p with link := .down } :=
  State.port_withPort_self s p _

theorem State.extentsOf_linkLost (s : State) (p : PortId) : (s.linkLost p).extentsOf p = s.extentsOf p := by
  rw [State.extentsOf, State.extentsOf, State.extentOfPort_linkLost]

/-- What LINK_DOWN at port `p` of `s` has done in `u`, the end of the step apart: the port has lost its link and its
requests, its member has changed, and the rest follows. -/
structure State.LinkDowned (s : State) (p : PortId) (u : State) : Prop where
  follows : (s.withPort p Port.unlinked).Aftermath (s.extentsOf p) u
  asked : u.board.publishAsked = true
  told : ∀ r ∈ (s.port p).allRequests, u.Told p r .linkLost
  condition : ∀ e, s.extentOfPort p = some e → (s.port p).memberState = .online ∨ (s.port p).memberState = .target →
    (u.extent e).condition = u.conditionOf e

/-- The requests of a port are those that it has after its link has gone down. -/
theorem State.allRequests_linkLost (s : State) (p : PortId) :
    ((s.linkLost p).port p).allRequests = (s.port p).allRequests := by
  rw [State.port_linkLost]
  rfl

/-- The port changed after the link has gone down is the port unlinked. -/
theorem State.aftermath_unlinked {s : State} {p : PortId} {f : Port → Port}
    (h : (s.port p).unlinked = f { s.port p with link := .down }) :
    (s.withPort p Port.unlinked).Aftermath ∅ ((s.linkLost p).withPort p f) := by
  rw [State.linkLost_withPort, State.withPort_congr (f := Port.unlinked) (g := fun x => f { x with link := .down }) h]
  exact State.aftermath_askPublish _

/-- An ONLINE or TARGET member fails. -/
theorem State.linkDowned_failMember {s : State} {p : PortId}
    (serves : (s.port p).unlinked = { (s.port p).fallen with link := .down }) :
    s.LinkDowned p ((s.linkLost p).failMember p) where
  follows := by
    refine .trans (State.aftermath_unlinked (f := Port.fallen) serves).within ?_
    rw [← s.extentsOf_linkLost]
    exact State.aftermath_failMember _ p
  asked := State.failMember_asked _ p
  told r mem := State.told_failMember _ p (by rwa [State.allRequests_linkLost])
  condition e held _ := State.condition_failMember (by rwa [State.extentOfPort_linkLost])

/-- A port that no member serves loses its requests, and nothing else follows. -/
theorem State.linkDowned_loseRequests {s : State} {p : PortId}
    (idle : (s.port p).unlinked = { (s.port p).emptied with link := .down })
    (bare : ¬ ((s.port p).memberState = .online ∨ (s.port p).memberState = .target)) :
    s.LinkDowned p ((s.linkLost p).loseRequests p) where
  follows := ((State.aftermath_unlinked (f := Port.emptied) idle).trans (State.aftermath_loseRequests _ p)).within
  asked := ((State.aftermath_loseRequests _ p)).asked rfl
  told r mem := State.told_loseRequests _ p (by rwa [State.allRequests_linkLost])
  condition e _ serves := absurd serves bare

/-- A SPARE or RELEASED member becomes ABSENT. -/
theorem State.linkDowned_changeMember {s : State} {p : PortId}
    (idle : (s.port p).unlinked = { (s.port p).emptied.clearFlags with memberState := .absent, link := .down })
    (bare : ¬ ((s.port p).memberState = .online ∨ (s.port p).memberState = .target)) :
    s.LinkDowned p (((s.linkLost p).loseRequests p).changeMember p .absent) where
  follows := by
    have emptied := State.aftermath_loseRequests (s.linkLost p) p
    have become := emptied.withPort p (f := Port.become .absent) fun _ _ => rfl
    rw [State.withPort_withPort] at become
    have changed := State.aftermath_changeMember ((s.linkLost p).loseRequests p) p .absent
    have extents : ((s.linkLost p).loseRequests p).extentsOf p = s.extentsOf p := by
      rw [State.extentsOf, emptied.extentOfPort]
      exact (State.extentsOf_withPort _ p p _).trans (s.extentsOf_linkLost p)
    rw [extents] at changed
    exact ((State.aftermath_unlinked (f := Port.become .absent ∘ Port.emptied) idle).trans become).within.trans changed
  asked := State.changeMember_asked _ p .absent
  told r mem := by
    have told := State.told_loseRequests (s.linkLost p) p (r := r) (by rwa [State.allRequests_linkLost])
    have told : (((s.linkLost p).loseRequests p).withPort p (Port.become .absent)).Told p r .linkLost := told
    exact told.aftermath (State.aftermath_changeMember _ p .absent)
  condition e _ serves := absurd serves bare

theorem execLinkDown_spec (s : State) (p : PortId) : ∃ u : State, execLinkDown p s = u.done ∧ s.LinkDowned p u := by
  have here : ((s.linkLost p).port p).memberState = (s.port p).memberState := by rw [State.port_linkLost]
  have run : execLinkDown p s = match ((s.linkLost p).port p).memberState with
      | .online | .target => ((s.linkLost p).failMember p).done
      | .spare | .released => (((s.linkLost p).loseRequests p).changeMember p .absent).done
      | .absent | .failed => ((s.linkLost p).loseRequests p).done := rfl
  rw [run, here]
  cases state : (s.port p).memberState with
  | online => exact ⟨_, rfl, State.linkDowned_failMember (by rw [Port.unlinked, state])⟩
  | target => exact ⟨_, rfl, State.linkDowned_failMember (by rw [Port.unlinked, state])⟩
  | spare => exact ⟨_, rfl, State.linkDowned_changeMember (by rw [Port.unlinked, state]) (by simp [state])⟩
  | released => exact ⟨_, rfl, State.linkDowned_changeMember (by rw [Port.unlinked, state]) (by simp [state])⟩
  | absent => exact ⟨_, rfl, State.linkDowned_loseRequests (by rw [Port.unlinked, state]) (by simp [state])⟩
  | failed => exact ⟨_, rfl, State.linkDowned_loseRequests (by rw [Port.unlinked, state]) (by simp [state])⟩

/-- The port after LINK_DOWN: its member carries no flag, and it holds no request. -/
theorem Port.unlinked_spec {x : Port} (legal : x.legal) :
    x.unlinked.memberState = (match x.memberState with
        | .online | .target | .failed => .failed
        | .spare | .released | .absent => .absent) ∧
      x.unlinked.link = .down ∧ x.unlinked.stalled = false ∧ x.unlinked.lapseCount = 0 ∧
      x.unlinked.slots = Vector.replicate 8 none ∧ x.unlinked.waiting = [] ∧
      x.unlinked.issueNumber = x.issueNumber := by
  unfold Port.legal at legal
  unfold Port.unlinked
  cases state : x.memberState <;> rw [state] at legal
  case absent => exact ⟨state, rfl, (legal rfl).1, (legal rfl).2, rfl, rfl, rfl⟩
  case failed => exact ⟨state, rfl, (legal rfl).1, (legal rfl).2, rfl, rfl, rfl⟩
  all_goals exact ⟨rfl, rfl, rfl, rfl, rfl, rfl, rfl⟩

/-- Settles O34: LINK_UP changes the link alone, and LINK_DOWN is a change of the port with what follows from it. -/
theorem linkEvents : Obligations.LinkEvents := by
  intro s p rest
  refine ⟨⟨_, rfl, ?_⟩, fun legal => ?_⟩
  · have moves : s.MovesPorts (s.withPort p fun x => { x with link := .up }).askPublish :=
      (s.movesPorts_withPort p _).trans (State.movesPorts_askPublish _)
    have step := moves.portStep
    refine ⟨?_, fun q other => ?_, step.extents, step.losses, ⟨State.settle_rows _, step.solver, step.holds, step.requests⟩,
      step.jobs, step.pacing, step.pending, step.registers, step.sweep, step.answers, moves.publishes rfl, step.begins⟩
    · rw [State.settle_port]
      exact s.port_withPort_self p _
    · rw [State.settle_port]
      exact (s.port_withPort p q _).trans (if_neg (Ne.symm other))
  · obtain ⟨u, run, down⟩ := execLinkDown_spec s p
    obtain ⟨w, sub, port⟩ := down.follows.port_self
    obtain ⟨extents, losses, pacing, pending, registers, sweep, publishes⟩ := down.follows.settled (s.movesPorts_withPort p _) down.asked
    obtain ⟨state, link, stalled, lapses, slots, waiting, issues⟩ := Port.unlinked_spec legal
    rw [waiting, List.sublist_nil] at sub
    refine ⟨u.settle, run, ?_⟩
    rw [State.settle_port, port]
    refine ⟨state, link, stalled, lapses, slots, sub, fun r mem => ?_, fun i o held => ?_, issues, fun q other => ?_,
      fun e held serves => ?_, extents, losses, pacing, pending, registers, sweep, publishes⟩
    · exact (down.told r (Port.mem_allRequests_of_waiting mem)).settle
    · exact (down.told _ (Port.mem_allRequests_of_slot held)).settle
    · rw [State.settle_port]
      exact down.follows.sameMember other
    · rw [State.settle_extent, State.conditionOf_settle]
      exact down.condition e held serves

end Sys2Proof.Machine
end

section
/-! SUPPORT and O53: every command leaves a port legal that was legal (R23). A stall is set on an ONLINE or TARGET member
alone (`State.keepsLegal_stallEvidence`), and a member that leaves these states loses its flags (`Port.become_legal`,
`Port.fallen_legal`); nothing else touches either. -/

namespace Sys2Proof.Machine

/-- Every port that is legal in `s` is legal in `t`. -/
structure State.KeepsLegal (s t : State) : Prop where
  legal : ∀ p, (s.port p).legal → (t.port p).legal

namespace State.KeepsLegal

theorem refl (s : State) : s.KeepsLegal s := ⟨fun _ => id⟩

theorem trans {s t u : State} (h : s.KeepsLegal t) (k : t.KeepsLegal u) : s.KeepsLegal u :=
  ⟨fun p => k.legal p ∘ h.legal p⟩

theorem ite {s t u : State} {c : Prop} [Decidable c] (h : s.KeepsLegal t) (k : s.KeepsLegal u) :
    s.KeepsLegal (if c then t else u) := by
  split
  · exact h
  · exact k

theorem foldl {α : Type} {f : State → α → State} (h : ∀ (s : State) (x : α), s.KeepsLegal (f s x)) (l : List α)
    (s : State) : s.KeepsLegal (l.foldl f s) := by
  induction l generalizing s with
  | nil => exact refl s
  | cons x rest ih => exact (h s x).trans (ih _)

theorem of_ports {s t : State} (ports : t.ports = s.ports) : s.KeepsLegal t :=
  ⟨fun p legal => by rwa [State.port, ports]⟩

/-- The end of a step leaves the ports alone. -/
theorem done {s t : State} (h : s.KeepsLegal t) : Lands s.KeepsLegal t.done :=
  .next (h.trans (of_ports t.settle_ports))

/-- An answer leaves the ports alone. -/
theorem answer {s t : State} (h : s.KeepsLegal t) {i : SlipId} {status : Status} {reason : Reason}
    {body : List BodyField} : s.KeepsLegal (t.answer i status reason body) := h.trans (of_ports rfl)

end State.KeepsLegal

theorem lands_keepsLegal_idle (s : State) : Lands s.KeepsLegal (.next s) := .next (.refl s)

/-! ## The ports -/

theorem State.Aftermath.keepsLegal {M : Set ExtentId} {s t : State} (h : s.Aftermath M t) : s.KeepsLegal t := by
  refine ⟨fun p legal => ?_⟩
  obtain ⟨w, -, port⟩ := h.ports p
  rw [port]
  exact legal

theorem State.keepsLegal_withPort (s : State) (p : PortId) {f : Port → Port}
    (h : (s.port p).legal → (f (s.port p)).legal) : s.KeepsLegal (s.withPort p f) := by
  refine ⟨fun q legal => ?_⟩
  rw [State.port_withPort]
  split
  · rename_i same
    subst same
    exact h legal
  · exact legal

/-- A change of a port that leaves its member, its stall and its lapse count alone. -/
theorem State.keepsLegal_withPort_same (s : State) (p : PortId) (f : Port → Port)
    (h : ∀ x : Port, (f x).legal = x.legal := by intros; rfl) : s.KeepsLegal (s.withPort p f) :=
  s.keepsLegal_withPort p fun legal => by rwa [h]

theorem Port.fallen_legal (x : Port) : x.fallen.legal := fun _ => ⟨rfl, rfl⟩

theorem Port.become_legal (new : MemberState) (x : Port) : (x.become new).legal := by
  unfold Port.become
  split
  · rename_i carries
    intro bare
    rw [show new.carries = false from bare] at carries
    cases carries
  · exact fun _ => ⟨rfl, rfl⟩

theorem State.keepsLegal_failMember (s : State) (p : PortId) : s.KeepsLegal (s.failMember p) :=
  (s.keepsLegal_withPort p fun _ => Port.fallen_legal _).trans (s.aftermath_failMember p).keepsLegal

theorem State.keepsLegal_changeMember (s : State) (p : PortId) (new : MemberState) :
    s.KeepsLegal (s.changeMember p new) :=
  (s.keepsLegal_withPort p fun _ => Port.become_legal new _).trans (s.aftermath_changeMember p new).keepsLegal

theorem State.keepsLegal_turnMember (s : State) (p : PortId) (old new : MemberState) :
    s.KeepsLegal (s.turnMember p old new) := .ite (s.keepsLegal_changeMember p new) (.refl s)

theorem State.keepsLegal_submit (s : State) (p : PortId) (r : Request) : s.KeepsLegal (s.submit p r) :=
  .ite (s.keepsLegal_withPort_same p _) (s.aftermath_deliverFailure p r .linkLost).keepsLegal

theorem State.keepsLegal_submitReads (s : State) (c : ContextId) (op : Operation) (reads : List PlanRead) :
    s.KeepsLegal (s.submitReads c op reads) := .foldl (fun s _ => s.keepsLegal_submit _ _) reads s

theorem State.keepsLegal_issueOne {s t : State} {p : PortId} (h : s.issueOne p = some t) : s.KeepsLegal t := by
  unfold State.issueOne at h
  split at h
  · cases h
    exact s.keepsLegal_withPort_same p _
  · cases h

theorem State.keepsLegal_runArbiter (n : Nat) (s : State) (p : PortId) : s.KeepsLegal (State.runArbiter n s p) := by
  induction n generalizing s with
  | zero => exact .refl s
  | succ n ih =>
    unfold State.runArbiter
    split
    · exact (State.keepsLegal_issueOne ‹_›).trans (ih _)
    · exact .refl s

theorem State.keepsLegal_deliverWritten (s : State) (p : PortId) (r : Request) :
    s.KeepsLegal (s.deliverWritten p r) := by
  unfold State.deliverWritten
  split
  · exact .refl s
  · dsimp only
    split
    · exact .of_ports (by rfl)
    · split
      · exact .of_ports (by rfl)
      · split
        · exact .of_ports (by rfl)
        · exact .trans (.of_ports (by rfl)) (State.keepsLegal_submit _ _ _)

/-! ## Stalls -/

/-- Evidence of a stall on an ONLINE or TARGET member, whose port may carry one. -/
theorem State.keepsLegal_stallEvidence {s : State} {p : PortId} (carries : (s.port p).memberState.carries = true)
    (slot : Tag) (block : Nat) : s.KeepsLegal (s.stallEvidence p slot block) := by
  have flagged : ∀ f : Port → Port, (f (s.port p)).memberState = (s.port p).memberState → s.KeepsLegal (s.withPort p f) :=
    fun f same => s.keepsLegal_withPort p fun _ bare => by
      rw [same, carries] at bare
      cases bare
  have stalled : ∀ (f : Port → Port) (b : Bool), (f (s.port p)).memberState = (s.port p).memberState →
      s.KeepsLegal ((s.withPort p f).askPublishIf b) := fun f b same =>
    (flagged f same).trans (by cases b <;> exact .of_ports (by rfl))
  exact .ite ((flagged _ rfl).trans (State.keepsLegal_failMember _ p))
    (.ite (stalled _ _ rfl) ((stalled _ _ rfl).trans (State.keepsLegal_withPort_same _ p _)))

theorem State.keepsLegal_clearStall (s : State) (p : PortId) : s.KeepsLegal (s.clearStall p) := by
  have cleared : s.KeepsLegal (s.withPort p Port.clearFlags) := s.keepsLegal_withPort p fun _ _ => ⟨rfl, rfl⟩
  have woken : s.KeepsLegal (((s.withPort p Port.clearFlags).askPublish).wake p) := cleared.trans (.of_ports (by rfl))
  exact .ite (.ite (woken.trans (State.keepsLegal_runArbiter 8 _ p))
    (s.keepsLegal_withPort p fun legal bare => ⟨(legal bare).1, rfl⟩)) (.refl s)

theorem State.keepsLegal_writeFailure (s : State) (p : PortId) : s.KeepsLegal (s.writeFailure p) :=
  .ite (s.keepsLegal_failMember p) (.refl s)

/-! ## The ends and phases of row operations -/

theorem State.drainCounted_ports (s : State) (counted : Option JobId) (e : ExtentId) :
    (s.drainCounted counted e).ports = s.ports := by
  unfold State.drainCounted
  split
  · rfl
  · split <;> rfl

theorem State.askPublishIf_ports (s : State) (b : Bool) : (s.askPublishIf b).ports = s.ports := by cases b <;> rfl

theorem State.jobTakesRow_ports (s : State) (j : JobId) (row : Nat) (outcome : RowOutcome) (copied : Bool)
    (t : RowTallies) : (s.jobTakesRow j row outcome copied t).ports = s.ports := by
  unfold State.jobTakesRow
  split
  · cases outcome with
    | done | doneWithLoss | recovered => exact State.askPublishIf_ports _ _
    | extentLost | targetLost | bufferFault | skipped => rfl
  · rfl

theorem State.handOver_ports (s : State) (owner : RowOwner) (row : Nat) (outcome : RowOutcome) (copied : Bool)
    (t : RowTallies) (kept settled : Bool) : (s.handOver owner row outcome copied t kept settled).ports = s.ports := by
  cases owner with
  | job j => exact s.jobTakesRow_ports j row outcome copied t
  | slip i piece => rfl

theorem State.keepsLegal_endOperationWith (s : State) (c : ContextId) (outcome : RowOutcome) (kept settled : Bool) :
    s.KeepsLegal (s.endOperationWith c outcome kept settled) := by
  unfold State.endOperationWith
  split
  · exact .refl s
  · exact .of_ports ((State.handOver_ports _ _ _ _ _ _ _ _).trans (State.drainCounted_ports _ _ _))

theorem State.keepsLegal_endOperation (s : State) (c : ContextId) (outcome : RowOutcome) :
    s.KeepsLegal (s.endOperation c outcome) := s.keepsLegal_endOperationWith c outcome false false

theorem State.keepsLegal_beginWrites (s : State) (c : ContextId) (op : Operation) (d : PortId × Nat × List Nat) :
    s.KeepsLegal (s.beginWrites c op d) := by
  unfold State.beginWrites
  split
  · exact .refl s
  · exact .trans (.of_ports (by rfl)) (State.keepsLegal_submit _ _ _)

theorem State.keepsLegal_submitWrites (s : State) (c : ContextId) : s.KeepsLegal (s.submitWrites c) := by
  unfold State.submitWrites
  split
  · exact .refl s
  · exact .foldl (fun s _ => s.keepsLegal_beginWrites _ _ _) _ s

theorem State.keepsLegal_enterPlace (s : State) (c : ContextId) : s.KeepsLegal (s.enterPlace c) := by
  unfold State.enterPlace
  split
  · exact .refl s
  · exact .ite (.of_ports (by rfl)) (.trans (.of_ports (by rfl)) (State.keepsLegal_submitWrites _ _))

theorem State.keepsLegal_placeAsRead (s : State) (c : ContextId) : s.KeepsLegal (s.placeAsRead c) :=
  .trans (.of_ports (by rfl)) (State.keepsLegal_enterPlace _ _)

theorem State.keepsLegal_takePlan (s : State) (c : ContextId) : s.KeepsLegal (s.takePlan c) := by
  unfold State.takePlan
  split
  · exact .refl s
  · split
    · exact s.keepsLegal_endOperation _ _
    · exact .of_ports (by rfl)
    · exact .ite (.trans (.of_ports (by rfl)) (State.keepsLegal_placeAsRead _ _))
        (.ite (.trans (.of_ports (by rfl)) (State.keepsLegal_submitReads _ _ _ _)) (.of_ports (by rfl)))

theorem State.keepsLegal_evaluate (s : State) (c : ContextId) : s.KeepsLegal (s.evaluate c) := by
  unfold State.evaluate
  split
  · exact .refl s
  · exact .ite (.ite (s.keepsLegal_endOperation _ _) (.of_ports (by rfl)))
      (.ite (.trans (.of_ports (by rfl)) (State.keepsLegal_takePlan _ _))
        (.ite (.trans (.of_ports (by rfl)) (State.keepsLegal_submitReads _ _ _ _))
          (.ite (.ite (.of_ports (by rfl)) (.of_ports (by rfl))) (.ite (s.keepsLegal_placeAsRead _) (.of_ports (by rfl))))))

theorem State.keepsLegal_endReads (s : State) (c : ContextId) : s.KeepsLegal (s.endReads c) := by
  unfold State.endReads
  split
  · exact .refl s
  · split
    · exact s.keepsLegal_endOperation _ _
    · exact .ite (s.keepsLegal_endOperation _ _) (s.keepsLegal_evaluate _)

theorem State.keepsLegal_insertLosses (s : State) (ranges : List LossEntry) : s.KeepsLegal (s.insertLosses ranges) :=
  .of_ports (State.askPublishIf_ports _ _)

theorem State.removeLossRange_ports (s : State) (e : ExtentId) (low high : Nat) :
    (s.removeLossRange e low high).1.ports = s.ports := State.askPublishIf_ports _ _

theorem State.keepsLegal_completeSolve (s : State) (c : ContextId) : s.KeepsLegal (s.completeSolve c) := by
  unfold State.completeSolve
  split
  · exact .of_ports (by rfl)
  · have listed : ∀ (f : Operation → Operation) (ranges : List LossEntry), s.KeepsLegal
        (((s.withOperation c f).withSolver fun v => { v with busy := none }).insertLosses ranges) := fun f ranges =>
      .trans (.of_ports (by rfl)) (State.keepsLegal_insertLosses _ ranges)
    dsimp only
    split
    · exact (listed _ _).trans (State.keepsLegal_endOperation _ _ _)
    · exact (listed _ _).trans (State.keepsLegal_enterPlace _ _)

theorem State.keepsLegal_removeCovered (s : State) (op : Operation) : s.KeepsLegal (s.removeCovered op).1 := by
  have fold : ∀ (l : List RequestedRun) (acc : State × Bool), acc.1.KeepsLegal (l.foldl (fun acc r =>
      let first := (s.extent op.extent).arrayBlock op.row r.strip r.first
      let out := acc.1.removeLossRange op.extent first (first + r.count - 1)
      (out.1, acc.2 || decide (0 < out.2.kept))) acc).1 := by
    intro l
    induction l with
    | nil => exact fun acc => .refl _
    | cons r rest ih => exact fun acc => .trans (.of_ports (acc.1.removeLossRange_ports _ _ _)) (ih (_, _))
  exact fold op.requested (s, false)

theorem State.keepsLegal_settleRow (s : State) (e : ExtentId) (row : Nat) : s.KeepsLegal (s.settleRow e row).1 := by
  unfold State.settleRow
  split
  · exact .of_ports (by rfl)
  · exact .refl s

theorem State.keepsLegal_endPlace (s : State) (c : ContextId) : s.KeepsLegal (s.endPlace c) := by
  unfold State.endPlace
  split
  · exact .refl s
  · split
    · exact s.keepsLegal_endOperation _ _
    · split
      · exact (s.keepsLegal_removeCovered _).trans (State.keepsLegal_endOperationWith _ _ _ _ _)
      · exact (s.keepsLegal_settleRow _ _).trans (State.keepsLegal_endOperationWith _ _ _ _ _)
      · exact s.keepsLegal_endOperation _ _
      · exact s.keepsLegal_endOperation _ _

/-! ## Resets -/

theorem State.answerIf_ports (s : State) (i : Option SlipId) (status : Status) (reason : Reason) (body : List BodyField) :
    (s.answerIf i status reason body).ports = s.ports := by cases i <;> rfl

/-- The record of a job ended, and its slips answered. -/
theorem State.keepsLegal_answerEnded (s : State) (j : JobId) (cause : Option EndCause) (status : Status) :
    s.KeepsLegal ((((s.endJob j cause).answerEnd j).answerEndedControl j status).askPublish) :=
  .of_ports ((State.answerIf_ports _ _ _ _ _).trans (State.answerIf_ports _ _ _ _ _))

theorem State.keepsLegal_placeTargets (s : State) (j : JobId) : s.KeepsLegal (s.placeTargets j) := by
  have turned : ∀ l : List Source,
      s.KeepsLegal (l.foldl (fun s (x : Source) => s.turnMember x.target .target .online) s) := fun l =>
    .foldl (fun s x => s.keepsLegal_turnMember _ _ _) l s
  have listed : ∀ (t : State) (f : Extent → Extent), t.KeepsLegal (t.withExtent (s.job j).extent f) := fun _ _ =>
    .of_ports (by rfl)
  have recomputed : ∀ t : State, t.KeepsLegal (t.askPublish.recompute (s.job j).extent) := fun t =>
    .trans (.of_ports (by rfl)) (State.aftermath_recompute _ _).keepsLegal
  unfold State.placeTargets
  dsimp only
  split
  · exact (((turned _).trans (listed _ _)).trans (State.keepsLegal_turnMember _ _ _ _)).trans (recomputed _)
  · exact ((turned _).trans (listed _ _)).trans (recomputed _)

theorem State.keepsLegal_completeJob (s : State) (j : JobId) : s.KeepsLegal (s.completeJob j) :=
  (s.keepsLegal_placeTargets j).trans (State.keepsLegal_answerEnded _ j _ _)

theorem State.keepsLegal_completeDue (s : State) : s.KeepsLegal s.completeDue :=
  .foldl (fun s j => .ite (s.keepsLegal_completeJob j) (.refl s)) _ s

/-- After an engine reset no port carries a stall (R24). -/
theorem State.keepsLegal_engineReset (kind : ResetKind) (s : State) : s.KeepsLegal (s.engineReset kind) := by
  have reset : ∀ (t : State) (rows : RowEngine) (losses : LossList), t.KeepsLegal { t with
      rows := rows, solver := { busy := none, queue := [] }, holds := { entries := [], granted := [] }, requests := []
      ports := bankMap Port.engineReset t.ports, losses := losses } := fun t _ _ => ⟨fun p _ => by
    simp only [State.port, bankMap_getElem]
    exact fun _ => ⟨rfl, rfl⟩⟩
  have orphaned : ∀ (t : State) (jobs : Vector Job 4) (time : TimeBase) (guard : LoadGuard) (board : Board),
      t.KeepsLegal { t with jobs := jobs, time := time, guard := guard, board := board } := fun _ _ _ _ _ =>
    .of_ports rfl
  exact ((s.keepsLegal_completeDue.trans (reset _ _ _)).trans
    (.foldl (fun s t => s.keepsLegal_changeMember t .spare) s.completeDue.resetTargets _)).trans (orphaned _ _ _ _ _)

/-! ## The board and the slips -/

theorem execSweepHolderRead_keepsLegal (holder : Byte) (s : State) :
    Lands s.KeepsLegal (execSweepHolderRead holder s) := by
  unfold execSweepHolderRead
  split
  · exact lands_keepsLegal_idle s
  · exact State.KeepsLegal.done (.of_ports (by rfl))

theorem execTakenWrite_keepsLegal (s : State) : Lands s.KeepsLegal (execTakenWrite s) := by
  unfold execTakenWrite
  split
  · exact lands_keepsLegal_idle s
  · exact State.KeepsLegal.done (.of_ports (by rfl))

theorem execAnswerWrite_keepsLegal (s : State) : Lands s.KeepsLegal (execAnswerWrite s) := by
  unfold execAnswerWrite
  split
  · exact State.KeepsLegal.done (.of_ports (by rfl))
  · exact lands_keepsLegal_idle s

theorem execPublish_keepsLegal (s : State) : Lands s.KeepsLegal (execPublish s) := by
  unfold execPublish
  split
  · exact lands_keepsLegal_idle s
  · exact State.KeepsLegal.done (.of_ports (by rfl))

theorem State.takeSlip_ports {s t : State} {tag : BitVec 64} {i : SlipId} (h : s.takeSlip tag = some (i, t)) :
    t.ports = s.ports := by
  unfold State.takeSlip at h
  split at h
  · cases h
  · cases h
    rfl

theorem State.keepsLegal_takeSlip {s t : State} {tag : BitVec 64} {i : SlipId} (h : s.takeSlip tag = some (i, t)) :
    s.KeepsLegal t := .of_ports (State.takeSlip_ports h)

/-- A slip taken, and then a change that leaves the ports alone. -/
theorem State.keepsLegal_slip {s t u : State} {tag : BitVec 64} {i : SlipId} (h : s.takeSlip tag = some (i, t))
    (ports : u.ports = t.ports) : Lands s.KeepsLegal u.done :=
  ((State.keepsLegal_takeSlip h).trans (.of_ports ports)).done

theorem execBadKind_keepsLegal (kind : Byte) (tag : BitVec 64) (s : State) :
    Lands s.KeepsLegal (execBadKind kind tag s) := by
  unfold execBadKind
  split
  · exact State.keepsLegal_slip ‹_› (by rfl)
  · exact lands_keepsLegal_idle s

theorem execSettings_keepsLegal (tag : BitVec 64) (body : SlipBody) (s : State) :
    Lands s.KeepsLegal (execSettings tag body s) := by
  unfold execSettings
  split
  · exact lands_keepsLegal_idle s
  · rename_i u taken
    have applied : s.KeepsLegal (u.applySettings (settingsFields body)) :=
      (State.keepsLegal_takeSlip taken).trans (.of_ports (by rfl))
    have failed : ∀ t : State, t.KeepsLegal t.failStalled := fun t =>
      .foldl (fun s _ => .ite (s.keepsLegal_failMember _) (.refl s)) _ t
    exact .ite (State.keepsLegal_slip taken rfl)
      ((applied.trans (.ite (failed _) (.refl _))).trans (.of_ports (by rfl))).done

theorem execMember_keepsLegal (tag : BitVec 64) (body : SlipBody) (s : State) :
    Lands s.KeepsLegal (execMember tag body s) := by
  unfold execMember
  split
  · exact lands_keepsLegal_idle s
  · have taken := State.keepsLegal_takeSlip ‹_›
    split
    · exact State.keepsLegal_slip ‹_› (by rfl)
    · refine .ite (State.keepsLegal_slip ‹_› (by rfl)) ?_
      split
      · exact State.keepsLegal_slip ‹_› (by rfl)
      · exact ((taken.trans (.ite (State.keepsLegal_failMember _ _) (State.keepsLegal_changeMember _ _ _))).trans
          (.of_ports (by rfl))).done

theorem State.keepsLegal_defineExtent (s : State) (i : ExtentId) (e : Extent) : s.KeepsLegal (s.defineExtent i e) :=
  .trans (.foldl (fun s p => .ite (s.keepsLegal_changeMember p .online) (.refl s)) e.targets s) (.of_ports (by rfl))

theorem execExtentDefine_keepsLegal (tag : BitVec 64) (body : SlipBody) (s : State) :
    Lands s.KeepsLegal (execExtentDefine tag body s) := by
  unfold execExtentDefine
  split
  · exact lands_keepsLegal_idle s
  · split
    · exact State.keepsLegal_slip ‹_› (by rfl)
    · refine .ite (State.keepsLegal_slip ‹_› (by rfl)) ?_
      split
      · exact State.keepsLegal_slip ‹_› (by rfl)
      · exact (State.KeepsLegal.answer ((State.keepsLegal_takeSlip ‹_›).trans (State.keepsLegal_defineExtent _ _ _))).done

theorem State.keepsLegal_clearExtent (s : State) (i : ExtentId) : s.KeepsLegal (s.clearExtent i) :=
  .trans (.foldl (fun s p => s.keepsLegal_changeMember p .spare) _ s) (.of_ports (by rfl))

theorem execExtentClear_keepsLegal (tag : BitVec 64) (body : SlipBody) (s : State) :
    Lands s.KeepsLegal (execExtentClear tag body s) := by
  unfold execExtentClear
  split
  · exact lands_keepsLegal_idle s
  · split
    · exact State.keepsLegal_slip ‹_› (by rfl)
    · refine .ite (State.keepsLegal_slip ‹_› (by rfl)) ?_
      split
      · exact State.keepsLegal_slip ‹_› (by rfl)
      · exact (((State.keepsLegal_takeSlip ‹_›).trans (State.keepsLegal_clearExtent _ _)).trans (.of_ports (by rfl))).done

theorem State.keepsLegal_acceptRebuild (s : State) (slip : SlipId) (f : RebuildFields) (plan : RebuildPlan) (j : JobId) :
    s.KeepsLegal (s.acceptRebuild slip f plan j) := by
  have marked : ∀ job : Job, s.KeepsLegal ((s.withJob j fun _ => job).markCounted plan.extent j) := fun _ => .of_ports (by rfl)
  exact ((marked _).trans (.foldl (fun s (x : Source) => s.keepsLegal_changeMember x.target .target) _ _)).trans
    (.of_ports (by rfl))

theorem execRebuild_keepsLegal (tag : BitVec 64) (body : SlipBody) (s : State) :
    Lands s.KeepsLegal (execRebuild tag body s) := by
  unfold execRebuild
  split
  · exact lands_keepsLegal_idle s
  · dsimp only
    split
    · exact State.keepsLegal_slip ‹_› (by rfl)
    · exact ((State.keepsLegal_takeSlip ‹_›).trans (State.keepsLegal_acceptRebuild _ _ _ _ _)).done

theorem execJobctlPause_keepsLegal (tag : BitVec 64) (body : SlipBody) (s : State) :
    Lands s.KeepsLegal (execJobctlPause tag body s) := by
  unfold execJobctlPause
  split
  · exact lands_keepsLegal_idle s
  · split
    · exact State.keepsLegal_slip ‹_› (by rfl)
    · refine .ite (State.keepsLegal_slip ‹_› ?_) (State.keepsLegal_slip ‹_› (by rfl))
      unfold State.pauseJob
      split <;> rfl

theorem execJobctlResume_keepsLegal (tag : BitVec 64) (body : SlipBody) (s : State) :
    Lands s.KeepsLegal (execJobctlResume tag body s) := by
  unfold execJobctlResume
  split
  · exact lands_keepsLegal_idle s
  · split
    · exact State.keepsLegal_slip ‹_› (by rfl)
    · refine .ite (State.keepsLegal_slip ‹_› ?_) (State.keepsLegal_slip ‹_› (by rfl))
      unfold State.resumeJob
      split <;> rfl

theorem execJobctlAbort_keepsLegal (tag : BitVec 64) (body : SlipBody) (s : State) :
    Lands s.KeepsLegal (execJobctlAbort tag body s) := by
  unfold execJobctlAbort
  split
  · exact lands_keepsLegal_idle s
  · split
    · exact State.keepsLegal_slip ‹_› (by rfl)
    · exact .ite (((State.keepsLegal_takeSlip ‹_›).trans (State.aftermath_drainJob _ _ _).keepsLegal).trans
        (.of_ports (by rfl))).done (State.keepsLegal_slip ‹_› (by rfl))

theorem execJobctlChange_keepsLegal (tag : BitVec 64) (body : SlipBody) (s : State) :
    Lands s.KeepsLegal (execJobctlChange tag body s) := by
  unfold execJobctlChange
  split
  · exact lands_keepsLegal_idle s
  · split
    · exact State.keepsLegal_slip ‹_› (by rfl)
    · have changed : ∀ (u : State) (b : Bool), u.KeepsLegal (u.askPublishIf b) := fun u b =>
        .of_ports (u.askPublishIf_ports b)
      exact .ite (((State.keepsLegal_takeSlip ‹_›).trans (.of_ports (by rfl))).trans (changed _ _)).done
        (State.keepsLegal_slip ‹_› (by rfl))

theorem State.markNamed_ports (s : State) (slip : SlipId) (extent : Nat) : (s.markNamed slip extent).ports = s.ports := by
  unfold State.markNamed
  split <;> rfl

theorem State.takeTransfer_ports (s : State) (slip : SlipId) (kind : ForegroundKind) (f : TransferFields) :
    (s.takeTransfer slip kind f).ports = s.ports := by
  unfold State.takeTransfer
  dsimp only
  split <;> exact s.markNamed_ports _ _

theorem execRead_keepsLegal (tag : BitVec 64) (body : SlipBody) (s : State) :
    Lands s.KeepsLegal (execRead tag body s) := by
  unfold execRead
  split
  · exact lands_keepsLegal_idle s
  · exact State.keepsLegal_slip ‹_› (State.takeTransfer_ports _ _ _ _)

theorem execWrite_keepsLegal (tag : BitVec 64) (body : SlipBody) (s : State) :
    Lands s.KeepsLegal (execWrite tag body s) := by
  unfold execWrite
  split
  · exact lands_keepsLegal_idle s
  · exact State.keepsLegal_slip ‹_› (State.takeTransfer_ports _ _ _ _)

theorem execResync_keepsLegal (tag : BitVec 64) (body : SlipBody) (s : State) :
    Lands s.KeepsLegal (execResync tag body s) := by
  unfold execResync
  split
  · exact lands_keepsLegal_idle s
  · dsimp only
    split
    · exact State.keepsLegal_slip ‹_› (State.markNamed_ports _ _ _)
    · exact State.keepsLegal_slip ‹_› (State.markNamed_ports _ _ _)

theorem execLossesExport_keepsLegal (tag : BitVec 64) (body : SlipBody) (s : State) :
    Lands s.KeepsLegal (execLossesExport tag body s) := by
  unfold execLossesExport
  split
  · exact lands_keepsLegal_idle s
  · exact .ite (State.keepsLegal_slip ‹_› (by rfl)) (State.keepsLegal_slip ‹_› (by rfl))

theorem execLossesImport_keepsLegal (tag : BitVec 64) (body : SlipBody) (s : State) :
    Lands s.KeepsLegal (execLossesImport tag body s) := by
  unfold execLossesImport
  split
  · exact lands_keepsLegal_idle s
  · dsimp only
    split
    · exact State.keepsLegal_slip ‹_› (by rfl)
    · exact .ite (State.keepsLegal_slip ‹_› (by rfl)) (.ite (State.keepsLegal_slip ‹_› (by rfl)) (State.keepsLegal_slip ‹_› (by rfl)))

theorem execLossesRemove_keepsLegal (tag : BitVec 64) (body : SlipBody) (s : State) :
    Lands s.KeepsLegal (execLossesRemove tag body s) := by
  unfold execLossesRemove
  split
  · exact lands_keepsLegal_idle s
  · dsimp only
    split
    · exact State.keepsLegal_slip ‹_› (by rfl)
    · exact State.keepsLegal_slip ‹_› (State.removeLossRange_ports _ _ _ _)

theorem execExportEnd_keepsLegal (slip : SlipId) (fault : Bool) (s : State) :
    Lands s.KeepsLegal (execExportEnd slip fault s) := by
  unfold execExportEnd
  split
  · exact lands_keepsLegal_idle s
  · split
    · exact lands_keepsLegal_idle s
    · exact .ite (State.KeepsLegal.done (.of_ports (by rfl))) (State.KeepsLegal.done (.of_ports (by rfl)))

theorem execImportCompletion_keepsLegal (slip : SlipId) (records : Option (List RecordBytes)) (s : State) :
    Lands s.KeepsLegal (execImportCompletion slip records s) := by
  unfold execImportCompletion
  split
  · exact lands_keepsLegal_idle s
  · split
    · exact lands_keepsLegal_idle s
    · dsimp only
      split
      · exact State.KeepsLegal.done (.of_ports (by rfl))
      · refine .ite (State.KeepsLegal.done (.of_ports (by rfl))) ?_
        split
        · exact State.KeepsLegal.done (.of_ports (by rfl))
        · exact State.KeepsLegal.done (.of_ports (State.askPublishIf_ports _ _))

/-! ## Time and the member ports -/

theorem execTick_keepsLegal (s : State) : Lands s.KeepsLegal (execTick s) := by
  refine .next ⟨fun p legal => ?_⟩
  show ((bankMap Port.tick s.ports)[p.val]).legal
  rw [bankMap_getElem]
  exact legal

theorem State.keepsLegal_freeSlot (s : State) (p : PortId) (slot : Tag) : s.KeepsLegal (s.freeSlot p slot) :=
  s.keepsLegal_withPort_same p _

theorem State.deliverRead_ports (s : State) (p : PortId) (r : Request) (ending : Ending) (contents : List Block) :
    (s.deliverRead p r ending contents).ports = s.ports := by
  unfold State.deliverRead
  split <;> rfl

theorem State.keepsLegal_replyGood (s : State) (p : PortId) (r : Request) (contents : List Block) :
    s.KeepsLegal (s.replyGood p r contents) := by
  unfold State.replyGood
  split
  · exact .trans (.of_ports (s.deliverRead_ports _ _ _ _)) (State.keepsLegal_clearStall _ p)
  · exact s.keepsLegal_clearStall p
  · exact .trans (.trans (.ite (s.keepsLegal_withPort_same p _) (.refl s)) (State.keepsLegal_deliverWritten _ p r))
      (State.keepsLegal_clearStall _ p)

theorem State.keepsLegal_replyUnreadable (s : State) (p : PortId) (r : Request) (offsets : List Nat)
    (contents : List Block) : s.KeepsLegal (s.replyUnreadable p r offsets contents) := by
  have counted := s.keepsLegal_withPort_same p fun x =>
    { x with unreadableBlocks := x.unreadableBlocks + BitVec.ofNat 32 offsets.length }
  unfold State.replyUnreadable
  dsimp only
  split
  · exact (counted.trans (.of_ports (State.deliverRead_ports _ _ _ _ _))).trans (State.keepsLegal_clearStall _ p)
  · exact counted.trans (State.keepsLegal_clearStall _ p)
  · exact counted

theorem State.keepsLegal_endUnanswered (s : State) (p : PortId) (slot : Tag) (r : Request) (ending : Ending) :
    s.KeepsLegal (s.endUnanswered p slot r ending) := by
  have evidence : ∀ t : State, t.KeepsLegal
      (if (t.port p).memberState.carries then t.stallEvidence p slot r.memberBlock else t) := by
    intro t
    split
    · exact State.keepsLegal_stallEvidence ‹_› slot r.memberBlock
    · exact .refl t
  refine (s.aftermath_deliverFailure p r ending).keepsLegal.trans ?_
  unfold State.endUnanswered
  dsimp only
  split
  · exact State.keepsLegal_writeFailure _ p
  · exact evidence _
  · exact evidence _

theorem execDriveReply_keepsLegal (p : PortId) (reply : Reply) (s : State) :
    Lands s.KeepsLegal (execDriveReply p reply s) := by
  have freed := s.keepsLegal_freeSlot p reply.tag
  unfold execDriveReply
  split
  · exact ((s.keepsLegal_withPort_same p _).trans (State.keepsLegal_clearStall _ p)).done
  · dsimp only
    split
    · exact (freed.trans (State.keepsLegal_replyGood _ _ _ _)).done
    · exact (freed.trans (State.keepsLegal_replyUnreadable _ _ _ _ _)).done
    · exact (freed.trans (State.keepsLegal_endUnanswered _ _ _ _ _)).done
    · exact (freed.trans (State.keepsLegal_endUnanswered _ _ _ _ _)).done

theorem execLapse_keepsLegal (p : PortId) (slot : Tag) (s : State) : Lands s.KeepsLegal (execLapse p slot s) := by
  unfold execLapse
  split
  · exact lands_keepsLegal_idle s
  · exact .ite (((s.keepsLegal_freeSlot p slot).trans (State.keepsLegal_withPort_same _ p _)).trans
      (State.keepsLegal_endUnanswered _ _ _ _ _)).done (lands_keepsLegal_idle s)

theorem execRequestIssue_keepsLegal (p : PortId) (s : State) : Lands s.KeepsLegal (execRequestIssue p s) := by
  unfold execRequestIssue
  split
  · exact (State.keepsLegal_issueOne ‹_›).done
  · exact lands_keepsLegal_idle s

theorem execLinkUp_keepsLegal (p : PortId) (s : State) : Lands s.KeepsLegal (execLinkUp p s) :=
  ((s.keepsLegal_withPort_same p fun x => { x with link := .up }).trans (.of_ports (by rfl))).done

theorem execLinkDown_keepsLegal (p : PortId) (s : State) : Lands s.KeepsLegal (execLinkDown p s) := by
  obtain ⟨u, run, down⟩ := execLinkDown_spec s p
  have unlinked : s.KeepsLegal (s.withPort p Port.unlinked) := s.keepsLegal_withPort p fun legal _ =>
    have ⟨_, _, stalled, lapses, _⟩ := Port.unlinked_spec legal
    ⟨stalled, lapses⟩
  rw [run]
  exact (unlinked.trans down.follows.keepsLegal).done

/-! ## Row operations -/

theorem execContextGrant_keepsLegal (s : State) : Lands s.KeepsLegal (execContextGrant s) := by
  unfold execContextGrant
  split
  · split
    · exact State.KeepsLegal.done (.of_ports ((State.handOver_ports _ _ _ _ _ _ _ _).trans (s.drainCounted_ports _ _)))
    · exact State.KeepsLegal.done (.of_ports (by rfl))
  · exact lands_keepsLegal_idle s

theorem State.decideTargets_ports (s : State) (c : ContextId) : (s.decideTargets c).ports = s.ports := by
  unfold State.decideTargets
  split
  · rfl
  · split <;> rfl

theorem State.keepsLegal_decideTargets (s : State) (c : ContextId) : s.KeepsLegal (s.decideTargets c) :=
  .of_ports (s.decideTargets_ports c)

theorem State.keepsLegal_withHolds (s : State) (f : HoldTable → HoldTable) : s.KeepsLegal (s.withHolds f) := .of_ports rfl

theorem execHoldGrant_keepsLegal (s : State) : Lands s.KeepsLegal (execHoldGrant s) := by
  unfold execHoldGrant
  split
  · exact lands_keepsLegal_idle s
  · exact (((s.keepsLegal_withHolds _).trans (State.keepsLegal_decideTargets _ _)).trans (State.keepsLegal_takePlan _ _)).done

theorem execFrameGrant_keepsLegal (s : State) : Lands s.KeepsLegal (execFrameGrant s) := by
  unfold execFrameGrant
  split
  · exact lands_keepsLegal_idle s
  · split
    · exact lands_keepsLegal_idle s
    · split
      · exact (s.keepsLegal_endOperation _ _).done
      · exact .ite (State.KeepsLegal.trans (.of_ports (by rfl)) (State.keepsLegal_submitReads _ _ _ _)).done
          (lands_keepsLegal_idle s)

theorem execBufferFetchEnd_keepsLegal (c : ContextId) (fetched : Option (List Block)) (s : State) :
    Lands s.KeepsLegal (execBufferFetchEnd c fetched s) := by
  unfold execBufferFetchEnd
  split
  · exact lands_keepsLegal_idle s
  · refine .ite ?_ (lands_keepsLegal_idle s)
    split <;> exact State.KeepsLegal.done (.of_ports (by rfl))

theorem execGatherEnd_keepsLegal (c : ContextId) (s : State) : Lands s.KeepsLegal (execGatherEnd c s) := by
  unfold execGatherEnd
  split
  · exact lands_keepsLegal_idle s
  · exact .ite (s.keepsLegal_endReads _).done (lands_keepsLegal_idle s)

theorem execSupplementEnd_keepsLegal (c : ContextId) (s : State) : Lands s.KeepsLegal (execSupplementEnd c s) := by
  unfold execSupplementEnd
  split
  · exact lands_keepsLegal_idle s
  · exact .ite (s.keepsLegal_endReads _).done (lands_keepsLegal_idle s)

theorem execAwaitMemberWake_keepsLegal (c : ContextId) (s : State) : Lands s.KeepsLegal (execAwaitMemberWake c s) := by
  unfold execAwaitMemberWake
  split
  · exact lands_keepsLegal_idle s
  · exact .ite (s.keepsLegal_takePlan _).done (lands_keepsLegal_idle s)

theorem execSolverTakeHead_keepsLegal (s : State) : Lands s.KeepsLegal (execSolverTakeHead s) := by
  unfold execSolverTakeHead
  split
  · split
    · exact State.KeepsLegal.done (.of_ports (by rfl))
    · split
      · exact (s.keepsLegal_endOperation _ _).done
      · exact State.KeepsLegal.done (.of_ports (by rfl))
  · exact lands_keepsLegal_idle s

theorem execSolveCompletion_keepsLegal (s : State) : Lands s.KeepsLegal (execSolveCompletion s) := by
  unfold execSolveCompletion
  split
  · exact lands_keepsLegal_idle s
  · exact (s.keepsLegal_completeSolve _).done

theorem execBufferDeliveryEnd_keepsLegal (c : ContextId) (fault : Bool) (s : State) :
    Lands s.KeepsLegal (execBufferDeliveryEnd c fault s) := by
  have ended : ∀ op, s.KeepsLegal (s.endDelivery c op) := fun op =>
    .ite (.of_ports (by rfl)) (.trans (.of_ports (by rfl)) (State.keepsLegal_submitWrites _ _))
  unfold execBufferDeliveryEnd
  split
  · exact lands_keepsLegal_idle s
  · refine .ite (.ite ?_ (ended _).done) (lands_keepsLegal_idle s)
    split
    · exact (s.keepsLegal_endOperation _ _).done
    · exact (s.keepsLegal_endOperation _ _).done

theorem execPlaceEnd_keepsLegal (c : ContextId) (s : State) : Lands s.KeepsLegal (execPlaceEnd c s) := by
  unfold execPlaceEnd
  split
  · exact lands_keepsLegal_idle s
  · exact .ite (s.keepsLegal_endPlace _).done (lands_keepsLegal_idle s)

/-! ## Jobs and requests -/

theorem State.answerPause_ports (s : State) (j : JobId) : (s.answerPause j).ports = s.ports := by
  unfold State.answerPause
  split <;> rfl

theorem execAbortingDrainEnd_keepsLegal (j : JobId) (s : State) : Lands s.KeepsLegal (execAbortingDrainEnd j s) :=
  .ite (State.KeepsLegal.trans (.foldl (fun s t => s.keepsLegal_turnMember t .target .spare) _ s)
    (State.keepsLegal_answerEnded _ j _ _)).done (lands_keepsLegal_idle s)

theorem execPieceStart_keepsLegal (slip : SlipId) (s : State) : Lands s.KeepsLegal (execPieceStart slip s) := by
  unfold execPieceStart
  split
  · exact lands_keepsLegal_idle s
  · refine .ite ?_ (lands_keepsLegal_idle s)
    split
    · exact State.KeepsLegal.done (.ite (.of_ports (by rfl)) (.of_ports (by rfl)))
    · exact lands_keepsLegal_idle s

theorem execRequestFinish_keepsLegal (slip : SlipId) (s : State) : Lands s.KeepsLegal (execRequestFinish slip s) := by
  unfold execRequestFinish
  split
  · exact lands_keepsLegal_idle s
  · exact .ite (State.KeepsLegal.done (.of_ports (by rfl))) (lands_keepsLegal_idle s)

/-! ## Every command -/

/-- Every command leaves a port legal that was legal. -/
theorem exec_keepsLegal (i : Instr) (s : State) : Lands s.KeepsLegal (exec i s) := by
  have still : ∀ {t : State}, t.ports = s.ports → Lands s.KeepsLegal t.done := fun ports =>
    State.KeepsLegal.done (.of_ports ports)
  have idle := lands_keepsLegal_idle s
  cases i with
  | powerOnReset =>
    refine .next ⟨fun p _ => ?_⟩
    show (State.reset.port p).legal
    rw [State.reset_port]
    exact fun _ => ⟨rfl, rfl⟩
  | linkReset => exact .next (s.keepsLegal_engineReset _)
  | run => exact .ite (still rfl) idle
  | quiesce => exact .ite (still rfl) idle
  | reset => exact .next (s.keepsLegal_engineReset _)
  | boardBase access value => exact .ite (.next (.of_ports (by rfl))) idle
  | sweep value => exact .ite (still rfl) idle
  | attention value => exact .next (.of_ports (by rfl))
  | enableSet value => exact .next (.of_ports (by rfl))
  | enableClear value => exact .next (.of_ports (by rfl))
  | registerWriteIgnored offset value => exact idle
  | sweepHolderRead holder => exact execSweepHolderRead_keepsLegal holder s
  | takenWrite => exact execTakenWrite_keepsLegal s
  | settings tag body => exact execSettings_keepsLegal tag body s
  | member tag body => exact execMember_keepsLegal tag body s
  | extentDefine tag body => exact execExtentDefine_keepsLegal tag body s
  | extentClear tag body => exact execExtentClear_keepsLegal tag body s
  | rebuild tag body => exact execRebuild_keepsLegal tag body s
  | jobctlPause tag body => exact execJobctlPause_keepsLegal tag body s
  | jobctlResume tag body => exact execJobctlResume_keepsLegal tag body s
  | jobctlAbort tag body => exact execJobctlAbort_keepsLegal tag body s
  | jobctlChange tag body => exact execJobctlChange_keepsLegal tag body s
  | read tag body => exact execRead_keepsLegal tag body s
  | write tag body => exact execWrite_keepsLegal tag body s
  | resync tag body => exact execResync_keepsLegal tag body s
  | lossesExport tag body => exact execLossesExport_keepsLegal tag body s
  | lossesImport tag body => exact execLossesImport_keepsLegal tag body s
  | lossesRemove tag body => exact execLossesRemove_keepsLegal tag body s
  | badKind kind tag => exact execBadKind_keepsLegal kind tag s
  | answerWrite => exact execAnswerWrite_keepsLegal s
  | publish => exact execPublish_keepsLegal s
  | boardFault access => exact .ite (still rfl) idle
  | quiesceComplete => exact .ite (still rfl) idle
  | tick => exact execTick_keepsLegal s
  | lapse port slot => exact execLapse_keepsLegal port slot s
  | sweepTimerExpiry => exact .ite (still rfl) idle
  | periodRestart => exact .ite (.next (.of_ports (by rfl))) idle
  | guardHot => exact .ite (still rfl) idle
  | guardCool => exact .ite (still rfl) idle
  | driveReply port reply => exact execDriveReply_keepsLegal port reply s
  | linkUp port => exact execLinkUp_keepsLegal port s
  | linkDown port => exact execLinkDown_keepsLegal port s
  | requestIssue port => exact execRequestIssue_keepsLegal port s
  | contextGrant => exact execContextGrant_keepsLegal s
  | holdGrant => exact execHoldGrant_keepsLegal s
  | frameGrant => exact execFrameGrant_keepsLegal s
  | bufferFetchEnd context fetched => exact execBufferFetchEnd_keepsLegal context fetched s
  | gatherEnd context => exact execGatherEnd_keepsLegal context s
  | supplementEnd context => exact execSupplementEnd_keepsLegal context s
  | awaitMemberWake context => exact execAwaitMemberWake_keepsLegal context s
  | solverTakeHead => exact execSolverTakeHead_keepsLegal s
  | solveCompletion => exact execSolveCompletion_keepsLegal s
  | bufferDeliveryEnd context fault => exact execBufferDeliveryEnd_keepsLegal context fault s
  | placeEnd context => exact execPlaceEnd_keepsLegal context s
  | jobRowStart job => exact .ite (still rfl) idle
  | startingDrainEnd job => exact .ite (still rfl) idle
  | pausingDrainEnd job => exact .ite (still (State.answerPause_ports _ job)) idle
  | abortingDrainEnd job => exact execAbortingDrainEnd_keepsLegal job s
  | jobCompletion job => exact .ite (s.keepsLegal_completeJob job).done idle
  | pieceStart slip => exact execPieceStart_keepsLegal slip s
  | requestFinish slip => exact execRequestFinish_keepsLegal slip s
  | exportEnd slip fault => exact execExportEnd_keepsLegal slip fault s
  | importCompletion slip records => exact execImportCompletion_keepsLegal slip records s

/-- Settles O53: every command leaves each port legal that was legal (`exec_keepsLegal`). -/
theorem portsStayLegal : Obligations.PortsStayLegal := by
  intro s t legal h
  unfold step at h
  split at h
  · cases h
    exact legal
  · rename_i c rest _
    exact fun p => (exec_keepsLegal c { s with pending := rest } t h).legal p (legal p)

end Sys2Proof.Machine
end

section
/-! O10, refuted. `EngineResetLeaves` says that the outgoing port of a job that completes keeps its member state unless it
is ONLINE, and has every other place of that port excluded, but for one: it may be a target of a second job on the same
extent. Where the completion makes the extent LOST, that job drains (R98) and is ABORTING when the reset frees the targets
of ABORTING jobs: the outgoing port, a TARGET, becomes SPARE. In a run an extent has one job at most (R86), which the
statement does not say. -/

namespace Sys2Proof.Machine

/-- A MIRROR of ports 0 and 1, port 1 FAILED. Job 1 has copied port 4 to position 0 at port 2, its last row has ended, and
port 2 is FAILED. Job 0 runs on the same extent and brings position 1 to port 4. -/
def drainingReset : State :=
  let s := State.reset.withExtent 0 fun _ =>
    { condition := .exposed, kind := .mirror, memberCount := 2, stripSize := 16, arrayStart := 0, stripeCount := 1,
      memberBase := 0, rotation := .fixed, targets := [0, 1] }
  let s := s.withPort 0 fun x => { x with memberState := .online }
  let s := s.withPort 1 fun x => { x with memberState := .failed }
  let s := s.withPort 2 fun x => { x with memberState := .failed }
  let s := s.withPort 4 fun x => { x with memberState := .target }
  let s := s.withJob 0 fun j =>
    { j with state := .running, endRow := 1, sources := [{ position := 1, target := 4 }] }
  s.withJob 1 fun j =>
    { j with state := .running, mode := .copy, outgoing := some 4, sources := [{ position := 0, target := 2 }] }

/-- The reset frees port 4 as a target of job 0. -/
theorem drainingReset_frees : ((drainingReset.engineReset .command).port 4).memberState = .spare := by decide +kernel

/-- No job of `drainingReset` is ABORTING, so none has targets to free. -/
theorem drainingReset_notFreed (p : PortId) : ¬ ∃ j, (drainingReset.job j).state = .aborting ∧
    (drainingReset.job j).targetless = false ∧ ∃ x ∈ (drainingReset.job j).sources, x.target = p := by
  have running : ∀ j, (drainingReset.job j).state ≠ .aborting := by decide +kernel
  exact fun ⟨j, aborting, _⟩ => running j aborting

/-- No port but 0 and 1 is in a target list of `drainingReset`. -/
theorem drainingReset_notListed {p : PortId} (high : 2 ≤ p.val) (k : ExtentId) :
    ¬ ((drainingReset.extent k).condition ≠ .unused ∧ p ∈ (drainingReset.extent k).targets) := by
  revert k p
  decide +kernel

/-- Job 1 alone completes. -/
theorem drainingReset_completes (k : JobId) (other : k ≠ 1) :
    ¬ (((drainingReset.job k).state = .running ∨ (drainingReset.job k).state = .pausing) ∧
      (drainingReset.job k).frontier = (drainingReset.job k).endRow) := by
  revert k
  decide +kernel

/-- Refutes O10: in `drainingReset` the outgoing port, a TARGET, becomes SPARE. -/
theorem not_engineResetLeaves : ¬ Obligations.EngineResetLeaves := by
  intro h
  obtain ⟨t, run, -, -, -, completed, -⟩ := h drainingReset .command .reset (.inl ⟨rfl, rfl⟩)
  obtain rfl : drainingReset.engineReset .command = t := by
    injection run
  have sources : (drainingReset.job 1).sources = [{ position := 0, target := 2 }] := by decide +kernel
  have held : (drainingReset.job 1).outgoing = some 4 := by decide +kernel
  obtain ⟨-, placed⟩ := completed 1 ⟨.inl (by decide +kernel), by decide +kernel⟩ (by decide +kernel)
  obtain ⟨-, outgoing, -⟩ := placed (by decide +kernel) drainingReset_completes (by decide +kernel)
    (fun x mem => by
      obtain rfl : x = { position := 0, target := 2 } := List.mem_singleton.mp (sources ▸ mem)
      exact ⟨drainingReset_notListed (by decide), drainingReset_notFreed _⟩)
    (fun q out => by
      obtain rfl : 4 = q := Option.some.inj (held.symm.trans out)
      exact ⟨by decide +kernel, by decide +kernel, drainingReset_notFreed _,
        fun k _ => drainingReset_notListed (by decide) k⟩)
    (fun p freed => absurd freed (drainingReset_notFreed p))
  have kept := outgoing (by decide +kernel) 4 held
  rw [drainingReset_frees, show (drainingReset.port 4).memberState = .target by decide +kernel] at kept
  exact absurd kept (by decide)

end Sys2Proof.Machine
end

section
/-! O14: TICK, PERIOD_RESTART and the changes of the load guard. -/

namespace Sys2Proof.Machine

/-- Below their caps the counts of the time base rise by one. -/
theorem TimeBase.advance_eq (v : Settings) {x : TimeBase} (timer : x.sweepTimer < 65535)
    (period : x.periodCounter < 65535) :
    x.advance v =
      { tick := x.tick + 1
        sweepTimer := if v.sweepInterval = 0 then 0 else x.sweepTimer + 1
        periodCounter := x.periodCounter + 1
        restartDue := decide (v.pacingPeriod ≤ x.periodCounter + 1) } := by
  rw [TimeBase.advance, tickCap, Nat.min_eq_left timer, Nat.min_eq_left period]

theorem LoadGuard.sample_state (v : Settings) (pressure : Nat) (g : LoadGuard) :
    (g.sample v pressure).state = g.state := by
  cases state : g.state <;> simp [LoadGuard.sample, state]

/-- A sample of the COOL guard counts the ticks of pressure at or above the threshold. -/
theorem LoadGuard.sample_cool (v : Settings) (pressure : Nat) {g : LoadGuard} (cool : g.state = .cool)
    (sense : g.sense < 65535) : g.sample v pressure =
      let sense := if v.guardThreshold ≤ pressure then g.sense + 1 else 0
      { g with sense := sense, due := if v.senseTicks ≤ sense then some .hot else none } := by
  rw [LoadGuard.sample, cool, tickCap, Nat.min_eq_left sense]

/-- A sample of the HOT guard lowers the hold count. -/
theorem LoadGuard.sample_hot (v : Settings) (pressure : Nat) {g : LoadGuard} (hot : g.state = .hot) :
    g.sample v pressure =
      { g with
        hold := g.hold - 1, due := if g.hold - 1 = 0 ∧ pressure < v.guardThreshold then some .cool else none } := by
  rw [LoadGuard.sample, hot]

/-- A tick at a port lowers the ticks left of what is outstanding, and does no more. -/
theorem State.tick_port (s : State) (x : PortId) :
    (bankMap Port.tick s.ports)[x.val] = { s.port x with slots := bankMap (Option.map Outstanding.tick) (s.port x).slots } :=
  bankMap_getElem _ _ _

theorem execTick_spec (s : State) (timer : s.time.sweepTimer < 65535) (period : s.time.periodCounter < 65535)
    (sense : s.guard.sense < 65535) :
    ∃ t : State, exec .tick s = .next t ∧
      t.time.tick = s.time.tick + 1 ∧
      t.time.sweepTimer = (if s.settings.sweepInterval = 0 then 0 else s.time.sweepTimer + 1) ∧
      t.time.periodCounter = s.time.periodCounter + 1 ∧
      (t.time.restartDue = true ↔ s.settings.pacingPeriod ≤ s.time.periodCounter + 1) ∧
      (∀ (p : PortId) (i : Tag), (t.port p).slots[i.val] =
        ((s.port p).slots[i.val]).map fun o => { o with ticksLeft := o.ticksLeft - 1 }) ∧
      (∀ p : PortId, t.port p = { s.port p with slots := (t.port p).slots }) ∧
      t.guard.state = s.guard.state ∧
      (s.guard.state = .cool →
        t.guard.sense = (if s.settings.guardThreshold ≤ s.pressure then s.guard.sense + 1 else 0) ∧
        t.guard.hold = s.guard.hold ∧
        t.guard.due = (if s.settings.senseTicks ≤ t.guard.sense then some .hot else none)) ∧
      (s.guard.state = .hot →
        t.guard.hold = s.guard.hold - 1 ∧ t.guard.sense = s.guard.sense ∧
        t.guard.due = (if t.guard.hold = 0 ∧ s.pressure < s.settings.guardThreshold then some .cool else none)) ∧
      t = { s with ports := t.ports, time := t.time, guard := t.guard } := by
  have time := TimeBase.advance_eq s.settings timer period
  refine ⟨_, rfl, ?_, ?_, ?_, ?_, fun p i => ?_, fun p => ?_, LoadGuard.sample_state _ _ _, fun cool => ?_, fun hot => ?_,
    rfl⟩
  · rw [time]
  · rw [time]
  · rw [time]
  · rw [time]
    exact decide_eq_true_iff
  · show (bankMap Port.tick s.ports)[p.val].slots[i.val] = _
    rw [State.tick_port]
    exact bankMap_getElem _ _ _
  · show (bankMap Port.tick s.ports)[p.val] = { s.port p with slots := (bankMap Port.tick s.ports)[p.val].slots }
    rw [State.tick_port]
  · rw [LoadGuard.sample_cool _ _ cool sense]
    exact ⟨rfl, rfl, rfl⟩
  · rw [LoadGuard.sample_hot _ _ hot]
    exact ⟨rfl, rfl, rfl⟩

/-! ## Credits -/

theorem Job.restart_eq (guard : GuardState) (j : Job) :
    j.restart guard =
      { j with creditsLeft :=
        if j.state = .running then
          if j.expedite = true ∨ j.exposed = true ∨ guard = .cool then j.coolCredits else j.hotCredits
        else j.creditsLeft } := by
  unfold Job.restart
  split
  · simp [Job.budget, or_assoc]
  · rfl

theorem Job.cutHot_eq (j : Job) :
    j.cutHot =
      { j with creditsLeft :=
        if j.expedite = true ∨ j.exposed = true then j.creditsLeft else min j.creditsLeft j.hotCredits } := by
  unfold Job.cutHot
  simp only [Bool.or_eq_true]
  split <;> rfl

/-- The end of a step leaves of a job all but its published frontier. -/
theorem State.settle_job_agrees (s : State) (j : JobId) : (s.settle.job j).agrees (s.job j) := by
  rw [State.settle_job]
  split <;> rfl

/-- What a change of the guard keeps and does once the step has ended, the jobs and the guard apart. -/
theorem State.guardChanged_settle {s : State} (g : LoadGuard) (jobs : Vector Job 4)
    (published : ∀ j : JobId, (jobs[j.val]).publishedFrontier = (s.job j).publishedFrontier) :
    let t := ({ s with guard := g, jobs := jobs } : State).askPublish.settle
    s.SameArray t ∧ s.SameWork t ∧ t.settings = s.settings ∧ t.time = s.time ∧ t.pending = s.pending ∧
      s.SameRegisters t ∧ s.SameSweep t ∧ s.Answers t [] ∧ s.Publishes t ∧ s.AnswerBegins t := by
  intro t
  have kept : ({ s with guard := g } : State).RestKept ({ s with guard := g, jobs := jobs } : State).askPublish :=
    ⟨rfl, rfl, rfl, rfl, rfl, rfl⟩
  obtain ⟨losses, ⟨settings, time, -⟩, pending, registers, sweep⟩ := kept.settle
  exact ⟨⟨State.settle_ports _, State.settle_extents _, losses⟩,
    ⟨State.settle_rows _, State.settle_solver _, State.settle_holds _, State.settle_requests _⟩, settings, time, pending,
    registers, sweep, by rw [State.Answers, State.settle_answers, List.append_nil]; rfl,
    State.publishes_settle rfl rfl rfl published, kept.answerBegins⟩

/-- Settles O14: each of the four commands by the equations of what it changes. -/
theorem ticksAndPacing : Obligations.TicksAndPacing := by
  refine ⟨execTick_spec, fun s => ⟨fun due none => ?_, fun idle => ?_⟩, fun s rest => ⟨fun due => ?_, fun idle => ?_,
    fun due => ?_, fun idle => ?_⟩⟩
  · refine ⟨_, if_pos ⟨due, none⟩, rfl, fun j => ?_, rfl⟩
    rw [← Job.restart_eq]
    exact bankMap_getElem _ _ _
  · exact if_neg fun ⟨due, _⟩ => by rw [idle] at due; cases due
  · obtain ⟨array, work, settings, time, pending, registers, sweep, answers, publishes, begins⟩ :=
      State.guardChanged_settle (s := s) { state := .hot, sense := 0, hold := s.settings.minimumHold, due := none }
        (bankMap Job.cutHot s.jobs) fun j => by rw [bankMap_getElem, Job.cutHot_eq]; rfl
    refine ⟨_, if_pos due, ?_, ?_, ?_, ?_, fun j => ?_, array, work, settings, time, pending, registers, sweep, answers,
      publishes, begins⟩
    any_goals exact congrArg _ (State.settle_guard _)
    rw [← Job.cutHot_eq]
    have cut : ({ s with
        guard := { state := .hot, sense := 0, hold := s.settings.minimumHold, due := none }
        jobs := bankMap Job.cutHot s.jobs } : State).askPublish.job j = (s.job j).cutHot := bankMap_getElem _ _ _
    exact cut ▸ State.settle_job_agrees _ j
  · exact if_neg idle
  · obtain ⟨array, work, settings, time, pending, registers, sweep, answers, publishes, begins⟩ :=
      State.guardChanged_settle (s := s) { state := .cool, sense := 0, hold := 0, due := none } s.jobs fun _ => rfl
    refine ⟨_, if_pos due, ?_, ?_, ?_, ?_, array, work, State.sameJobs_settle fun _ => rfl, settings, time, pending,
      registers, sweep, answers, publishes, begins⟩
    all_goals rw [State.settle_guard]; rfl
  · exact if_neg idle

end Sys2Proof.Machine
end

section
/-! O38: what the request arbiter issues, and when it issues nothing. -/

namespace Sys2Proof.Machine

/-! ## The numbers of a bank -/

theorem bankIndices_eq_finRange (n : Nat) : bankIndices n = List.finRange n := by
  induction n with
  | zero => rfl
  | succ n ih => rw [bankIndices, ih, List.finRange_succ]

/-- The first number of a bank that a test picks is the lowest. -/
theorem find?_bankIndices_eq_some {n : Nat} {which : Fin n → Bool} {i : Fin n} :
    (bankIndices n).find? which = some i ↔ which i = true ∧ ∀ j < i, which j = false := by
  induction n with
  | zero => exact i.elim0
  | succ n ih =>
    rw [bankIndices, List.find?_cons, List.find?_map]
    cases first : which 0 with
    | true =>
      refine ⟨fun same => Option.some.inj same ▸ ⟨first, fun j low => absurd low (Fin.not_lt_zero j)⟩, fun ⟨_, low⟩ => ?_⟩
      cases i using Fin.cases with
      | zero => rfl
      | succ i =>
        rw [low 0 (Fin.succ_pos i)] at first
        cases first
    | false =>
      cases i using Fin.cases with
      | zero => simp [first]
      | succ i =>
        simp only [Option.map_eq_some_iff, Fin.succ_inj, exists_eq_right, ih, Function.comp_apply, Fin.forall_fin_succ,
          first, Fin.succ_lt_succ_iff, implies_true, true_and]

/-! ## The slots and the pending list -/

theorem Port.freeSlot_eq_some {x : Port} {i : Tag} :
    x.freeSlot = some i ↔ x.slots[i.val] = none ∧ ∀ j < i, x.slots[j.val] ≠ none := by
  simp only [Port.freeSlot, find?_bankIndices_eq_some, Option.isNone_iff_eq_none, ← Bool.not_eq_true, ne_eq]

theorem Port.freeSlot_eq_none {x : Port} : x.freeSlot = none ↔ ∀ i : Tag, x.slots[i.val] ≠ none := by
  simp [Port.freeSlot, List.find?_eq_none]

/-- The oldest pending request of a class. -/
theorem Request.find?_cls_eq_some {before after : List Request} {r : Request}
    (none : ∀ q ∈ before, q.cls ≠ r.cls) :
    (before ++ r :: after).find? (fun q => q.cls == r.cls) = some r := by
  have before : before.find? (fun q => q.cls == r.cls) = Option.none := List.find?_eq_none.mpr fun q mem => by
    simpa using none q mem
  rw [List.find?_append, before, List.find?_cons_of_pos (by simp), Option.none_or]

theorem Request.find?_cls_eq_none {l : List Request} {cls : RequestClass} :
    l.find? (fun q => q.cls == cls) = none ↔ ∀ q ∈ l, q.cls ≠ cls := by simp [List.find?_eq_none]

/-- A stalled port, and one with no pending request whose class may be issued, issues nothing (R27). -/
theorem Port.nextToIssue_eq_none {x : Port} (h : x.stalled = true ∨ ((∀ r ∈ x.waiting, r.cls ≠ .foreground) ∧
    ((∀ r ∈ x.waiting, r.cls ≠ .rebuild) ∨ 6 ≤ x.outstandingOf .rebuild))) : x.nextToIssue = none := by
  unfold Port.nextToIssue
  rcases h with stalled | ⟨foreground, rebuild⟩
  · rw [if_pos stalled]
  · rw [Request.find?_cls_eq_none.mpr foreground]
    rcases rebuild with none | full
    · rw [Request.find?_cls_eq_none.mpr none, ite_self, ite_self]
    · rw [if_neg (show ¬ x.outstandingOf .rebuild < Config.rebuildSlots from Nat.not_lt.mpr full), ite_self]

/-- The oldest foreground request is the next, or with none pending the oldest rebuild request (R27). -/
theorem Port.nextToIssue_eq_some {x : Port} {before after : List Request} {r : Request} (free : x.stalled = false)
    (waiting : x.waiting = before ++ r :: after)
    (h : (r.cls = .foreground ∧ ∀ q ∈ before, q.cls ≠ .foreground) ∨
      (r.cls = .rebuild ∧ (∀ q ∈ x.waiting, q.cls ≠ .foreground) ∧ (∀ q ∈ before, q.cls ≠ .rebuild) ∧
        x.outstandingOf .rebuild < 6)) : x.nextToIssue = some r := by
  unfold Port.nextToIssue
  rw [if_neg (by simp [free])]
  rcases h with ⟨cls, oldest⟩ | ⟨cls, noForeground, oldest, room⟩
  · have found := Request.find?_cls_eq_some (after := after) (cls ▸ oldest)
    rw [cls, ← waiting] at found
    rw [found]
  · have found := Request.find?_cls_eq_some (after := after) (cls ▸ oldest)
    rw [cls, ← waiting] at found
    rw [Request.find?_cls_eq_none.mpr noForeground]
    exact (if_pos room).trans found

/-! ## An issue -/

/-- What a request is as it takes a slot. -/
def State.outstanding (s : State) (p : PortId) (r : Request) : Outstanding :=
  { request := r, issue := (s.port p).issueNumber, ticksLeft := s.settings.memberTimeout, contents := s.contentsOf r }

/-- A port after the issue of a request to a slot. -/
def Port.issued (slot : Tag) (o : Outstanding) (x : Port) : Port :=
  { x with
    waiting := x.waiting.erase o.request, issueNumber := x.issueNumber + 1
    slots := x.slots.set slot.val (some o) slot.isLt }

theorem State.issueOne_eq {s : State} {p : PortId} {slot : Tag} {r : Request} (free : (s.port p).freeSlot = some slot)
    (next : (s.port p).nextToIssue = some r) :
    s.issueOne p = some (s.withPort p (Port.issued slot (s.outstanding p r))) := by
  unfold State.issueOne
  rw [free, next]
  exact congrArg some (State.withPort_congr rfl)

theorem State.issueOne_eq_none {s : State} {p : PortId} (h : (s.port p).freeSlot = none ∨ (s.port p).nextToIssue = none) :
    s.issueOne p = none := by
  unfold State.issueOne
  rcases h with free | next
  · rw [free]
  · rw [next]
    cases (s.port p).freeSlot <;> rfl

/-- Only a WRITE carries contents. -/
theorem State.contentsOf_of_ne_write {s : State} {r : Request} (h : r.kind ≠ .write) : s.contentsOf r = [] := by
  unfold State.contentsOf
  cases kind : r.kind with
  | write => exact absurd kind h
  | read => rfl
  | probe => rfl

/-- A WRITE carries the blocks of its run from its operation's frame of the position (R19). -/
theorem State.contentsOf_write {s : State} {r : Request} {c : ContextId} {op : Operation} {f : Frame}
    (kind : r.kind = .write) (owner : r.owner = some c) (held : s.context c = some op)
    (frame : op.frames.find? (fun y => y.position == r.position) = some f) :
    s.contentsOf r =
      (List.range r.count).map fun i => (f.blocks.toArray.toList[r.offset + i]?).getD Block.void := by
  unfold State.contentsOf
  rw [kind, owner]
  simp only [held, frame]

/-- Settles O38: the arbiter by the free slot and the next request of the port. -/
theorem requestIssues : Obligations.RequestIssues := by
  intro s p rest x
  have idles : s.issueOne p = none → exec (.requestIssue p) s = .next s := fun h => by
    show execRequestIssue p s = _
    simp only [execRequestIssue, h]
  have issues : ∀ {t : State}, s.issueOne p = some t → exec (.requestIssue p) s = t.done := fun h => by
    show execRequestIssue p s = _
    simp only [execRequestIssue, h]
  refine ⟨fun idle => ?_, fun slot before after r free empty low waiting next => ?_⟩
  · refine idles (State.issueOne_eq_none ?_)
    rcases idle with stalled | full | nothing
    · exact .inr (Port.nextToIssue_eq_none (.inl stalled))
    · exact .inl (Port.freeSlot_eq_none.mpr full)
    · exact .inr (Port.nextToIssue_eq_none (.inr nothing))
  · have issued := State.issueOne_eq (Port.freeSlot_eq_some.mpr ⟨empty, low⟩) (Port.nextToIssue_eq_some free waiting next)
    have moves := s.movesPorts_withPort p (Port.issued slot (s.outstanding p r))
    have step := moves.portStep
    have first : r ∉ before := fun mem => by
      rcases next with ⟨cls, oldest⟩ | ⟨cls, -, oldest, -⟩ <;> exact oldest r mem cls
    refine ⟨_, s.outstanding p r, issues issued, rfl, rfl, rfl, State.contentsOf_of_ne_write,
      fun c op f kind owner held frame => ?_, ?_, fun q other => ?_, step.extents, step.losses,
      ⟨State.settle_rows _, step.solver, step.holds, step.requests⟩, step.jobs, step.pacing, step.pending, step.registers,
      step.sweep, step.answers, moves.silent rest, step.begins⟩
    · rw [State.outstanding, State.contentsOf_write kind owner held frame]
      refine ⟨by simp, fun i h low => ?_⟩
      simp [List.getElem?_range low, h]
    · rw [State.settle_port, State.port_withPort_self]
      have erased : x.waiting.erase r = before ++ after := by
        rw [waiting, List.erase_append_right _ first, List.erase_cons_head]
      exact congrArg (fun w => { Port.issued slot (s.outstanding p r) x with waiting := w }) erased
    · rw [State.settle_port]
      exact (s.port_withPort p q _).trans (if_neg (Ne.symm other))

end Sys2Proof.Machine
end

section
/-! O36: requests that end without being carried out. -/

namespace Sys2Proof.Machine

theorem MemberState.carries_iff {m : MemberState} : m.carries = true ↔ m = .online ∨ m = .target := by
  cases m <;> simp [MemberState.carries]

/-! ## The failure of one request -/

/-- A READ that ends without contents leaves the frames as they were, and is recorded. -/
theorem Operation.takeRead_nil (p : PortId) (r : Request) (ending : Ending) (op : Operation) :
    op.takeRead p r ending [] =
      { op with results := op.results ++
        [{ position := r.position, port := p, first := r.offset, count := r.count, ending := ending }] } := by
  simp [Operation.takeRead, Operation.withFrame, fillFrame]

/-- What the failure of a request of port `p` is to the operation of context `d`. -/
def Operation.failedRequest (p : PortId) (r : Request) (ending : Ending) (d : ContextId) (op : Operation) : Operation :=
  if r.kind = .read ∧ r.owner = some d then
    { op with results := op.results ++
      [{ position := r.position, port := p, first := r.offset, count := r.count, ending := ending }] }
  else if r.kind = .write ∧ r.owner = some d then
    { op with writesLeft := op.writesLeft.filter fun w => w.port ≠ p }
  else op

theorem Operation.failedRequest_of_owner_ne {p : PortId} {r : Request} {ending : Ending} {d : ContextId}
    (h : r.owner ≠ some d) : Operation.failedRequest p r ending d = id := by
  funext op
  simp [Operation.failedRequest, h]

theorem Operation.dropRuns_eq (p : PortId) (op : Operation) :
    op.dropRuns p = { op with writesLeft := op.writesLeft.filter fun w => w.port ≠ p } := by
  simp [Operation.dropRuns, bne, beq_eq_decide]

theorem State.context_deliverFailure (s : State) (p : PortId) (r : Request) (ending : Ending) (d : ContextId) :
    (s.deliverFailure p r ending).context d = (s.context d).map (Operation.failedRequest p r ending d) := by
  unfold State.deliverFailure
  cases owner : r.owner with
  | none => rw [Operation.failedRequest_of_owner_ne (by simp [owner]), Option.map_id_fun, id]
  | some c =>
    by_cases same : c = d
    · subst same
      cases kind : r.kind
      · exact (State.context_withOperation_self _ _ _).trans (congrArg (Option.map · _) (by
          funext op
          simp [Operation.failedRequest, kind, owner, Operation.takeRead_nil]))
      · exact (State.context_withOperation_self _ _ _).trans (congrArg (Option.map · _) (by
          funext op
          simp [Operation.failedRequest, kind, owner, Operation.dropRuns_eq]))
      · exact Option.map_id'.symm.trans (congrArg (Option.map · _) (by
          funext op
          simp [Operation.failedRequest, kind]))
    · rw [Operation.failedRequest_of_owner_ne (by simp [owner, same]), Option.map_id_fun, id]
      cases r.kind
      · exact (s.context_withOperation c d _).trans (if_neg same)
      · exact (s.context_withOperation c d _).trans (if_neg same)
      · rfl

theorem State.deliverFailure_board (s : State) (p : PortId) (r : Request) (ending : Ending) :
    (s.deliverFailure p r ending).board = s.board := by
  unfold State.deliverFailure
  split
  · rfl
  · split <;> rfl

/-! ## The slot freed -/

/-- A port whose request in a slot has ended, the lapse counted where it has lapsed. -/
def Port.released (slot : Tag) (ending : Ending) (x : Port) : Port :=
  { x with
    slots := x.slots.set slot.val none slot.isLt
    lapses := if ending = .lapsed then x.lapses + 1 else x.lapses }

/-- The request of a slot of port `p` has ended without being carried out, and its owner knows. -/
def State.unanswered (s : State) (p : PortId) (slot : Tag) (r : Request) (ending : Ending) : State :=
  (s.withPort p (Port.released slot ending)).deliverFailure p r ending

/-- The two ways of a request's ending without being carried out. -/
def State.EndsUnanswered (p : PortId) (slot : Tag) (o : Outstanding) (cmd : Instr) (ending : Ending) : Prop :=
  (cmd = .lapse p slot ∧ o.ticksLeft = 0 ∧ ending = .lapsed) ∨
    ∃ reply, cmd = .driveReply p reply ∧ reply.tag = slot ∧ reply.issue = o.issue ∧
      ((normalise o.request.kind o.request.count reply.outcome = .notReady ∧ ending = .notReady) ∨
        (normalise o.request.kind o.request.count reply.outcome = .writeFault ∧ ending = .writeFault))

theorem State.withPort_id (s : State) (p : PortId) : s.withPort p id = s := by simp [State.withPort, bankModify]

theorem Port.named_eq_some {x : Port} {reply : Reply} {o : Outstanding} (held : x.slots[reply.tag.val] = some o)
    (issue : reply.issue = o.issue) : x.named reply = some o := by
  simp [Port.named, held, issue]

/-- A slot freed by a reply, which is no lapse. -/
theorem State.freeSlot_eq (s : State) (p : PortId) (slot : Tag) {ending : Ending} (h : ending ≠ .lapsed) :
    s.freeSlot p slot = s.withPort p (Port.released slot ending) :=
  State.withPort_congr (by rw [Port.released, if_neg h])

/-- A request that has lapsed or come to NOT_READY or WRITE_FAULT ends as `State.endUnanswered` has it. -/
theorem exec_unanswered {s : State} {p : PortId} {slot : Tag} {o : Outstanding} {cmd : Instr} {ending : Ending}
    (held : (s.port p).slots[slot.val] = some o) (h : State.EndsUnanswered p slot o cmd ending) :
    exec cmd s = ((s.withPort p (Port.released slot ending)).endUnanswered p slot o.request ending).done := by
  rcases h with ⟨rfl, expired, rfl⟩ | ⟨reply, rfl, rfl, issue, outcome⟩
  · show execLapse p slot s = _
    have lapsed : (s.freeSlot p slot).withPort p (fun x => { x with lapses := x.lapses + 1 }) =
        s.withPort p (Port.released slot .lapsed) := s.withPort_withPort p _ _
    rw [execLapse, held]
    exact (if_pos expired).trans (by rw [lapsed])
  · show execDriveReply p reply s = _
    rw [execDriveReply, Port.named_eq_some held issue]
    rcases outcome with ⟨comes, rfl⟩ | ⟨comes, rfl⟩
    · rw [← s.freeSlot_eq p reply.tag (by decide : Ending.notReady ≠ .lapsed)]
      simp only [comes]
    · rw [← s.freeSlot_eq p reply.tag (by decide : Ending.writeFault ≠ .lapsed)]
      simp only [comes]

section
variable (s : State) (p : PortId) (slot : Tag) (r : Request) (ending : Ending)

theorem State.movesPorts_unanswered : s.MovesPorts (s.unanswered p slot r ending) :=
  (s.movesPorts_withPort p _).trans (State.movesPorts_deliverFailure _ p r ending)

theorem State.unanswered_port : (s.unanswered p slot r ending).port p = (s.port p).released slot ending := by
  rw [State.unanswered, State.port, State.deliverFailure_ports]
  exact s.port_withPort_self p _

theorem State.unanswered_port_other {q : PortId} (other : q ≠ p) :
    (s.unanswered p slot r ending).port q = s.port q := by
  rw [State.unanswered, State.port, State.deliverFailure_ports]
  exact (s.port_withPort p q _).trans (if_neg (Ne.symm other))

theorem State.context_unanswered (d : ContextId) :
    (s.unanswered p slot r ending).context d = (s.context d).map (Operation.failedRequest p r ending d) :=
  State.context_deliverFailure _ p r ending d

theorem State.unanswered_board : (s.unanswered p slot r ending).board = s.board := State.deliverFailure_board _ p r ending

/-- On a member neither ONLINE nor TARGET nothing more comes of the ending. -/
theorem State.endUnanswered_of_bare (bare : (s.port p).memberState.carries = false) :
    (s.withPort p (Port.released slot ending)).endUnanswered p slot r ending = s.unanswered p slot r ending := by
  have still : ((s.unanswered p slot r ending).port p).memberState.carries = false := by
    rw [State.unanswered_port]
    exact bare
  show (match r.kind with
    | .write => (s.unanswered p slot r ending).writeFailure p
    | .read => if ((s.unanswered p slot r ending).port p).memberState.carries then _ else _
    | .probe => if ((s.unanswered p slot r ending).port p).memberState.carries then _ else _) = _
  unfold State.writeFailure
  rw [still]
  cases r.kind <;> rfl

/-- On an ONLINE or TARGET member a WRITE is a write failure, and a READ or PROBE evidence of a stall. -/
theorem State.endUnanswered_of_carries (carries : (s.port p).memberState.carries = true) :
    (s.withPort p (Port.released slot ending)).endUnanswered p slot r ending =
      if r.kind = .write then (s.unanswered p slot r ending).failMember p
      else (s.unanswered p slot r ending).stallEvidence p slot r.memberBlock := by
  have still : ((s.unanswered p slot r ending).port p).memberState.carries = true := by
    rw [State.unanswered_port]
    exact carries
  show (match r.kind with
    | .write => (s.unanswered p slot r ending).writeFailure p
    | .read => if ((s.unanswered p slot r ending).port p).memberState.carries then _ else _
    | .probe => if ((s.unanswered p slot r ending).port p).memberState.carries then _ else _) = _
  unfold State.writeFailure
  rw [still]
  cases r.kind <;> rfl

end

/-! ## A stall -/

/-- A port that has shown evidence of a stall: its member is stalled, of the block that began the stall. -/
def Port.suspected (block : Nat) (x : Port) : Port :=
  { x with lapseCount := x.lapseCount + 1, stalled := true, stallBlock := if x.stalled then x.stallBlock else block }

/-- A port into whose slot a probe has been issued (R32). -/
def Port.probed (slot : Tag) (timeout : Nat) (x : Port) : Port :=
  { (x.place slot timeout (probeRequest x.stallBlock) []) with probes := x.probes + 1 }

theorem Port.hasProbe_iff {x : Port} :
    x.hasProbe = true ↔ ∃ i : Tag, ∃ y, x.slots[i.val] = some y ∧ y.request.kind = .probe := by
  unfold Port.hasProbe
  rw [List.any_eq_true]
  constructor
  · rintro ⟨o, mem, probe⟩
    obtain ⟨i, bound, rfl⟩ := List.getElem_of_mem mem
    have small : i < 8 := by simpa using bound
    cases held : x.slots[i] with
    | none => simp [held] at probe
    | some y => exact ⟨⟨i, small⟩, y, held, by simpa [held] using probe⟩
  · rintro ⟨i, y, held, probe⟩
    refine ⟨some y, ?_, by simp [probe]⟩
    rw [Array.mem_toList_iff, Vector.mem_toArray_iff, ← held]
    exact Vector.getElem_mem _

theorem Port.suspected_hasProbe (block : Nat) (x : Port) : (x.suspected block).hasProbe = x.hasProbe := rfl

theorem Port.released_slots (slot : Tag) (ending : Ending) (x : Port) (i : Tag) :
    (x.released slot ending).slots[i.val] = if slot = i then none else x.slots[i.val] := by
  rw [Port.released, Vector.getElem_set]
  simp only [Fin.ext_iff]

/-- A probe left outstanding once a slot has been freed is in another slot. -/
theorem Port.hasProbe_released {slot : Tag} {ending : Ending} {x : Port} :
    (x.released slot ending).hasProbe = true ↔
      ∃ i : Tag, i ≠ slot ∧ ∃ y, x.slots[i.val] = some y ∧ y.request.kind = .probe := by
  rw [Port.hasProbe_iff]
  refine exists_congr fun i => ?_
  rw [Port.released_slots]
  by_cases same : slot = i
  · simp [same]
  · simp [same, Ne.symm same]

/-- Below the stall limit the port is suspected, and probed where no probe is outstanding (R31, R32). -/
theorem State.stallEvidence_of_below {s : State} {p : PortId} {slot : Tag} {block : Nat}
    (below : (s.port p).lapseCount + 1 < s.settings.stallLimit) :
    s.stallEvidence p slot block =
      if (s.port p).hasProbe then
        (s.withPort p (Port.suspected block)).askPublishIf (!(s.port p).stalled)
      else ((s.withPort p (Port.suspected block)).askPublishIf (!(s.port p).stalled)).withPort p
        (Port.probed slot s.settings.memberTimeout) := by
  have suspected : s.withPort p (fun x => { x with
      lapseCount := (s.port p).lapseCount + 1, stalled := true
      stallBlock := if !(s.port p).stalled then block else x.stallBlock }) = s.withPort p (Port.suspected block) :=
    State.withPort_congr (by cases stalled : (s.port p).stalled <;> simp [Port.suspected, stalled])
  have probe : ∀ b, (((s.withPort p (Port.suspected block)).askPublishIf b).port p).hasProbe = (s.port p).hasProbe := by
    intro b
    rw [State.port, State.askPublishIf_ports]
    exact (congrArg Port.hasProbe (s.port_withPort_self p (Port.suspected block))).trans (Port.suspected_hasProbe block _)
  have timeout : ∀ b, ((s.withPort p (Port.suspected block)).askPublishIf b).settings = s.settings := by
    intro b
    cases b <;> rfl
  unfold State.stallEvidence
  dsimp only
  rw [if_neg (Nat.not_le.mpr below), suspected, probe, State.issueProbe, timeout]
  rfl

/-- At the stall limit the member fails (R31). -/
theorem State.stallEvidence_of_limit {s : State} {p : PortId} {slot : Tag} {block : Nat}
    (limit : s.settings.stallLimit ≤ (s.port p).lapseCount + 1) :
    s.stallEvidence p slot block =
      (s.withPort p fun x => { x with lapseCount := (s.port p).lapseCount + 1 }).failMember p := if_pos limit

/-- Evidence below the stall limit changes the port alone, and asks for a publish where the stall begins. -/
theorem State.stallEvidence_spec {s : State} {p : PortId} {slot : Tag} {block : Nat}
    (below : (s.port p).lapseCount + 1 < s.settings.stallLimit) :
    s.MovesPorts (s.stallEvidence p slot block) ∧
      (s.stallEvidence p slot block).port p =
        (if (s.port p).hasProbe then (s.port p).suspected block
        else ((s.port p).suspected block).probed slot s.settings.memberTimeout) ∧
      (∀ q, q ≠ p → (s.stallEvidence p slot block).port q = s.port q) ∧
      (∀ d, (s.stallEvidence p slot block).context d = s.context d) ∧
      (s.stallEvidence p slot block).board.publishAsked = (s.board.publishAsked || !(s.port p).stalled) := by
  have asked : ∀ (u : State) (b : Bool), u.MovesPorts (u.askPublishIf b) ∧ (∀ q, (u.askPublishIf b).port q = u.port q) ∧
      (∀ d, (u.askPublishIf b).context d = u.context d) ∧
      (u.askPublishIf b).board.publishAsked = (u.board.publishAsked || b) := by
    intro u b
    cases b
    · exact ⟨.refl u, fun _ => rfl, fun _ => rfl, (Bool.or_false _).symm⟩
    · exact ⟨u.movesPorts_askPublish, fun _ => rfl, fun _ => rfl, (Bool.or_true _).symm⟩
  obtain ⟨moves, ports, contexts, publish⟩ := asked (s.withPort p (Port.suspected block)) (!(s.port p).stalled)
  have here := (ports p).trans (s.port_withPort_self p _)
  have others := fun (q : PortId) (other : q ≠ p) =>
    (ports q).trans ((s.port_withPort p q _).trans (if_neg (Ne.symm other)))
  rw [State.stallEvidence_of_below below]
  split
  · exact ⟨(s.movesPorts_withPort p _).trans moves, here, others, contexts, publish⟩
  · refine ⟨((s.movesPorts_withPort p _).trans moves).trans (State.movesPorts_withPort _ p _), ?_, fun q other => ?_,
      contexts, publish⟩
    · rw [State.port_withPort_self, here]
    · rw [State.port_withPort, if_neg (Ne.symm other)]
      exact others q other

/-! ## A failure -/

/-- A member that fails after a request ended: its port falls, whose flags and lapse count may have changed before. -/
theorem State.unanswered_fails {s : State} {p : PortId} {slot : Tag} {r : Request} {ending : Ending}
    (carries : (s.port p).memberState.carries = true)
    (fails : r.kind = .write ∨ s.settings.stallLimit ≤ (s.port p).lapseCount + 1) :
    ∃ f : Port → Port, (∀ x, (f x).fallen = x.fallen) ∧ (∀ x, (f x).allRequests = x.allRequests) ∧
      (s.withPort p (Port.released slot ending)).endUnanswered p slot r ending =
        ((s.unanswered p slot r ending).withPort p f).failMember p := by
  rw [State.endUnanswered_of_carries s p slot r ending carries]
  split
  · exact ⟨id, fun _ => rfl, fun _ => rfl, by rw [State.withPort_id]⟩
  · rename_i read
    have limit : (s.unanswered p slot r ending).settings.stallLimit ≤
        ((s.unanswered p slot r ending).port p).lapseCount + 1 := by
      rw [State.unanswered_port, (s.movesPorts_unanswered p slot r ending).settings]
      exact fails.resolve_left read
    exact ⟨fun x => { x with lapseCount := ((s.unanswered p slot r ending).port p).lapseCount + 1 }, fun _ => rfl,
      fun _ => rfl, State.stallEvidence_of_limit limit⟩

/-- What has become of a member that failed after a request ended, and of the rest. -/
structure State.FailedUnanswered (s : State) (p : PortId) (slot : Tag) (r : Request) (ending : Ending) (u : State) :
    Prop where
  follows : ((s.unanswered p slot r ending).withPort p Port.fallen).Aftermath (s.extentsOf p) u
  asked : u.board.publishAsked = true
  told : ∀ x ∈ ((s.port p).released slot ending).allRequests, u.Told p x .linkLost
  condition : ∀ e, s.extentOfPort p = some e → (u.extent e).condition = u.conditionOf e

theorem State.failedUnanswered {s : State} {p : PortId} {slot : Tag} {r : Request} {ending : Ending}
    (carries : (s.port p).memberState.carries = true)
    (fails : r.kind = .write ∨ s.settings.stallLimit ≤ (s.port p).lapseCount + 1) :
    s.FailedUnanswered p slot r ending
      ((s.withPort p (Port.released slot ending)).endUnanswered p slot r ending) := by
  obtain ⟨f, fallen, requests, run⟩ := State.unanswered_fails (slot := slot) (ending := ending) carries fails
  rw [run]
  have moves := s.movesPorts_unanswered p slot r ending
  have extents : (((s.unanswered p slot r ending).withPort p f)).extentOfPort = s.extentOfPort :=
    State.extentOfPort_congr moves.extents moves.jobs
  have falls : ((s.unanswered p slot r ending).withPort p f).withPort p Port.fallen =
      (s.unanswered p slot r ending).withPort p Port.fallen := by
    rw [State.withPort_withPort]
    exact congrArg _ (funext fallen)
  have follows := ((s.unanswered p slot r ending).withPort p f).aftermath_failMember p
  rw [falls, State.extentsOf, extents] at follows
  refine ⟨follows, State.failMember_asked _ p, fun x mem => State.told_failMember _ p ?_, fun e held =>
    State.condition_failMember (by rwa [extents])⟩
  rwa [State.port_withPort_self, requests, State.unanswered_port]

/-- Settles O36: the ending is told, and evidence of a stall and a failure follow by `State.stallEvidence_spec` and
`State.failedUnanswered`. -/
theorem unansweredRequests : Obligations.UnansweredRequests := by
  refine ⟨fun s p slot o cmd ending rest held ends => ?_, fun s p slot o held left => ?_⟩
  swap
  · show execLapse p slot s = _
    rw [execLapse, held]
    exact if_neg (Nat.ne_of_gt left)
  intro x carries fails lapses told
  have run := exec_unanswered held ends
  have moves := s.movesPorts_unanswered p slot o.request ending
  have here := s.unanswered_port p slot o.request ending
  have others := fun (q : PortId) (other : q ≠ p) => s.unanswered_port_other p slot o.request ending other
  have knows := s.context_unanswered p slot o.request ending
  have asked : (s.unanswered p slot o.request ending).board.publishAsked = false := by
    rw [State.unanswered_board]
    exact rest
  refine ⟨fun bare => ?_, fun serves below => ?_, fun serves failing => ?_⟩
  · have bare : (s.port p).memberState.carries = false :=
      Bool.eq_false_iff.mpr fun c => bare (MemberState.carries_iff.mp c)
    rw [State.endUnanswered_of_bare s p slot o.request ending bare] at run
    have step := moves.portStep
    refine ⟨_, run, ?_, fun q other => ?_, fun d => ?_, step.rows, step.extents, step.losses, step.solver, step.holds,
      step.requests, step.jobs, step.pacing, step.pending, step.registers, step.sweep, step.answers, moves.silent asked,
      step.begins⟩
    · rw [State.settle_port, here]
      rfl
    · rw [State.settle_port, others q other]
    · rw [State.settle_context, knows]
      rfl
  · intro probed block
    have carries : (s.port p).memberState.carries = true := MemberState.carries_iff.mpr serves
    have reads : o.request.kind ≠ .write := fun write => below (.inl write)
    have low : ((s.unanswered p slot o.request ending).port p).lapseCount + 1 <
        (s.unanswered p slot o.request ending).settings.stallLimit := by
      rw [here, moves.settings]
      exact Nat.not_le.mp fun limit => below (.inr limit)
    rw [State.endUnanswered_of_carries s p slot o.request ending carries, if_neg reads] at run
    obtain ⟨stalls, port, ports, contexts, publish⟩ :=
      State.stallEvidence_spec (slot := slot) (block := o.request.memberBlock) low
    have moves := moves.trans stalls
    have step := moves.portStep
    rw [here, (s.movesPorts_unanswered p slot o.request ending).settings] at port
    have slots := Port.released_slots slot ending (s.port p)
    have outstanding : ((s.port p).released slot ending).hasProbe = true ↔ probed := Port.hasProbe_released
    have field : ∀ {α : Type} (g : Port → α) {v : α},
        g (((s.port p).released slot ending).suspected o.request.memberBlock) = v →
        g ((((s.port p).released slot ending).suspected o.request.memberBlock).probed slot s.settings.memberTimeout) = v →
        g ((State.stallEvidence _ p slot o.request.memberBlock).settle.port p) = v := fun g _ suspected probing => by
      rw [State.settle_port, port]
      split
      · exact suspected
      · exact probing
    have fresh : ∀ b, (s.port p).stalled = b →
        ((s.unanswered p slot o.request ending).stallEvidence p slot o.request.memberBlock).board.publishAsked = !b := by
      rintro b rfl
      rw [publish, asked, here]
      rfl
    refine ⟨_, run, field Port.memberState rfl rfl, field Port.stalled rfl rfl, field Port.lapseCount rfl rfl,
      field Port.lapses rfl rfl, field Port.waiting rfl rfl, fun i other => field (fun x => x.slots[i.val]) ?_ ?_,
      fun another => ?_, fun alone => ?_, fun q other => ?_, fun d => ?_, step.rows, step.extents, step.losses, step.solver,
      step.holds, step.requests, step.jobs, step.pacing, step.pending, step.registers, step.sweep, step.answers,
      fun calm => moves.publishes (fresh false calm), fun stalled => moves.silent (fresh true stalled), step.begins⟩
    · exact (slots i).trans (if_neg (Ne.symm other))
    · refine (Vector.getElem_set_ne slot.isLt i.isLt fun same => other (Fin.ext same.symm)).trans ?_
      exact (slots i).trans (if_neg (Ne.symm other))
    · rw [State.settle_port, port, if_pos (outstanding.mpr another)]
      exact ⟨(slots slot).trans (if_pos rfl), rfl, rfl⟩
    · rw [State.settle_port, port, if_neg (mt outstanding.mp alone)]
      exact ⟨⟨_, Vector.getElem_set_self slot.isLt, rfl, rfl, rfl, rfl, rfl⟩, rfl, rfl⟩
    · rw [State.settle_port, ports q other, others q other]
    · rw [State.settle_context, contexts, knows]
      rfl
  · obtain ⟨follows, published, lost, condition⟩ :=
      State.failedUnanswered (slot := slot) (ending := ending) (MemberState.carries_iff.mpr serves) failing
    obtain ⟨extents, losses, pacing, pending, registers, sweep, publishes⟩ :=
      follows.settled (moves.trans (State.movesPorts_withPort _ p _)) published
    obtain ⟨w, sub, port⟩ := follows.port_self
    obtain rfl : w = [] := List.sublist_nil.mp sub
    rw [here] at port
    have ended : ((s.unanswered p slot o.request ending).withPort p Port.fallen).Told p o.request ending :=
      (s.withPort p (Port.released slot ending)).told_deliverFailure p o.request ending
    refine ⟨_, run, ?_⟩
    rw [State.settle_port, port]
    refine ⟨rfl, rfl, rfl, rfl, rfl, rfl, rfl, rfl, rfl, (ended.aftermath follows).settle,
      fun r mem => (lost r (Port.mem_allRequests_of_waiting mem)).settle, fun i y other there => ?_, fun q other => ?_,
      fun e there => ?_, fun e out => extents e out, losses, pacing, pending, registers, sweep, publishes⟩
    · refine (lost _ (Port.mem_allRequests_of_slot (i := i) (o := y) ?_)).settle
      rw [Port.released_slots, if_neg (Ne.symm other)]
      exact there
    · rw [State.settle_port, ← others q other]
      exact follows.sameMember other
    · rw [State.settle_extent, State.conditionOf_settle]
      exact condition e there

end Sys2Proof.Machine
end

section
/-! O35: replies on a member that is not stalled. -/

namespace Sys2Proof.Machine

/-! ## The contents of a READ (R20, R65; log 50) -/

/-- The blocks of a reply reach the offsets that follow the first, less those skipped. -/
theorem fillFrame_getElem (skip : List Nat) (l : List Block) (offset : Nat) (v : Vector Block 16) (i : Fin 16) :
    (fillFrame offset skip l v)[i.val] =
      if offset ≤ i.val ∧ i.val ∉ skip then (l[i.val - offset]?).getD v[i.val] else v[i.val] := by
  induction l generalizing offset v with
  | nil => simp [fillFrame]
  | cons b rest ih =>
    have first : (if h : offset < 16 then (if skip.contains offset then v else v.set offset b h) else v)[i.val] =
        if offset = i.val ∧ i.val ∉ skip then b else v[i.val] := by
      by_cases inside : offset < 16
      · rw [dif_pos inside]
        by_cases skipped : skip.contains offset
        · have out : ¬ (offset = i.val ∧ i.val ∉ skip) := fun ⟨same, out⟩ =>
            out (same ▸ List.contains_iff_mem.mp skipped)
          rw [if_pos skipped, if_neg out]
        · rw [if_neg skipped, Vector.getElem_set]
          have out : offset ∉ skip := fun mem => skipped (List.contains_iff_mem.mpr mem)
          by_cases same : offset = i.val
          · rw [if_pos same, if_pos ⟨same, same ▸ out⟩]
          · rw [if_neg same, if_neg fun both => same both.1]
      · have out : ¬ (offset = i.val ∧ i.val ∉ skip) := fun both => by omega
        rw [dif_neg inside, if_neg out]
    rw [fillFrame, ih, first]
    by_cases out : i.val ∈ skip
    · simp [out]
    · rcases Nat.lt_trichotomy offset i.val with low | same | high
      · have next : i.val - offset = (i.val - (offset + 1)) + 1 := by omega
        simp [out, next, Nat.le_of_lt low, Nat.succ_le_of_lt low, Nat.ne_of_lt low]
      · simp [out, same]
      · simp [out, Nat.not_le.mpr high, Nat.ne_of_gt high, Nat.not_le.mpr (Nat.lt_succ_of_lt high)]

/-- The ending of a READ that reports the offsets `bad` of its run unreadable. -/
def readEnding (offset : Nat) (bad : List Nat) : Ending :=
  if bad = [] then .good else .unreadable (bad.map fun x => offset + x)

theorem mem_unreadable_readEnding {offset i : Nat} (bad : List Nat) (low : offset ≤ i) :
    i ∈ (readEnding offset bad).unreadable? ↔ i - offset ∈ bad := by
  have shifted : i ∈ bad.map (fun x => offset + x) ↔ i - offset ∈ bad := by
    rw [List.mem_map]
    exact ⟨fun ⟨x, mem, same⟩ => by rwa [← same, Nat.add_sub_cancel_left], fun mem => ⟨_, mem, by omega⟩⟩
  unfold readEnding
  split
  · rename_i none
    simp [none, Ending.unreadable?]
  · exact shifted

/-- What a READ that is answered leaves of its operation: the result, and in the frame of its position the blocks that it
does not report unreadable. -/
theorem Operation.takeRead_spec (p : PortId) (r : Request) (bad : List Nat) (contents : List Block) (op : Operation) :
    let op' := op.takeRead p r (readEnding r.offset bad) contents
    op' = { op with
      frames := op'.frames
      results := op.results ++
        [{ position := r.position, port := p, first := r.offset, count := r.count
           ending := if bad = [] then .good else .unreadable (bad.map fun x => r.offset + x) }] } ∧
    op'.frames.length = op.frames.length ∧
    ∀ (k : Nat) (f g : Frame), op.frames[k]? = some f → op'.frames[k]? = some g → g.position = f.position ∧
      ∀ i : Fin 16, g.blocks[i.val] =
        if f.position = r.position ∧ r.offset ≤ i.val ∧ i.val < r.offset + r.count ∧ i.val - r.offset ∉ bad then
          (contents[i.val - r.offset]?).getD f.blocks[i.val]
        else f.blocks[i.val] := by
  refine ⟨rfl, List.length_map _, fun k f g before after => ?_⟩
  have after : (op.frames[k]?).map (fun x => if x.position = r.position then
      { x with blocks := fillFrame r.offset (readEnding r.offset bad).unreadable? (contents.take r.count) x.blocks }
      else x) = some g := by
    rw [← List.getElem?_map]
    exact after
  rw [before, Option.map_some, Option.some.injEq] at after
  subst after
  split
  · rename_i here
    refine ⟨rfl, fun i => ?_⟩
    rw [fillFrame_getElem]
    by_cases low : r.offset ≤ i.val
    · simp only [mem_unreadable_readEnding bad low, List.getElem?_take]
      by_cases inside : i.val < r.offset + r.count
      · rw [if_pos (show i.val - r.offset < r.count by omega)]
        simp [here, low, inside]
      · rw [if_neg (show ¬ i.val - r.offset < r.count by omega)]
        simp [inside]
    · simp [low]
  · rename_i elsewhere
    exact ⟨rfl, fun i => by simp [elsewhere]⟩

/-! ## Replies normalised (R20) -/

theorem mem_unreadableOffsets {offsets : List Nat} {count o : Nat} :
    o ∈ (offsets.filter fun x => decide (x < count)).dedup ↔ o ∈ offsets ∧ o < count := by
  rw [List.mem_dedup, List.mem_filter, decide_eq_true_eq]

theorem unreadableOffsets_eq_nil {offsets : List Nat} {count : Nat} :
    (offsets.filter fun x => decide (x < count)).dedup = [] ↔ ∀ o ∈ offsets, count ≤ o := by
  simp only [List.eq_nil_iff_forall_not_mem, mem_unreadableOffsets, not_and, Nat.not_lt]

theorem normalise_good (kind : RequestKind) (count : Nat) (contents : List Block) :
    normalise kind count (.good contents) = .good contents := by cases kind <;> rfl

/-- A report of unreadable blocks none of which is in the run is GOOD. -/
theorem normalise_unreadable_of_nil {kind : RequestKind} {count : Nat} {offsets : List Nat} (contents : List Block)
    (none : (offsets.filter fun x => decide (x < count)).dedup = []) :
    normalise kind count (.unreadable offsets contents) = .good contents := by
  unfold normalise
  dsimp only
  rw [none]
  cases kind <;> rfl

/-- A report of unreadable blocks keeps those of the run; of a WRITE it is a fault (log 20). -/
theorem normalise_unreadable_of_ne_nil {kind : RequestKind} {count : Nat} {offsets : List Nat} (contents : List Block)
    (some : (offsets.filter fun x => decide (x < count)).dedup ≠ []) :
    normalise kind count (.unreadable offsets contents) =
      if kind = .write then .writeFault
      else .unreadable (offsets.filter fun x => decide (x < count)).dedup contents := by
  unfold normalise
  dsimp only
  rw [if_neg (by simpa using some)]
  cases kind <;> rfl

/-- The last clause of O35. -/
theorem normalise_spec (kind : RequestKind) (count : Nat) :
    (∀ contents, normalise kind count (.good contents) = .good contents) ∧
    normalise kind count .notReady = .notReady ∧
    normalise kind count .writeFault = (if kind = .write then .writeFault else .notReady) ∧
    ∀ offsets contents,
      ((∀ o ∈ offsets, count ≤ o) → normalise kind count (.unreadable offsets contents) = .good contents) ∧
      ((∃ o ∈ offsets, o < count) → kind = .write →
        normalise kind count (.unreadable offsets contents) = .writeFault) ∧
      ((∃ o ∈ offsets, o < count) → kind ≠ .write →
        ∃ kept, normalise kind count (.unreadable offsets contents) = .unreadable kept contents ∧ kept.Nodup ∧
          ∀ o, o ∈ kept ↔ o ∈ offsets ∧ o < count) := by
  refine ⟨normalise_good kind count, by cases kind <;> rfl, by cases kind <;> rfl, fun offsets contents => ?_⟩
  have some : (∃ o ∈ offsets, o < count) → (offsets.filter fun x => decide (x < count)).dedup ≠ [] :=
    fun ⟨o, mem, low⟩ none => Nat.not_le.mpr low (unreadableOffsets_eq_nil.mp none o mem)
  refine ⟨fun out => normalise_unreadable_of_nil contents (unreadableOffsets_eq_nil.mpr out), fun inside write => ?_,
    fun inside reads => ⟨_, ?_, List.nodup_dedup _, fun o => mem_unreadableOffsets⟩⟩
  · rw [normalise_unreadable_of_ne_nil contents (some inside), if_pos write]
  · rw [normalise_unreadable_of_ne_nil contents (some inside), if_neg reads]

/-! ## A stall cleared, or none -/

/-- A port whose member, if it is ONLINE or TARGET, has a lapse count of 0 (R33). -/
def Port.calmed (x : Port) : Port :=
  { x with lapseCount := if x.memberState = .online ∨ x.memberState = .target then 0 else x.lapseCount }

theorem Port.calmed_of_serves {x : Port} (serves : x.memberState = .online ∨ x.memberState = .target) :
    x.calmed = { x with lapseCount := 0 } := by rw [Port.calmed, if_pos serves]

theorem State.clearStall_of_bare {s : State} {p : PortId} (bare : (s.port p).memberState.carries = false) :
    s.clearStall p = s := by
  unfold State.clearStall
  rw [bare]
  rfl

/-- Without a stall a clearing reply changes the lapse count alone. -/
theorem State.clearStall_of_calm {s : State} {p : PortId} (calm : (s.port p).stalled = false) :
    s.clearStall p = s.withPort p Port.calmed := by
  cases carries : (s.port p).memberState.carries with
  | true =>
    have serves := MemberState.carries_iff.mp carries
    unfold State.clearStall
    rw [carries, calm]
    exact State.withPort_congr (by rw [Port.calmed, if_pos serves])
  | false =>
    have bare : ¬ ((s.port p).memberState = .online ∨ (s.port p).memberState = .target) := fun serves => by
      rw [MemberState.carries_iff.mpr serves] at carries
      cases carries
    rw [State.clearStall_of_bare carries, ← (s.withPort_congr (p := p) (f := id) (g := Port.calmed) (by
      rw [Port.calmed, if_neg bare]
      rfl)), State.withPort_id]

/-! ## A READ or PROBE answered -/

/-- A port whose READ or PROBE in a slot has been answered, some blocks of it unreadable. -/
def Port.answered (slot : Tag) (unreadable : Nat) (x : Port) : Port :=
  { x with
    slots := x.slots.set slot.val none slot.isLt
    unreadableBlocks := x.unreadableBlocks + BitVec.ofNat 32 unreadable }

/-- A READ or PROBE of port `p` has been answered, and its owner, if it has one, has its ending and its contents. -/
def State.answerRead (s : State) (p : PortId) (slot : Tag) (r : Request) (bad : List Nat) (contents : List Block) :
    State :=
  if r.kind = .read then
    (s.withPort p (Port.answered slot bad.length)).deliverRead p r (readEnding r.offset bad) contents
  else s.withPort p (Port.answered slot bad.length)

theorem State.freeSlot_answered (s : State) (p : PortId) (slot : Tag) :
    s.freeSlot p slot = s.withPort p (Port.answered slot 0) :=
  State.withPort_congr (by rw [Port.answered, show BitVec.ofNat 32 0 = 0#32 from rfl, BitVec.add_zero])

theorem State.freeSlot_counted (s : State) (p : PortId) (slot : Tag) (n : Nat) :
    (s.freeSlot p slot).withPort p (fun x => { x with unreadableBlocks := x.unreadableBlocks + BitVec.ofNat 32 n }) =
      s.withPort p (Port.answered slot n) := s.withPort_withPort p _ _

/-- A GOOD or UNREADABLE reply to a READ or PROBE is taken, and then clears a stall. -/
theorem exec_answered {s : State} {p : PortId} {reply : Reply} {o : Outstanding} {offsets : List Nat}
    {contents : List Block} (held : (s.port p).slots[reply.tag.val] = some o) (issue : o.issue = reply.issue)
    (reads : o.request.kind ≠ .write)
    (outcome : (reply.outcome = .good contents ∧ offsets = []) ∨ reply.outcome = .unreadable offsets contents) :
    exec (.driveReply p reply) s =
      ((s.answerRead p reply.tag o.request (offsets.filter fun x => decide (x < o.request.count)).dedup
        contents).clearStall p).done := by
  show execDriveReply p reply s = _
  rw [execDriveReply, Port.named_eq_some held issue.symm]
  dsimp only
  unfold State.answerRead
  by_cases none : (offsets.filter fun x => decide (x < o.request.count)).dedup = []
  · have comes : normalise o.request.kind o.request.count reply.outcome = .good contents := by
      rcases outcome with ⟨good, -⟩ | unreadable
      · rw [good, normalise_good]
      · rw [unreadable, normalise_unreadable_of_nil contents none]
    simp only [comes, State.replyGood, none, List.length_nil, ← s.freeSlot_answered, readEnding, if_true]
    cases kind : o.request.kind with
    | read => rfl
    | probe => rfl
    | write => exact absurd kind reads
  · have comes : normalise o.request.kind o.request.count reply.outcome =
        .unreadable (offsets.filter fun x => decide (x < o.request.count)).dedup contents := by
      rcases outcome with ⟨-, rfl⟩ | unreadable
      · exact absurd rfl none
      · rw [unreadable, normalise_unreadable_of_ne_nil contents none, if_neg reads]
    simp only [comes, State.replyUnreadable, ← s.freeSlot_counted, readEnding, if_neg none]
    cases kind : o.request.kind with
    | read => rfl
    | probe => rfl
    | write => exact absurd kind reads

theorem State.movesPorts_deliverRead (s : State) (p : PortId) (r : Request) (ending : Ending) (contents : List Block) :
    s.MovesPorts (s.deliverRead p r ending contents) := by
  unfold State.deliverRead
  split
  · exact s.movesPorts_withOperation _ _
  · exact .refl s

theorem State.deliverRead_board (s : State) (p : PortId) (r : Request) (ending : Ending) (contents : List Block) :
    (s.deliverRead p r ending contents).board = s.board := by
  unfold State.deliverRead
  split <;> rfl

theorem State.context_deliverRead (s : State) (p : PortId) (r : Request) (ending : Ending) (contents : List Block)
    (d : ContextId) : (s.deliverRead p r ending contents).context d =
      if r.owner = some d then (s.context d).map (Operation.takeRead p r ending contents) else s.context d := by
  unfold State.deliverRead
  cases owner : r.owner with
  | none => rfl
  | some c =>
    rw [State.context_withOperation]
    by_cases same : c = d
    · rw [if_pos same, if_pos (congrArg some same)]
    · rw [if_neg same, if_neg fun eq => same (Option.some.inj eq)]

section
variable (s : State) (p : PortId) (slot : Tag) (r : Request) (bad : List Nat) (contents : List Block)

theorem State.movesPorts_answerRead : s.MovesPorts (s.answerRead p slot r bad contents) := by
  unfold State.answerRead
  split
  · exact (s.movesPorts_withPort p _).trans (State.movesPorts_deliverRead _ _ _ _ _)
  · exact s.movesPorts_withPort p _

theorem State.answerRead_board : (s.answerRead p slot r bad contents).board = s.board := by
  unfold State.answerRead
  split
  · exact State.deliverRead_board _ _ _ _ _
  · rfl

theorem State.port_answerRead (q : PortId) : (s.answerRead p slot r bad contents).port q =
    if p = q then (s.port q).answered slot bad.length else s.port q := by
  unfold State.answerRead
  split
  · rw [State.port, State.deliverRead_ports]
    exact s.port_withPort p q _
  · exact s.port_withPort p q _

/-- Only the owner of a READ has anything of the reply. -/
theorem State.context_answerRead (d : ContextId) : (s.answerRead p slot r bad contents).context d =
    if r.kind = .read ∧ r.owner = some d then
      (s.context d).map (Operation.takeRead p r (readEnding r.offset bad) contents)
    else s.context d := by
  unfold State.answerRead
  by_cases reads : r.kind = .read
  · rw [if_pos reads]
    simp only [reads, true_and]
    exact State.context_deliverRead _ p r _ contents d
  · rw [if_neg reads, if_neg fun both => reads both.1]
    rfl

end

/-! ## A WRITE answered -/

/-- The runs that an operation has still to write to port `p`. -/
def Operation.runsLeft (p : PortId) (op : Operation) : List WriteRun :=
  ((op.writesLeft.find? fun w => w.port == p).map PortRuns.runs).getD []

/-- The blocks that a WRITE repairs. -/
def Request.repaired (r : Request) : Nat := if r.repair then r.count else 0

/-- An operation whose next run for port `p` is taken, or that has none left for it. -/
def Operation.nextRun (p : PortId) (op : Operation) : Operation :=
  { op with
    writesLeft :=
      if op.runsLeft p = [] then op.writesLeft.filter fun w => w.port ≠ p
      else op.writesLeft.map fun w => if w.port = p then { w with runs := (op.runsLeft p).tail } else w }

/-- A port whose WRITE in a slot has ended GOOD. -/
def Port.written (slot : Tag) (repaired : Nat) (x : Port) : Port :=
  { x with
    slots := x.slots.set slot.val none slot.isLt
    repairs := x.repairs + BitVec.ofNat 32 repaired }

/-- A WRITE that repairs counts its blocks at the port, and any other adds none. -/
theorem State.freeSlot_written (s : State) (p : PortId) (slot : Tag) (r : Request) :
    (if r.repair then (s.freeSlot p slot).withPort p fun x => { x with repairs := x.repairs + BitVec.ofNat 32 r.count }
      else s.freeSlot p slot) = s.withPort p (Port.written slot r.repaired) := by
  unfold Request.repaired
  cases r.repair with
  | true => exact s.withPort_withPort p _ _
  | false =>
    exact State.withPort_congr (by
      rw [Port.written, if_neg Bool.false_ne_true, show BitVec.ofNat 32 0 = 0#32 from rfl, BitVec.add_zero])

/-- A reply that comes to GOOD to a WRITE is taken, and then clears a stall. -/
theorem exec_written {s : State} {p : PortId} {reply : Reply} {o : Outstanding} {contents : List Block}
    (held : (s.port p).slots[reply.tag.val] = some o) (issue : o.issue = reply.issue) (write : o.request.kind = .write)
    (comes : normalise o.request.kind o.request.count reply.outcome = .good contents) :
    exec (.driveReply p reply) s =
      (((s.withPort p (Port.written reply.tag o.request.repaired)).deliverWritten p o.request).clearStall p).done := by
  show execDriveReply p reply s = _
  rw [execDriveReply, Port.named_eq_some held issue.symm]
  dsimp only
  rw [comes, ← s.freeSlot_written p reply.tag o.request]
  dsimp only
  rw [State.replyGood, write]

/-- The repaired blocks of a WRITE counted by its owner. -/
def Operation.repaired (r : Request) (op : Operation) : Operation :=
  { op with tallies := { op.tallies with repairs := op.tallies.repairs + r.repaired } }

theorem Operation.repaired_eq (r : Request) (op : Operation) :
    (if r.repair then { op with tallies := { op.tallies with repairs := op.tallies.repairs + r.count } } else op) =
      op.repaired r := by
  unfold Operation.repaired Request.repaired
  split <;> rfl

theorem PortRuns.filter_of_none {p : PortId} {l : List PortRuns} (none : l.find? (fun w => w.port == p) = none) :
    l.filter (fun w => w.port ≠ p) = l :=
  List.filter_eq_self.mpr fun w mem => by simpa using List.find?_eq_none.mp none w mem

theorem Operation.runsLeft_of_none {p : PortId} {op : Operation}
    (none : op.writesLeft.find? (fun w => w.port == p) = none) : op.runsLeft p = [] := by
  rw [Operation.runsLeft, none]
  rfl

theorem Operation.runsLeft_of_some {p : PortId} {op : Operation} {w : PortRuns}
    (found : op.writesLeft.find? (fun w => w.port == p) = some w) : op.runsLeft p = w.runs := by
  rw [Operation.runsLeft, found]
  rfl

/-- The runs taken for a port are still for the port. -/
theorem PortRuns.filter_map {p : PortId} (runs : List WriteRun) (l : List PortRuns) :
    (l.map fun w => if w.port = p then { w with runs := runs } else w).filter (fun w => w.port ≠ p) =
      l.filter fun w => w.port ≠ p := by
  induction l with
  | nil => rfl
  | cons w rest ih =>
    simp only [List.map_cons, List.filter_cons, ih]
    by_cases same : w.port = p <;> simp [same]

/-- An operation with the runs that a taken one leaves for port `p`. -/
def Operation.takeRun (p : PortId) (rest : List WriteRun) (op : Operation) : Operation :=
  { op with writesLeft := op.writesLeft.map fun w => if w.port = p then { w with runs := rest } else w }

theorem Operation.dropRuns_takeRun (p : PortId) (rest : List WriteRun) (op : Operation) :
    (op.takeRun p rest).dropRuns p = op.dropRuns p := by
  rw [Operation.dropRuns_eq, Operation.dropRuns_eq, Operation.takeRun, PortRuns.filter_map]

/-- A request joins the pending list of an ONLINE or TARGET port (R22, R26). -/
theorem State.submit_of_serves {s : State} {p : PortId} (r : Request)
    (serves : (s.port p).memberState = .online ∨ (s.port p).memberState = .target) :
    s.submit p r = s.withPort p fun x => { x with waiting := x.waiting ++ [r] } := if_pos serves

/-- A request submitted elsewhere ends at once in link loss (R22, R26). -/
theorem State.submit_of_bare {s : State} {p : PortId} (r : Request)
    (bare : ¬ ((s.port p).memberState = .online ∨ (s.port p).memberState = .target)) :
    s.submit p r = s.deliverFailure p r .linkLost := if_neg bare

/-- What the owner's next run comes to where the WRITE of an operation has ended GOOD. -/
def State.nextWrite (s : State) (p : PortId) (c : ContextId) (op : Operation) : State :=
  match op.writesLeft.find? fun w => w.port == p with
  | none => s
  | some w =>
    match w.runs with
    | [] => s.withOperation c (Operation.dropRuns p)
    | run :: rest =>
      (s.withOperation c (Operation.takeRun p rest)).submit p (s.writeRequest c op run)

theorem State.deliverWritten_of_held {s : State} {p : PortId} {r : Request} {c : ContextId} {op : Operation}
    (owner : r.owner = some c) (held : s.context c = some op) :
    s.deliverWritten p r = (s.withOperation c (Operation.repaired r)).nextWrite p c (op.repaired r) := by
  have counted : s.withOperation c (fun op => if r.repair then
      { op with tallies := { op.tallies with repairs := op.tallies.repairs + r.count } } else op) =
      s.withOperation c (Operation.repaired r) := congrArg _ (funext (Operation.repaired_eq r))
  have after : (s.withOperation c (Operation.repaired r)).context c = some (op.repaired r) := by
    rw [State.context_withOperation_self, held]
    rfl
  unfold State.deliverWritten
  rw [owner]
  dsimp only
  rw [counted, after]
  rfl

/-- What the next run changes: port `p` and the operation alone. -/
structure State.NextWritten (s : State) (p : PortId) (c : ContextId) (waiting : List Request) (op : Operation)
    (t : State) : Prop where
  moves : s.MovesPorts t
  board : t.board = s.board
  port : t.port p = { s.port p with waiting := (s.port p).waiting ++ waiting }
  others : ∀ q, q ≠ p → t.port q = s.port q
  owner : t.context c = some op
  contexts : ∀ d, d ≠ c → t.context d = s.context d

theorem State.nextWritten_refl {s : State} {p : PortId} {c : ContextId} {op : Operation}
    (held : s.context c = some op) : s.NextWritten p c [] op s :=
  ⟨.refl s, rfl, by rw [List.append_nil], fun _ _ => rfl, held, fun _ _ => rfl⟩

/-- A change of the operation alone. -/
theorem State.nextWritten_withOperation {s : State} {p : PortId} {c : ContextId} {op : Operation}
    (held : s.context c = some op) (f : Operation → Operation) :
    s.NextWritten p c [] (f op) (s.withOperation c f) where
  moves := s.movesPorts_withOperation c f
  board := rfl
  port := by rw [List.append_nil]; rfl
  others _ _ := rfl
  owner := by rw [State.context_withOperation_self, held]; rfl
  contexts d other := (s.context_withOperation c d f).trans (if_neg (Ne.symm other))

/-- On an ONLINE or TARGET member the next run is pending, or none is left for the port. -/
theorem State.nextWritten_of_serves {s : State} {p : PortId} {c : ContextId} {op : Operation}
    (held : s.context c = some op) (serves : (s.port p).memberState = .online ∨ (s.port p).memberState = .target) :
    s.NextWritten p c ((op.runsLeft p).head?.toList.map (s.writeRequest c op)) (op.nextRun p)
      (s.nextWrite p c op) := by
  unfold State.nextWrite Operation.nextRun
  cases found : op.writesLeft.find? fun w => w.port == p with
  | none =>
    rw [Operation.runsLeft_of_none found, if_pos rfl, PortRuns.filter_of_none found]
    exact State.nextWritten_refl held
  | some w =>
    rw [Operation.runsLeft_of_some found]
    cases runs : w.runs with
    | nil =>
      rw [if_pos rfl, ← Operation.dropRuns_eq]
      simp only [runs]
      exact State.nextWritten_withOperation held _
    | cons run rest =>
      rw [if_neg (List.cons_ne_nil run rest)]
      simp only [runs]
      rw [State.submit_of_serves (s := s.withOperation c _) _ serves]
      have taken := State.nextWritten_withOperation (p := p) held (Operation.takeRun p rest)
      exact ⟨taken.moves.trans (State.movesPorts_withPort _ p _), rfl, State.port_withPort_self _ p _,
        fun q other => (State.port_withPort _ p q _).trans (if_neg (Ne.symm other)), taken.owner, taken.contexts⟩

/-- On a member neither ONLINE nor TARGET nothing more is written. -/
theorem State.nextWritten_of_bare {s : State} {p : PortId} {c : ContextId} {op : Operation}
    (held : s.context c = some op)
    (bare : ¬ ((s.port p).memberState = .online ∨ (s.port p).memberState = .target)) :
    s.NextWritten p c [] (op.dropRuns p) (s.nextWrite p c op) := by
  unfold State.nextWrite
  cases found : op.writesLeft.find? fun w => w.port == p with
  | none =>
    have same : op.dropRuns p = op := by rw [Operation.dropRuns_eq, PortRuns.filter_of_none found]
    rw [same]
    exact State.nextWritten_refl held
  | some w =>
    cases runs : w.runs with
    | nil =>
      simp only [runs]
      exact State.nextWritten_withOperation held _
    | cons run rest =>
      simp only [runs]
      rw [State.submit_of_bare (s := s.withOperation c _) _ bare]
      have taken := State.nextWritten_withOperation (p := p) held (Operation.takeRun p rest)
      have dropped := State.nextWritten_withOperation (p := p) taken.owner (Operation.dropRuns p)
      rw [Operation.dropRuns_takeRun] at dropped
      exact ⟨taken.moves.trans dropped.moves, rfl, dropped.port, fun _ _ => rfl, dropped.owner, fun d other =>
        (dropped.contexts d other).trans (taken.contexts d other)⟩

/-- What a WRITE that ended GOOD is to its owner, given what becomes of the next run. -/
theorem State.deliverWritten_of_nextWritten {s : State} {p : PortId} {r : Request} {c : ContextId} {op op' : Operation}
    {waiting : List Request} (owner : r.owner = some c) (held : s.context c = some op)
    (next : (s.withOperation c (Operation.repaired r)).NextWritten p c waiting op'
      ((s.withOperation c (Operation.repaired r)).nextWrite p c (op.repaired r))) :
    s.NextWritten p c waiting op' (s.deliverWritten p r) := by
  have counted := State.nextWritten_withOperation (p := p) held (Operation.repaired r)
  rw [State.deliverWritten_of_held owner held]
  exact ⟨counted.moves.trans next.moves, next.board, next.port, next.others, next.owner,
    fun d other => (next.contexts d other).trans (counted.contexts d other)⟩

/-- What a GOOD reply to a WRITE leaves, before it clears a stall: the slot free, the repaired blocks counted, `waiting`
pending besides, and the owner's operation. -/
structure State.WriteAnswered (s : State) (p : PortId) (slot : Tag) (r : Request) (c : ContextId)
    (waiting : List Request) (op : Operation) (t : State) : Prop where
  moves : s.MovesPorts t
  board : t.board = s.board
  port : t.port p = { (s.port p).written slot r.repaired with waiting := (s.port p).waiting ++ waiting }
  others : ∀ q, q ≠ p → t.port q = s.port q
  owner : t.context c = some op
  contexts : ∀ d, d ≠ c → t.context d = s.context d

theorem State.writeAnswered_of_nextWritten {s t : State} {p : PortId} {slot : Tag} {r : Request} {c : ContextId}
    {waiting : List Request} {op : Operation}
    (next : (s.withPort p (Port.written slot r.repaired)).NextWritten p c waiting op t) :
    s.WriteAnswered p slot r c waiting op t where
  moves := (s.movesPorts_withPort p _).trans next.moves
  board := next.board
  port := by
    rw [next.port, State.port_withPort_self]
    rfl
  others q other := by rw [next.others q other, State.port_withPort, if_neg (Ne.symm other)]
  owner := next.owner
  contexts := next.contexts

section
variable {s : State} {p : PortId} {slot : Tag} {r : Request} {c : ContextId} {op : Operation}
  (owner : r.owner = some c) (held : s.context c = some op)
include owner held

theorem State.writeAnswered_of_serves
    (serves : (s.port p).memberState = .online ∨ (s.port p).memberState = .target) :
    s.WriteAnswered p slot r c ((op.runsLeft p).head?.toList.map (s.writeRequest c op)) ((op.repaired r).nextRun p)
      ((s.withPort p (Port.written slot r.repaired)).deliverWritten p r) := by
  have work := (State.nextWritten_withOperation (s := s.withPort p (Port.written slot r.repaired)) (p := p) held
    (Operation.repaired r)).owner
  have still : ((s.withPort p (Port.written slot r.repaired)).port p).memberState = (s.port p).memberState := by
    rw [State.port_withPort_self]
    rfl
  rw [← still] at serves
  exact State.writeAnswered_of_nextWritten
    (State.deliverWritten_of_nextWritten owner held (State.nextWritten_of_serves work serves))

theorem State.writeAnswered_of_bare
    (bare : ¬ ((s.port p).memberState = .online ∨ (s.port p).memberState = .target)) :
    s.WriteAnswered p slot r c [] ((op.repaired r).dropRuns p)
      ((s.withPort p (Port.written slot r.repaired)).deliverWritten p r) := by
  have work := (State.nextWritten_withOperation (s := s.withPort p (Port.written slot r.repaired)) (p := p) held
    (Operation.repaired r)).owner
  have still : ((s.withPort p (Port.written slot r.repaired)).port p).memberState = (s.port p).memberState := by
    rw [State.port_withPort_self]
    rfl
  rw [← still] at bare
  exact State.writeAnswered_of_nextWritten
    (State.deliverWritten_of_nextWritten owner held (State.nextWritten_of_bare work bare))

end

/-! ## Late replies -/

theorem Port.named_eq_none {x : Port} {reply : Reply}
    (late : ∀ o, x.slots[reply.tag.val] = some o → o.issue ≠ reply.issue) : x.named reply = none := by
  unfold Port.named
  split
  · rename_i o held
    exact if_neg (late o held)
  · rfl

/-- A port that has had a late reply. -/
def Port.late (x : Port) : Port := { x with lateReplies := x.lateReplies + 1 }

/-- A late reply is counted, and then clears a stall (R21, R33). -/
theorem exec_late {s : State} {p : PortId} {reply : Reply}
    (late : ∀ o, (s.port p).slots[reply.tag.val] = some o → o.issue ≠ reply.issue) :
    exec (.driveReply p reply) s = ((s.withPort p Port.late).clearStall p).done := by
  show execDriveReply p reply s = _
  rw [execDriveReply, Port.named_eq_none late]
  rfl

/-! ## Without a stall -/

/-- Settles O35: a reply is late, is taken from a READ or PROBE, or from a WRITE, and then sets the lapse count. -/
theorem repliesTaken : Obligations.RepliesTaken := by
  refine ⟨fun s p reply rest late calm => ?_, ?_, ?_, ?_, ?_, normalise_spec⟩
  · have run := exec_late late
    have still : ((s.withPort p Port.late).port p).stalled = false := by
      rw [State.port_withPort_self]
      exact calm
    rw [State.clearStall_of_calm still, State.withPort_withPort] at run
    have moves := s.movesPorts_withPort p (Port.calmed ∘ Port.late)
    have step := moves.portStep
    refine ⟨_, run, ?_, fun q other => ?_, step.extents, step.losses,
      ⟨State.settle_rows _, step.solver, step.holds, step.requests⟩, step.jobs, step.pacing, step.pending, step.registers,
      step.sweep, step.answers, moves.silent rest, step.begins⟩
    · rw [State.settle_port, State.port_withPort_self]
      rfl
    · rw [State.settle_port, State.port_withPort, if_neg (Ne.symm other)]
  · intro s p reply o c op offsets contents rest held issue reads owner work calm outcome bad
    have run := exec_answered held issue (by rw [reads]; decide) outcome
    have taken := s.movesPorts_answerRead p reply.tag o.request bad contents
    have ports := s.port_answerRead p reply.tag o.request bad contents
    have contexts := s.context_answerRead p reply.tag o.request bad contents
    rw [State.clearStall_of_calm (by rw [ports, if_pos rfl]; exact calm)] at run
    have moves := taken.trans (State.movesPorts_withPort _ p Port.calmed)
    have step := moves.portStep
    obtain ⟨fields, length, frames⟩ := Operation.takeRead_spec p o.request bad contents op
    refine ⟨_, op.takeRead p o.request (readEnding o.request.offset bad) contents, run, ?_, fun q other => ?_, ?_,
      fun d other => ?_, step.rows, fields, length, frames, step.extents, step.losses, step.solver, step.holds,
      step.requests, step.jobs, step.pacing, step.pending, step.registers, step.sweep, step.answers, moves.silent ?_,
      step.begins⟩
    · rw [State.settle_port, State.port_withPort_self, ports, if_pos rfl]
      rfl
    · rw [State.settle_port, State.port_withPort, if_neg (Ne.symm other), ports, if_neg (Ne.symm other)]
    · rw [State.settle_context]
      exact (contexts c).trans (by rw [if_pos ⟨reads, owner⟩, work, Option.map_some])
    · rw [State.settle_context]
      exact (contexts d).trans (if_neg fun both => other (Option.some.inj (both.2.symm.trans owner)))
    · exact (congrArg Board.publishAsked (s.answerRead_board p reply.tag o.request bad contents)).trans rest
  · intro s p reply o c op contents rest held issue write owner work outcome serves calm repaired runs
    have run := exec_written held issue write (by rw [outcome, normalise_good])
    have next := State.writeAnswered_of_serves (slot := reply.tag) owner work serves
    rw [State.clearStall_of_calm (by rw [next.port]; exact calm)] at run
    have moves := next.moves.trans (State.movesPorts_withPort _ p Port.calmed)
    have step := moves.portStep
    refine ⟨_, run, ?_, fun q other => ?_, ?_, fun d other => ?_, step.rows, step.extents, step.losses, step.solver,
      step.holds, step.requests, step.jobs, step.pacing, step.pending, step.registers, step.sweep, step.answers,
      moves.silent ?_, step.begins⟩
    · rw [State.settle_port, State.port_withPort_self, next.port]
      exact Port.calmed_of_serves serves
    · rw [State.settle_port, State.port_withPort, if_neg (Ne.symm other), next.others q other]
    · rw [State.settle_context]
      exact next.owner
    · rw [State.settle_context]
      exact next.contexts d other
    · exact (congrArg Board.publishAsked next.board).trans rest
  · intro s p reply o c op contents rest held issue write owner work outcome offline untargeted repaired
    have run := exec_written held issue write (by rw [outcome, normalise_good])
    have bare : ¬ ((s.port p).memberState = .online ∨ (s.port p).memberState = .target) := fun serves =>
      serves.elim offline untargeted
    have next := State.writeAnswered_of_bare (slot := reply.tag) owner work bare
    rw [State.clearStall_of_bare (by
      rw [next.port]
      exact Bool.eq_false_iff.mpr fun carries => bare (MemberState.carries_iff.mp carries))] at run
    have moves := next.moves
    have step := moves.portStep
    refine ⟨_, run, ?_, fun q other => ?_, ?_, fun d other => ?_, step.rows, step.extents, step.losses, step.solver,
      step.holds, step.requests, step.jobs, step.pacing, step.pending, step.registers, step.sweep, step.answers,
      moves.silent ?_, step.begins⟩
    · rw [State.settle_port, next.port, List.append_nil]
      rfl
    · rw [State.settle_port, next.others q other]
    · rw [State.settle_context, next.owner, Operation.dropRuns_eq]
      rfl
    · rw [State.settle_context]
      exact next.contexts d other
    · exact (congrArg Board.publishAsked next.board).trans rest
  · intro s p reply o offsets contents rest held issue probe calm outcome
    have run := exec_answered held issue (by rw [probe]; decide) outcome
    have probes : ∀ bad, s.answerRead p reply.tag o.request bad contents =
        s.withPort p (Port.answered reply.tag bad.length) := fun bad => if_neg (by rw [probe]; decide)
    rw [probes, State.clearStall_of_calm (by rw [State.port_withPort_self]; exact calm), State.withPort_withPort] at run
    have moves := s.movesPorts_withPort p (Port.calmed ∘ Port.answered reply.tag
      (offsets.filter fun x => decide (x < o.request.count)).dedup.length)
    have step := moves.portStep
    refine ⟨_, run, ?_, fun q other => ?_, step.extents, step.losses,
      ⟨State.settle_rows _, step.solver, step.holds, step.requests⟩, step.jobs, step.pacing, step.pending, step.registers,
      step.sweep, step.answers, moves.silent rest, step.begins⟩
    · rw [State.settle_port, State.port_withPort_self]
      rfl
    · rw [State.settle_port, State.port_withPort, if_neg (Ne.symm other)]

end Sys2Proof.Machine
end

section
/-! O37: the end of a stall. -/

namespace Sys2Proof.Machine

/-! ## The arbiter repeated (R27) -/

/-- What the arbiter of port `p` does, however often it issues: nothing but the port changes, of which it places pending
requests in slots that were free. -/
structure State.Arbitrated (s : State) (p : PortId) (t : State) : Prop where
  moves : s.MovesPorts t
  board : t.board = s.board
  contexts : ∀ d, t.context d = s.context d
  others : ∀ q, q ≠ p → t.port q = s.port q
  port : t.port p = { s.port p with
    slots := (t.port p).slots, waiting := (t.port p).waiting, issueNumber := (t.port p).issueNumber }
  slots : ∀ (i : Tag) (o : Outstanding), (s.port p).slots[i.val] = some o → (t.port p).slots[i.val] = some o
  waiting : ∀ r ∈ (s.port p).waiting, r ∈ (t.port p).waiting ∨
    ∃ (i : Tag) (o : Outstanding), (t.port p).slots[i.val] = some o ∧ o.request = r

theorem State.Arbitrated.refl (s : State) (p : PortId) : s.Arbitrated p s :=
  ⟨.refl s, rfl, fun _ => rfl, fun _ _ => rfl, rfl, fun _ _ h => h, fun _ mem => .inl mem⟩

theorem State.Arbitrated.trans {s t u : State} {p : PortId} (h : s.Arbitrated p t) (k : t.Arbitrated p u) :
    s.Arbitrated p u where
  moves := h.moves.trans k.moves
  board := k.board.trans h.board
  contexts d := (k.contexts d).trans (h.contexts d)
  others q other := (k.others q other).trans (h.others q other)
  port := by
    rw [k.port, h.port]
  slots i o held := k.slots i o (h.slots i o held)
  waiting r mem := by
    rcases h.waiting r mem with mem | ⟨i, o, held, same⟩
    · exact k.waiting r mem
    · exact .inr ⟨i, o, k.slots i o held, same⟩

theorem State.issueOne_eq_some {s t : State} {p : PortId} (h : s.issueOne p = some t) :
    ∃ slot r, (s.port p).freeSlot = some slot ∧ t = s.withPort p (Port.issued slot (s.outstanding p r)) := by
  cases free : (s.port p).freeSlot with
  | none =>
    rw [State.issueOne_eq_none (.inl free)] at h
    cases h
  | some slot =>
    cases next : (s.port p).nextToIssue with
    | none =>
      rw [State.issueOne_eq_none (.inr next)] at h
      cases h
    | some r =>
      rw [State.issueOne_eq free next, Option.some.injEq] at h
      exact ⟨slot, r, rfl, h.symm⟩

/-- The arbiter issues nothing where no slot is free or nothing may be issued. -/
theorem State.issueOne_none {s : State} {p : PortId} (h : s.issueOne p = none) :
    (s.port p).freeSlot = none ∨ (s.port p).nextToIssue = none := by
  cases free : (s.port p).freeSlot with
  | none => exact .inl rfl
  | some slot =>
    cases next : (s.port p).nextToIssue with
    | none => exact .inr rfl
    | some r =>
      rw [State.issueOne_eq free next] at h
      cases h

theorem Port.issued_slots (slot : Tag) (o : Outstanding) (x : Port) (i : Tag) :
    (x.issued slot o).slots[i.val] = if slot = i then some o else x.slots[i.val] := by
  rw [Port.issued, Vector.getElem_set]
  simp only [Fin.ext_iff]

/-- One issue. -/
theorem State.arbitrated_issueOne {s t : State} {p : PortId} (h : s.issueOne p = some t) : s.Arbitrated p t := by
  obtain ⟨slot, r, free, rfl⟩ := State.issueOne_eq_some h
  obtain ⟨empty, -⟩ := Port.freeSlot_eq_some.mp free
  refine ⟨s.movesPorts_withPort p _, rfl, fun _ => rfl, fun q other => ?_, ?_, fun i o held => ?_, fun x mem => ?_⟩
  · exact (s.port_withPort p q _).trans (if_neg (Ne.symm other))
  · rw [State.port_withPort_self]
    rfl
  · rw [State.port_withPort_self, Port.issued_slots, if_neg]
    · exact held
    · rintro rfl
      rw [empty] at held
      cases held
  · rw [State.port_withPort_self]
    by_cases same : x = r
    · exact .inr ⟨slot, s.outstanding p r, (Port.issued_slots _ _ _ _).trans (if_pos rfl), same.symm⟩
    · exact .inl ((List.mem_erase_of_ne same).mpr mem)

theorem State.arbitrated_runArbiter (n : Nat) (s : State) (p : PortId) :
    s.Arbitrated p (State.runArbiter n s p) := by
  induction n generalizing s with
  | zero => exact .refl s p
  | succ n ih =>
    unfold State.runArbiter
    split
    · exact (State.arbitrated_issueOne ‹_›).trans (ih _)
    · exact .refl s p

/-- The free slots of a port. -/
def Port.free (x : Port) : Finset Tag := Finset.univ.filter fun i => x.slots[i.val] = none

/-- An issue takes a free slot. -/
theorem State.card_free_issueOne {s t : State} {p : PortId} (h : s.issueOne p = some t) :
    (t.port p).free.card < (s.port p).free.card := by
  obtain ⟨slot, r, free, rfl⟩ := State.issueOne_eq_some h
  obtain ⟨empty, -⟩ := Port.freeSlot_eq_some.mp free
  rw [State.port_withPort_self]
  refine Finset.card_lt_card (Finset.ssubset_iff_of_subset (fun i mem => ?_) |>.mpr ⟨slot, ?_, ?_⟩)
  · simp only [Port.free, Finset.mem_filter, Finset.mem_univ, true_and, Port.issued_slots] at mem ⊢
    split at mem
    · cases mem
    · exact mem
  · simpa [Port.free] using empty
  · simp [Port.free, Port.issued_slots]

/-- With as many turns as there are free slots, the arbiter goes on until nothing more may be issued. -/
theorem State.runArbiter_done (n : Nat) (s : State) (p : PortId) (enough : (s.port p).free.card ≤ n) :
    (State.runArbiter n s p).issueOne p = none := by
  induction n generalizing s with
  | zero =>
    refine State.issueOne_eq_none (.inl (Port.freeSlot_eq_none.mpr fun i empty => ?_))
    have mem : i ∈ (s.port p).free := by
      simpa [Port.free] using (show (s.port p).slots[i.val] = none from empty)
    rw [Finset.card_eq_zero.mp (Nat.le_zero.mp enough)] at mem
    cases mem
  | succ n ih =>
    unfold State.runArbiter
    split
    · rename_i t h
      have fewer := State.card_free_issueOne h
      exact ih t (by omega)
    · assumption

theorem State.runArbiter_eight (s : State) (p : PortId) : (State.runArbiter 8 s p).issueOne p = none :=
  State.runArbiter_done 8 s p (Finset.card_le_univ _)

/-! ## A stall cleared -/

/-- What a clearing reply on a stalled ONLINE or TARGET member does. -/
structure State.StallCleared (s : State) (p : PortId) (t : State) : Prop where
  moves : s.MovesPorts t
  asked : t.board.publishAsked = true
  contexts : ∀ d, t.context d = (s.context d).map (Operation.wakenFor p)
  others : ∀ q, q ≠ p → t.port q = s.port q
  port : t.port p = { (s.port p).clearFlags with
    slots := (t.port p).slots, waiting := (t.port p).waiting, issueNumber := (t.port p).issueNumber }
  slots : ∀ (i : Tag) (o : Outstanding), (s.port p).slots[i.val] = some o → (t.port p).slots[i.val] = some o
  waiting : ∀ r ∈ (s.port p).waiting, r ∈ (t.port p).waiting ∨
    ∃ (i : Tag) (o : Outstanding), (t.port p).slots[i.val] = some o ∧ o.request = r
  idle : t.issueOne p = none

theorem State.stallCleared {s : State} {p : PortId} (stalled : (s.port p).stalled = true)
    (serves : (s.port p).memberState = .online ∨ (s.port p).memberState = .target) :
    s.StallCleared p (s.clearStall p) := by
  have carries := MemberState.carries_iff.mpr serves
  have arbiter := State.arbitrated_runArbiter 8 (((s.withPort p Port.clearFlags).askPublish).wake p) p
  have cleared : (((s.withPort p Port.clearFlags).askPublish).wake p).port p = (s.port p).clearFlags :=
    s.port_withPort_self p _
  unfold State.clearStall
  rw [if_pos carries, if_pos stalled]
  refine ⟨State.MovesPorts.trans (t := ((s.withPort p Port.clearFlags).askPublish).wake p) rfl arbiter.moves, ?_, fun d => ?_, fun q other => ?_, ?_, fun i o held => ?_,
    fun r mem => ?_, State.runArbiter_eight _ p⟩
  · rw [arbiter.board]
    rfl
  · rw [arbiter.contexts, State.context_wake]
    rfl
  · exact (arbiter.others q other).trans ((s.port_withPort p q _).trans (if_neg (Ne.symm other)))
  · rw [← cleared]
    exact arbiter.port
  · exact arbiter.slots i o (by rw [cleared]; exact held)
  · exact arbiter.waiting r (by rw [cleared]; exact mem)

/-! ## A reply taken -/

/-- A reply at port `p` has been taken, a stall apart: its slot, where it had one, is free, the counts have risen, and the
operation of a context `d` has become what `g d` makes of it. `kept` tells the slots that it does not concern. -/
structure State.ReplyTaken (s : State) (p : PortId) (kept : Tag → Prop) (g : ContextId → Operation → Operation)
    (u : State) : Prop where
  moves : s.MovesPorts u
  contexts : ∀ d, u.context d = (s.context d).map (g d)
  phase : ∀ d op, (g d op).phase = op.phase
  waitSet : ∀ d op, (g d op).waitSet = op.waitSet
  woken : ∀ d op, (g d op).woken = op.woken
  others : ∀ q, q ≠ p → u.port q = s.port q
  port : u.port p = { s.port p with
    slots := (u.port p).slots, waiting := (u.port p).waiting, lateReplies := (u.port p).lateReplies
    unreadableBlocks := (u.port p).unreadableBlocks, repairs := (u.port p).repairs }
  slots : ∀ i, kept i → (u.port p).slots[i.val] = (s.port p).slots[i.val]
  waiting : (s.port p).waiting ⊆ (u.port p).waiting

theorem State.ReplyTaken.mono {s u : State} {p : PortId} {kept kept' : Tag → Prop}
    {g : ContextId → Operation → Operation} (taken : s.ReplyTaken p kept g u) (h : ∀ i, kept' i → kept i) :
    s.ReplyTaken p kept' g u := { taken with slots := fun i keeps => taken.slots i (h i keeps) }

theorem Operation.wakenFor_eq (p : PortId) (op : Operation) :
    op.wakenFor p = { op with woken := (op.wakenFor p).woken } := by
  unfold Operation.wakenFor
  split <;> rfl

theorem Operation.wakenFor_phase (p : PortId) (op : Operation) : (op.wakenFor p).phase = op.phase := by
  rw [Operation.wakenFor_eq]

theorem Operation.wakenFor_woken_of_waits {p : PortId} {op : Operation} (waits : op.phase = .awaitMember)
    (mem : p ∈ op.waitSet) : (op.wakenFor p).woken = true := by
  rw [Operation.wakenFor, if_pos ⟨waits, List.contains_iff_mem.mpr mem⟩]

theorem Operation.wakenFor_woken_of_not {p : PortId} {op : Operation}
    (h : op.phase ≠ .awaitMember ∨ p ∉ op.waitSet) : (op.wakenFor p).woken = op.woken := by
  rw [Operation.wakenFor, if_neg fun ⟨waits, mem⟩ =>
    h.elim (fun other => other waits) fun out => out (List.contains_iff_mem.mp mem)]

section
variable {s u : State} {p : PortId} {kept : Tag → Prop} {g : ContextId → Operation → Operation}
  (taken : s.ReplyTaken p kept g u) (stalled : (s.port p).stalled = true)
  (serves : (s.port p).memberState = .online ∨ (s.port p).memberState = .target)
include taken stalled serves

theorem State.ReplyTaken.cleared : u.StallCleared p (u.clearStall p) :=
  State.stallCleared (by rw [taken.port]; exact stalled) (by rw [taken.port]; exact serves)

/-- The port once the stall is cleared. -/
theorem State.ReplyTaken.clearedPort : (u.clearStall p).settle.port p = { (u.port p).clearFlags with
    slots := ((u.clearStall p).port p).slots, waiting := ((u.clearStall p).port p).waiting
    issueNumber := ((u.clearStall p).port p).issueNumber } := by
  rw [State.settle_port]
  exact (taken.cleared stalled serves).port

/-- An operation once the stall is cleared. -/
theorem State.ReplyTaken.clearedOperation {c : ContextId} {op : Operation} (held : s.context c = some op) :
    (u.clearStall p).settle.context c = some ((g c op).wakenFor p) := by
  rw [State.settle_context, (taken.cleared stalled serves).contexts, taken.contexts, held]
  rfl

/-- What O37 says of the member and of the other counts of its port. -/
theorem State.ReplyTaken.clearsPort :
    let t := (u.clearStall p).settle
    (t.port p).memberState = (s.port p).memberState ∧ (t.port p).stalled = false ∧ (t.port p).lapseCount = 0 ∧
      (t.port p).link = (s.port p).link ∧ (t.port p).lapses = (s.port p).lapses ∧
      (t.port p).probes = (s.port p).probes := by
  intro t
  rw [show t.port p = _ from taken.clearedPort stalled serves, taken.port]
  exact ⟨rfl, rfl, rfl, rfl, rfl, rfl⟩

/-- The counts of replies are those that the reply left. -/
theorem State.ReplyTaken.clearedCounts :
    let t := (u.clearStall p).settle
    (t.port p).lateReplies = (u.port p).lateReplies ∧ (t.port p).unreadableBlocks = (u.port p).unreadableBlocks ∧
      (t.port p).repairs = (u.port p).repairs := by
  intro t
  rw [show t.port p = _ from taken.clearedPort stalled serves]
  exact ⟨rfl, rfl, rfl⟩

/-- What O37 says of every reply alike. -/
theorem State.ReplyTaken.clears :
    let t := (u.clearStall p).settle
    t.issueOne p = none ∧
      (∀ r ∈ (s.port p).waiting, r ∈ (t.port p).waiting ∨
        ∃ (i : Tag) (o : Outstanding), (t.port p).slots[i.val] = some o ∧ o.request = r) ∧
      (∀ i : Tag, kept i → ∀ o, (s.port p).slots[i.val] = some o → (t.port p).slots[i.val] = some o) ∧
      (∀ q, q ≠ p → t.port q = s.port q) ∧
      (∀ c op, s.context c = some op → ∃ op', t.context c = some op' ∧ op'.phase = op.phase ∧
        (op.phase = .awaitMember → p ∈ op.waitSet → op'.woken = true) ∧
        (op.phase ≠ .awaitMember ∨ p ∉ op.waitSet → op'.woken = op.woken)) ∧
      (∀ c, s.context c = none → t.context c = none) ∧ t.rows = { s.rows with contexts := t.rows.contexts } ∧
      t.extents = s.extents ∧ t.losses = s.losses ∧ t.solver = s.solver ∧ t.holds = s.holds ∧
      t.requests = s.requests ∧ s.SameJobs t ∧ s.SamePacing t ∧ t.pending = s.pending ∧ s.SameRegisters t ∧
      s.SameSweep t ∧ s.Answers t [] ∧ s.Publishes t ∧ s.AnswerBegins t := by
  intro t
  have cleared := taken.cleared stalled serves
  have moves := taken.moves.trans cleared.moves
  have step := moves.portStep
  have port : t.port p = (u.clearStall p).port p := State.settle_port _ p
  refine ⟨?_, fun r mem => ?_, fun i keeps o held => ?_, fun q other => ?_, fun c op held => ?_, fun c free => ?_,
    step.rows, step.extents, step.losses, step.solver, step.holds, step.requests, step.jobs, step.pacing, step.pending,
    step.registers, step.sweep, step.answers, moves.publishes cleared.asked, step.begins⟩
  · refine State.issueOne_eq_none ?_
    rw [port]
    exact State.issueOne_none cleared.idle
  · rw [port]
    exact cleared.waiting r (taken.waiting mem)
  · rw [port]
    exact cleared.slots i o (by rw [taken.slots i keeps]; exact held)
  · exact (State.settle_port _ q).trans ((cleared.others q other).trans (taken.others q other))
  · refine ⟨_, taken.clearedOperation stalled serves held, ?_, fun waits mem => ?_, fun h => ?_⟩
    · rw [Operation.wakenFor_phase, taken.phase]
    · exact Operation.wakenFor_woken_of_waits ((taken.phase c op).trans waits) (by rw [taken.waitSet]; exact mem)
    · rw [Operation.wakenFor_woken_of_not (by rw [taken.phase, taken.waitSet]; exact h), taken.woken]
  · rw [State.settle_context, cleared.contexts, taken.contexts, free]
    rfl

end

/-! ## The three ways of taking a reply -/

theorem State.replyTaken_late (s : State) (p : PortId) :
    s.ReplyTaken p (fun _ => True) (fun _ => id) (s.withPort p Port.late) where
  moves := s.movesPorts_withPort p _
  contexts _ := Option.map_id'.symm
  phase _ _ := rfl
  waitSet _ _ := rfl
  woken _ _ := rfl
  others q other := (s.port_withPort p q _).trans (if_neg (Ne.symm other))
  port := by
    rw [State.port_withPort_self]
    rfl
  slots i _ := by
    rw [State.port_withPort_self]
    rfl
  waiting := by
    rw [State.port_withPort_self]
    exact fun _ mem => mem

/-- The slots that a reply to the request of `slot` does not concern. -/
theorem Port.slots_set_other {slot i : Tag} (other : i ≠ slot) (x : Port) :
    (x.slots.set slot.val none slot.isLt)[i.val] = x.slots[i.val] :=
  Vector.getElem_set_ne slot.isLt i.isLt fun same => other (Fin.ext same.symm)

/-- What an answer to a READ or PROBE is to the operation of context `d`. -/
def Operation.readTaken (p : PortId) (r : Request) (bad : List Nat) (contents : List Block) (d : ContextId)
    (op : Operation) : Operation :=
  if r.kind = .read ∧ r.owner = some d then op.takeRead p r (readEnding r.offset bad) contents else op

theorem State.replyTaken_read (s : State) (p : PortId) (slot : Tag) (r : Request) (bad : List Nat)
    (contents : List Block) :
    s.ReplyTaken p (· ≠ slot) (Operation.readTaken p r bad contents) (s.answerRead p slot r bad contents) where
  moves := s.movesPorts_answerRead p slot r bad contents
  contexts d := by
    rw [State.context_answerRead]
    unfold Operation.readTaken
    split
    · rfl
    · exact Option.map_id'.symm
  phase d op := by
    unfold Operation.readTaken
    split <;> rfl
  waitSet d op := by
    unfold Operation.readTaken
    split <;> rfl
  woken d op := by
    unfold Operation.readTaken
    split <;> rfl
  others q other := (s.port_answerRead p slot r bad contents q).trans (if_neg (Ne.symm other))
  port := by
    rw [State.port_answerRead, if_pos rfl]
    rfl
  slots i other := by
    rw [State.port_answerRead, if_pos rfl]
    exact Port.slots_set_other other _
  waiting := by
    rw [State.port_answerRead, if_pos rfl]
    exact fun _ mem => mem

/-- What a GOOD reply to a WRITE is to the operation of context `d`. -/
def Operation.writeTaken (p : PortId) (r : Request) (d : ContextId) (op : Operation) : Operation :=
  if r.owner = some d then (op.repaired r).nextRun p else op

theorem State.withOperation_of_free {s : State} {c : ContextId} (free : s.context c = none) (f : Operation → Operation) :
    s.withOperation c f = s := by
  have free : s.rows.contexts[c.val] = none := free
  simp only [State.withOperation, State.withRows, bankModify, free, Option.map_none]
  rw [← free, Vector.set_getElem_self]

/-- A WRITE whose operation is gone reaches nobody. -/
theorem State.deliverWritten_of_free {s : State} {p : PortId} {r : Request}
    (free : ∀ c, r.owner = some c → s.context c = none) : s.deliverWritten p r = s := by
  unfold State.deliverWritten
  cases owner : r.owner with
  | none => rfl
  | some c =>
    dsimp only
    rw [State.withOperation_of_free (free c owner), free c owner]

/-- What the answer to a WRITE changes of the port: the slot, the repairs and the pending list. -/
structure State.WriteTaken (s : State) (p : PortId) (slot : Tag) (r : Request) (u : State) : Prop where
  taken : s.ReplyTaken p (· ≠ slot) (Operation.writeTaken p r) u
  lateReplies : (u.port p).lateReplies = (s.port p).lateReplies
  unreadable : (u.port p).unreadableBlocks = (s.port p).unreadableBlocks
  repairs : (u.port p).repairs = (s.port p).repairs + BitVec.ofNat 32 r.repaired
  next : ∀ c op run, r.owner = some c → s.context c = some op → (op.runsLeft p).head? = some run →
    s.writeRequest c op run ∈ (u.port p).waiting

theorem State.replyTaken_write {s : State} {p : PortId} {slot : Tag} {r : Request}
    (serves : (s.port p).memberState = .online ∨ (s.port p).memberState = .target) :
    s.WriteTaken p slot r ((s.withPort p (Port.written slot r.repaired)).deliverWritten p r) := by
  have keeps : ∀ (u : State) (waiting : List Request), s.MovesPorts u →
      (∀ d, u.context d = (s.context d).map (Operation.writeTaken p r d)) → (∀ q, q ≠ p → u.port q = s.port q) →
      u.port p = { (s.port p).written slot r.repaired with waiting := (s.port p).waiting ++ waiting } →
      s.ReplyTaken p (· ≠ slot) (Operation.writeTaken p r) u := fun u waiting moves contexts others port => {
    moves := moves
    contexts := contexts
    phase := fun d op => by
      unfold Operation.writeTaken
      split <;> rfl
    waitSet := fun d op => by
      unfold Operation.writeTaken
      split <;> rfl
    woken := fun d op => by
      unfold Operation.writeTaken
      split <;> rfl
    others := others
    port := by
      rw [port]
      rfl
    slots := fun i other => by
      rw [port]
      exact Port.slots_set_other other _
    waiting := by
      rw [port]
      exact List.subset_append_left _ _ }
  by_cases free : ∀ c, r.owner = some c → s.context c = none
  · rw [State.deliverWritten_of_free (s := s.withPort p _) free]
    have port := s.port_withPort_self p (Port.written slot r.repaired)
    refine ⟨keeps _ [] (s.movesPorts_withPort p _) (fun d => ?_) (fun q other =>
      (s.port_withPort p q _).trans (if_neg (Ne.symm other))) (by rw [port, List.append_nil]; rfl), ?_, ?_, ?_,
      fun c op run owner held => ?_⟩
    · by_cases owner : r.owner = some d
      · rw [free d owner]
        exact free d owner
      · have none : Operation.writeTaken p r d = id := funext fun op => if_neg owner
        rw [none, Option.map_id]
        rfl
    · rw [port]; rfl
    · rw [port]; rfl
    · rw [port]; rfl
    · rw [free c owner] at held
      cases held
  · simp only [not_forall] at free
    obtain ⟨c, owner, busy⟩ := free
    obtain ⟨op, held⟩ := Option.ne_none_iff_exists'.mp busy
    have answered := State.writeAnswered_of_serves (slot := slot) owner held serves
    refine ⟨keeps _ _ answered.moves (fun d => ?_) answered.others answered.port, ?_, ?_, ?_,
      fun c' op' run owner' held' first => ?_⟩
    · by_cases same : d = c
      · subst same
        rw [answered.owner, held]
        exact congrArg some (if_pos owner).symm
      · have none : Operation.writeTaken p r d = id := funext fun op =>
          if_neg fun owner' => same (Option.some.inj (owner'.symm.trans owner))
        rw [answered.contexts d same, none, Option.map_id]
        rfl
    · rw [answered.port]; rfl
    · rw [answered.port]; rfl
    · rw [answered.port]; rfl
    · obtain rfl : c = c' := Option.some.inj (owner.symm.trans owner')
      obtain rfl : op = op' := Option.some.inj (held.symm.trans held')
      rw [answered.port, first]
      simp

/-! ## What a reply comes to -/

/-- A reply that comes neither to NOT_READY nor to WRITE_FAULT carries what a READ or PROBE takes. -/
theorem ReplyOutcome.answers {kind : RequestKind} {count : Nat} {outcome : ReplyOutcome}
    (ready : normalise kind count outcome ≠ .notReady) (sound : normalise kind count outcome ≠ .writeFault)  :
    ∃ offsets contents, (outcome = .good contents ∧ offsets = []) ∨ outcome = .unreadable offsets contents := by
  cases outcome with
  | good contents => exact ⟨[], contents, .inl ⟨rfl, rfl⟩⟩
  | unreadable offsets contents => exact ⟨offsets, contents, .inr rfl⟩
  | notReady => exact absurd (by cases kind <;> rfl) ready
  | writeFault =>
    cases kind with
    | write => exact absurd rfl sound
    | read => exact absurd rfl ready
    | probe => exact absurd rfl ready

/-- Such a reply to a WRITE comes to GOOD. -/
theorem normalise_write_good {count : Nat} {outcome : ReplyOutcome} (ready : normalise .write count outcome ≠ .notReady)
    (sound : normalise .write count outcome ≠ .writeFault) :
    ∃ contents, normalise .write count outcome = .good contents := by
  obtain ⟨offsets, contents, ⟨rfl, rfl⟩ | rfl⟩ := ReplyOutcome.answers ready sound
  · exact ⟨contents, rfl⟩
  · by_cases none : (offsets.filter fun x => decide (x < count)).dedup = []
    · exact ⟨contents, normalise_unreadable_of_nil contents none⟩
    · exact absurd (normalise_unreadable_of_ne_nil contents none) sound

/-- What a reply carries is told by it. -/
theorem ReplyOutcome.answers_unique {outcome : ReplyOutcome} {offsets offsets' : List Nat} {contents contents' : List Block}
    (h : (outcome = .good contents ∧ offsets = []) ∨ outcome = .unreadable offsets contents)
    (h' : (outcome = .good contents' ∧ offsets' = []) ∨ outcome = .unreadable offsets' contents') :
    offsets' = offsets ∧ contents' = contents := by
  rcases h with ⟨rfl, rfl⟩ | rfl <;> rcases h' with ⟨same, rfl⟩ | same <;> cases same <;> exact ⟨rfl, rfl⟩

/-! ## The settlement -/

/-- An operation that a reply does not concern changes at most by waking. -/
theorem Operation.wakenFor_of_same {p : PortId} {op op' x : Operation} (same : x = op) (woken : op' = x.wakenFor p) :
    op' = { op with woken := op'.woken } := by
  rw [woken, same]
  exact Operation.wakenFor_eq p op

/-- The operation found once the stall is cleared. -/
theorem State.ReplyTaken.operation {s u : State} {p : PortId} {kept : Tag → Prop}
    {g : ContextId → Operation → Operation} (taken : s.ReplyTaken p kept g u) (stalled : (s.port p).stalled = true)
    (serves : (s.port p).memberState = .online ∨ (s.port p).memberState = .target) {c : ContextId} {op op' : Operation}
    (held : s.context c = some op) (after : (u.clearStall p).settle.context c = some op') :
    op' = (g c op).wakenFor p :=
  Option.some.inj (after.symm.trans (taken.clearedOperation stalled serves held))

/-- Settles O37: a late reply, an answer to a READ or PROBE, and one to a WRITE are three ways of taking a reply, and each
then clears the stall (`State.ReplyTaken.clears`). -/
theorem stallsClear : Obligations.StallsClear := by
  intro s p reply rest stalled serves answers late named
  by_cases isLate : late
  · have taken := (s.replyTaken_late p).mono (kept' := fun i => late ∨ i ≠ reply.tag) fun _ _ => trivial
    have unnamed : ∀ o, ¬ named o := fun o ⟨held, issue⟩ => isLate o held issue
    obtain ⟨state, calm, lapses, link, lapsed, probes⟩ := taken.clearsPort stalled serves
    obtain ⟨lateReplies, unreadable, repairs⟩ := taken.clearedCounts stalled serves
    rw [State.port_withPort_self] at lateReplies unreadable repairs
    exact ⟨_, exec_late isLate, state, calm, lapses, link, lapsed, probes, fun _ => ⟨lateReplies, unreadable, repairs⟩,
      fun timely => absurd isLate timely,
      fun c op op' held after _ => Operation.wakenFor_of_same rfl (taken.operation stalled serves held after),
      fun o name => absurd name (unnamed o), fun o name => absurd name (unnamed o), taken.clears stalled serves⟩
  have timely : ∃ o, named o := by simpa [late, named] using isLate
  obtain ⟨o, held, issue⟩ := timely
  have unique : ∀ {x}, named x → x = o := fun name => Option.some.inj (name.1.symm.trans held)
  obtain ⟨ready, sound⟩ := answers o held issue
  by_cases write : o.request.kind = .write
  · obtain ⟨contents, good⟩ := normalise_write_good (by rwa [write] at ready) (by rwa [write] at sound)
    have written := State.replyTaken_write (slot := reply.tag) (r := o.request) serves
    have taken := written.taken.mono (kept' := fun i => late ∨ i ≠ reply.tag) fun i h => h.resolve_left isLate
    obtain ⟨state, calm, lapses, link, lapsed, probes⟩ := taken.clearsPort stalled serves
    obtain ⟨lateReplies, unreadable, repairs⟩ := taken.clearedCounts stalled serves
    have cleared := taken.cleared stalled serves
    refine ⟨_, exec_written held issue write (by rw [write]; exact good), state, calm, lapses, link, lapsed, probes,
      fun isLate' => absurd isLate' isLate, fun _ => lateReplies.trans written.lateReplies,
      fun c op op' work after bystander => ?_, fun x name reads => ?_, fun x name _ => ?_, taken.clears stalled serves⟩
    · refine Operation.wakenFor_of_same (if_neg fun owner => ?_) (taken.operation stalled serves work after)
      rw [bystander o ⟨held, issue⟩ owner] at write
      cases write
    · rw [unique name] at reads
      exact absurd write reads
    · obtain rfl := unique name
      refine ⟨unreadable.trans written.unreadable, repairs.trans written.repairs, fun c op op' owner work after => ?_⟩
      have woken := taken.operation stalled serves work after
      rw [Operation.writeTaken, if_pos owner] at woken
      refine ⟨?_, fun run first => ?_⟩
      · rw [woken, Operation.wakenFor_eq]
        rfl
      · rw [State.settle_port]
        exact cleared.waiting _ (written.next c op run owner work first)
  · obtain ⟨offsets, contents, outcome⟩ := ReplyOutcome.answers ready sound
    have read := s.replyTaken_read p reply.tag o.request
      (offsets.filter fun x => decide (x < o.request.count)).dedup contents
    have taken := read.mono (kept' := fun i => late ∨ i ≠ reply.tag) fun i h => h.resolve_left isLate
    obtain ⟨state, calm, lapses, link, lapsed, probes⟩ := taken.clearsPort stalled serves
    obtain ⟨lateReplies, unreadable, repairs⟩ := taken.clearedCounts stalled serves
    rw [State.port_answerRead, if_pos rfl] at lateReplies unreadable repairs
    refine ⟨_, exec_answered held issue write outcome, state, calm, lapses, link, lapsed, probes,
      fun isLate' => absurd isLate' isLate, fun _ => lateReplies, fun c op op' work after bystander => ?_,
      fun x name _ offsets' contents' outcome' => ?_, fun x name write' => ?_, taken.clears stalled serves⟩
    · refine Operation.wakenFor_of_same (if_neg fun ⟨reads, owner⟩ => ?_) (taken.operation stalled serves work after)
      rw [bystander o ⟨held, issue⟩ owner] at reads
      cases reads
    · obtain rfl := unique name
      obtain ⟨rfl, rfl⟩ := ReplyOutcome.answers_unique outcome outcome'
      refine ⟨unreadable, repairs, fun reads c op op' owner work after => ?_⟩
      have woken := taken.operation stalled serves work after
      rw [Operation.readTaken, if_pos ⟨reads, owner⟩] at woken
      obtain ⟨-, length, frames⟩ := Operation.takeRead_spec p x.request
        (offsets'.filter fun y => decide (y < x.request.count)).dedup contents' op
      rw [Operation.wakenFor_eq] at woken
      rw [woken]
      exact ⟨rfl, length, frames⟩
    · rw [unique name] at write'
      exact absurd write' write

end Sys2Proof.Machine
end

section
/-! O15: the MEMBER slip. -/

namespace Sys2Proof.Machine

/-! ## The tables (R38, R39) -/

/-- A change of the member of port `p` to `new` is refused with a reason (R38, R39). -/
def State.MemberRefused (s : State) (p : PortId) (new : MemberState) (reason : Reason) : Prop :=
  match (s.port p).memberState, new, s.extentOfPort p with
  | .absent, .spare, none | .released, .spare, _ | .failed, .spare, none =>
    (s.port p).link = .down ∧ reason = .notPresent
  | .absent, .spare, some _ | .failed, .absent, some _ | .failed, .spare, some _ => reason = .memberConflict
  | .absent, .online, some e | .failed, .online, some e =>
    ((s.port p).link = .down ∧ reason = .notPresent) ∨
      ((s.port p).link = .up ∧ s.isSource e p = true ∧ reason = .memberConflict)
  | .spare, .absent, _ | .released, .absent, _ | .failed, .absent, none | .online, .failed, _ => False
  | _, _, _ => reason = .wrongState

/-- A change of the member of port `p` to `new` is accepted (R38, R39). -/
def State.MemberAccepted (s : State) (p : PortId) (new : MemberState) : Prop :=
  match (s.port p).memberState, new, s.extentOfPort p with
  | .absent, .spare, none | .released, .spare, _ | .failed, .spare, none => (s.port p).link = .up
  | .absent, .online, some e | .failed, .online, some e => (s.port p).link = .up ∧ s.isSource e p = false
  | .spare, .absent, _ | .released, .absent, _ | .failed, .absent, none | .online, .failed, _ => True
  | _, _, _ => False

/-- The two tables entry by entry: a change refused has its reason. -/
theorem State.memberRefusal_of_refused {s : State} {p : PortId} {new : MemberState} {reason : Reason}
    (h : s.MemberRefused p new reason) : s.memberRefusal p new = some reason := by
  unfold State.MemberRefused at h
  unfold State.memberRefusal
  revert h
  generalize (s.port p).memberState = old
  generalize s.extentOfPort p = held
  cases (s.port p).link <;> cases old <;> cases new <;> cases held <;> simp +contextual [@eq_comm _ reason]

/-- The two tables entry by entry: a change accepted is not refused. -/
theorem State.memberRefusal_of_accepted {s : State} {p : PortId} {new : MemberState} (h : s.MemberAccepted p new) :
    s.memberRefusal p new = none := by
  unfold State.MemberAccepted at h
  unfold State.memberRefusal
  revert h
  generalize (s.port p).memberState = old
  generalize s.extentOfPort p = held
  cases (s.port p).link <;> cases old <;> cases new <;> cases held <;> simp +contextual

/-- Only a member that becomes FAILED was ONLINE or TARGET before. -/
theorem State.MemberAccepted.bare {s : State} {p : PortId} {new : MemberState} (h : s.MemberAccepted p new)
    (alive : new ≠ .failed) : (s.port p).memberState.carries = false := by
  unfold State.MemberAccepted at h
  cases old : (s.port p).memberState with
  | online | target =>
    rw [old] at h
    cases new with
    | failed => exact absurd rfl alive
    | _ => exact h.elim
  | absent | spare | failed | released => rfl

theorem memberFields_of_badField {body : SlipBody}
    (bad : 16 ≤ slipField body 0x20 1 ∨ slipField body 0x21 1 ∉ [0, 1, 2, 4]) : memberFields body = none := by
  unfold memberFields
  rcases bad with port | code
  · rw [numberOf, dif_neg (Nat.not_lt.mpr port)]
  · have none : MemberState.ofRequestCode (slipField body 0x21 1) = none := by
      simp only [List.mem_cons, List.not_mem_nil, or_false, not_or] at code
      obtain ⟨absent, spare, online, failed⟩ := code
      unfold MemberState.ofRequestCode
      split
      · exact absurd ‹_› absent
      · exact absurd ‹_› spare
      · exact absurd ‹_› online
      · exact absurd ‹_› failed
      · rfl
    rw [none]
    cases numberOf 16 (slipField body 0x20 1) <;> rfl

/-! ## The answer -/

theorem State.extentOfPort_settle (s : State) (p : PortId) : s.settle.extentOfPort p = s.extentOfPort p := by
  have same : ∀ j, (s.settle.job j).isOn = (s.job j).isOn ∧ (s.settle.job j).extent = (s.job j).extent ∧
      (s.settle.job j).completes = (s.job j).completes ∧ (s.settle.job j).sources = (s.job j).sources := fun j => by
    rw [State.settle_job]
    split <;> exact ⟨rfl, rfl, rfl, rfl⟩
  simp only [State.extentOfPort, State.completesOnto, State.jobOn, State.settle_extent, same]

/-- The body of a MEMBER's answer is that of the state before the end of the step, an answer queued besides. -/
theorem State.memberBody_answered (s : State) (i : SlipId) (status : Status) (reason : Reason) (body : List BodyField)
    (p : PortId) (before : MemberState) :
    (s.answer i status reason body).settle.memberBody p before = s.memberBody p before := by
  unfold State.memberBody
  rw [State.extentOfPort_settle, State.settle_port]
  rfl

theorem State.aftermath_answer (s : State) (i : SlipId) (status : Status) (reason : Reason) (body : List BodyField) :
    s.Aftermath ∅ (s.answer i status reason body) :=
  .of_jobs (fun _ => .refl _) (answers := List.prefix_append _ _)

/-- What follows the read of a slip, once the step has ended. -/
theorem State.RestKept.dispatched {s u : State} {run : SweepRun} {tag : BitVec 64}
    (h : (s.afterTake run tag).RestKept u) : s.Dispatched u.settle run tag none := by
  have board := h.board
  refine State.dispatched_of_afterTake ?_ ?_ ?_ ?_ ?_
  · rw [State.settle_taken, board]
  · rw [State.settle_sweep, board]
  · rw [State.settle_sweepPending, board]
  · rw [State.settle_roundPointer, board]
    rfl
  · rw [State.settle_deferred, board]
    rfl

/-! ## An accepted change -/

/-- What an accepted change makes of the port. -/
def Port.changed (new : MemberState) (x : Port) : Port := if new = .failed then x.fallen else x.become new

/-- The change of a member as the MEMBER slip makes it. -/
def State.makeMember (s : State) (p : PortId) (new : MemberState) : State :=
  if new = .failed then s.failMember p else s.changeMember p new

/-- What an accepted change of the member of port `p` does, the answer apart. -/
structure State.MemberMade (s : State) (p : PortId) (new : MemberState) (u : State) : Prop where
  follows : (s.withPort p (Port.changed new)).Aftermath (s.extentsOf p) u
  asked : u.board.publishAsked = true
  told : new = .failed → ∀ r ∈ (s.port p).allRequests, u.Told p r .linkLost
  condition : ∀ e, s.extentOfPort p = some e → (u.extent e).condition = u.conditionOf e

theorem State.memberMade (s : State) (p : PortId) (new : MemberState) :
    s.MemberMade p new (s.makeMember p new) := by
  unfold State.makeMember
  by_cases failed : new = .failed
  · rw [if_pos failed]
    have port : Port.changed new = Port.fallen := funext fun x => if_pos failed
    exact ⟨by rw [port]; exact s.aftermath_failMember p, s.failMember_asked p, fun _ r mem => s.told_failMember p mem,
      fun e => State.condition_failMember⟩
  · rw [if_neg failed]
    have port : Port.changed new = Port.become new := funext fun x => if_neg failed
    exact ⟨by rw [port]; exact s.aftermath_changeMember p new, s.changeMember_asked p new,
      fun lost => absurd lost failed, fun e => State.condition_changeMember new⟩

theorem Port.changed_failed {new : MemberState} (failed : new = .failed) (x : Port) : x.changed new = x.fallen :=
  if_pos failed

theorem Port.changed_alive {new : MemberState} (alive : new ≠ .failed) (x : Port) : x.changed new = x.become new :=
  if_neg alive

theorem Port.become_spec (new : MemberState) (x : Port) :
    (x.become new).memberState = new ∧ (x.become new).link = x.link ∧ (x.become new).slots = x.slots := by
  unfold Port.become
  split <;> exact ⟨rfl, rfl, rfl⟩

/-- A port that carried no flag carries none after a change. -/
theorem Port.become_flags (new : MemberState) {x : Port} (stalled : x.stalled = false) (lapses : x.lapseCount = 0) :
    (x.become new).stalled = false ∧ (x.become new).lapseCount = 0 := by
  unfold Port.become
  split
  · exact ⟨stalled, lapses⟩
  · exact ⟨rfl, rfl⟩

/-- The port of an accepted change: its member has the new state and no flag, and keeps its link. -/
theorem Port.changed_spec {s : State} {p : PortId} {new : MemberState} (accepted : s.MemberAccepted p new)
    (legal : (s.port p).legal) :
    ((s.port p).changed new).memberState = new ∧ ((s.port p).changed new).stalled = false ∧
      ((s.port p).changed new).lapseCount = 0 ∧ ((s.port p).changed new).link = (s.port p).link ∧
      (new = .failed → ((s.port p).changed new).slots = Vector.replicate 8 none ∧
        ((s.port p).changed new).waiting = []) ∧
      (new ≠ .failed → ((s.port p).changed new).slots = (s.port p).slots) := by
  by_cases failed : new = .failed
  · rw [Port.changed_failed failed]
    exact ⟨failed.symm, rfl, rfl, rfl, fun _ => ⟨rfl, rfl⟩, fun alive => absurd failed alive⟩
  · obtain ⟨stalled, lapses⟩ := legal (accepted.bare failed)
    obtain ⟨state, link, slots⟩ := Port.become_spec new (s.port p)
    obtain ⟨calm, none⟩ := Port.become_flags new stalled lapses
    rw [Port.changed_alive failed]
    exact ⟨state, calm, none, link, fun lost => absurd lost failed, fun _ => slots⟩

/-! ## The slip -/

section
variable {s : State} {run : SweepRun} (tag : BitVec 64) {body : SlipBody} (at_slip : s.sweepAt .slipRead = some run)
include at_slip

theorem execMember_of_none (bad : memberFields body = none) :
    exec (.member tag body) s = ((s.afterTake run tag).refuse run.slip .badField).done := by
  show execMember tag body s = _
  rw [execMember, State.takeSlip_afterTake tag at_slip]
  simp only [bad]

section
variable {p : PortId} {new : MemberState} (fields : memberFields body = some (p, new))
include fields

theorem execMember_of_held (held : (s.port p).memberState = new) :
    exec (.member tag body) s = ((s.afterTake run tag).answer run.slip .good .none
      ((s.afterTake run tag).memberBody p (s.port p).memberState)).done := by
  show execMember tag body s = _
  rw [execMember, State.takeSlip_afterTake tag at_slip]
  simp only [fields]
  exact if_pos held

theorem execMember_of_refused {reason : Reason} (differs : (s.port p).memberState ≠ new)
    (refused : s.memberRefusal p new = some reason) :
    exec (.member tag body) s = ((s.afterTake run tag).refuse run.slip reason).done := by
  have refused : (s.afterTake run tag).memberRefusal p new = some reason := refused
  show execMember tag body s = _
  rw [execMember, State.takeSlip_afterTake tag at_slip]
  simp only [fields, refused]
  exact if_neg differs

theorem execMember_of_accepted (differs : (s.port p).memberState ≠ new) (accepted : s.memberRefusal p new = none) :
    exec (.member tag body) s = (((s.afterTake run tag).makeMember p new).answer run.slip .good .none
      (((s.afterTake run tag).makeMember p new).memberBody p (s.port p).memberState)).done := by
  have accepted : (s.afterTake run tag).memberRefusal p new = none := accepted
  show execMember tag body s = _
  rw [execMember, State.takeSlip_afterTake tag at_slip]
  simp only [fields, accepted]
  exact if_neg differs

end

end

/-- Outside the board unit an answer at once changes nothing. -/
theorem State.sameOutside_answered (s : State) (run : SweepRun) (tag : BitVec 64) (status : Status) (reason : Reason)
    (body : List BodyField) :
    s.SameOutside ((s.afterTake run tag).answer run.slip status reason body).settle := by
  refine ⟨⟨?_, ?_, ?_⟩, ⟨?_, ?_, ?_, ?_⟩, ⟨?_, ?_, ?_⟩, State.sameJobs_settle (.of_eq rfl), ?_⟩
  all_goals simp [State.afterTake]

theorem State.extents_eq {s t : State} (h : ∀ x, t.extent x = s.extent x) : t.extents = s.extents :=
  Vector.ext fun i bound => h ⟨i, bound⟩

/-- Settles O15: the slip is refused, asks for the state held, or makes the change, with what follows from it
(`State.memberMade`). -/
theorem memberChanges : Obligations.MemberChanges := by
  intro s run tag body rest at_slip
  refine ⟨fun bad => ?_, fun p new fields => ⟨fun held => ?_, fun differs reason refused => ?_,
    fun differs legal accepted => ?_⟩⟩
  · rw [execMember_of_none tag at_slip (memberFields_of_badField bad)]
    exact State.done_refuses rest _
  · refine ⟨_, execMember_of_held tag at_slip fields held.symm, s.sameOutside_answered _ _ _ _ _,
      State.silent_settle rest rfl rfl fun _ => rfl, State.answersAtOnce_settle ?_⟩
    rw [State.memberBody_answered]
    rfl
  · have refused : s.MemberRefused p new reason := refused
    rw [execMember_of_refused tag at_slip fields differs.symm (State.memberRefusal_of_refused refused)]
    exact State.done_refuses rest _
  · have accepted : s.MemberAccepted p new := accepted
    have made := (s.afterTake run tag).memberMade p new
    have answered := State.aftermath_answer ((s.afterTake run tag).makeMember p new) run.slip .good .none
      (((s.afterTake run tag).makeMember p new).memberBody p (s.port p).memberState)
    have follows := made.follows.trans answered.within
    obtain ⟨extents, losses, pacing, pending, registers, sweep, publishes⟩ :=
      follows.settled ((s.afterTake run tag).movesPorts_withPort p _) (answered.asked made.asked)
    obtain ⟨w, sub, port⟩ := follows.port_self
    obtain ⟨state, calm, lapses, link, lost, slots⟩ := Port.changed_spec accepted legal
    have told := fun (failed : new = .failed) (r : Request) (mem : r ∈ (s.port p).allRequests) =>
      ((made.told failed r mem).aftermath answered).settle
    refine ⟨_, execMember_of_accepted tag at_slip fields differs.symm (State.memberRefusal_of_accepted accepted), ?_⟩
    rw [State.settle_port, port]
    refine ⟨state, calm, lapses, link, fun failed => ?_, slots, fun q other => ?_, fun free => ?_, fun e held => ?_, losses,
      pacing, pending, registers, ?_, publishes, ?_⟩
    · obtain ⟨empty, none⟩ := lost failed
      refine ⟨empty, ?_, fun r mem => told failed r (Port.mem_allRequests_of_waiting mem),
        fun i o held => told failed _ (Port.mem_allRequests_of_slot held)⟩
      exact List.sublist_nil.mp (none ▸ sub)
    · rw [State.settle_port]
      exact follows.sameMember other
    · refine State.extents_eq fun x => extents x fun mem => ?_
      have mem : s.extentOfPort p = some x := mem
      rw [free] at mem
      cases mem
    · refine ⟨?_, ?_, fun x other => extents x fun mem => other ?_⟩
      · rw [State.settle_extent, State.conditionOf_settle]
        exact made.condition e held
      · rw [State.settle_extent]
        exact follows.extents e
      · have mem : s.extentOfPort p = some x := mem
        exact Option.some.inj (mem.symm.trans held)
    · exact State.RestKept.dispatched ((State.restKept_withPort _ p _).trans follows.rest)
    · rw [State.memberBody_answered, State.settle_answers]
      exact List.getLast?_concat

end Sys2Proof.Machine
end

section
/-! O13: a lowered stall limit. -/

namespace Sys2Proof.Machine

/-- A stalled ONLINE or TARGET member whose lapse count is at or above the stall limit (R34). -/
def Port.Overdue (limit : Nat) (x : Port) : Prop :=
  (x.memberState = .online ∨ x.memberState = .target) ∧ x.stalled = true ∧ limit ≤ x.lapseCount

/-- The port of a member that failed by the stall limit, and what the owners of its requests were told. -/
structure State.FailedOverdue (s : State) (q : PortId) (t : State) : Prop where
  memberState : (t.port q).memberState = .failed
  stalled : (t.port q).stalled = false
  lapseCount : (t.port q).lapseCount = 0
  empty : (t.port q).waiting = []
  slots : (t.port q).slots = Vector.replicate 8 none
  waiting : ∀ r ∈ (s.port q).waiting, t.ToldGone q r
  outstanding : ∀ (i : Tag) o, (s.port q).slots[i.val] = some o → t.Told q o.request .linkLost

/-- A port that keeps its record while other members fail, but for pending requests that end. -/
structure State.KeptPort (s : State) (q : PortId) (t : State) : Prop where
  port : ∃ w, w.Sublist (s.port q).waiting ∧ t.port q = { s.port q with waiting := w }
  waiting : ∀ r ∈ (s.port q).waiting, r ∈ (t.port q).waiting ∨ t.ToldGone q r

/-- From `s` to `t` the overdue members among those of `done` have failed. -/
structure State.OverdueFailed (s : State) (done : Set PortId) (t : State) : Prop where
  settings : t.settings = s.settings
  failed : ∀ q ∈ done, (s.port q).Overdue s.settings.stallLimit → s.FailedOverdue q t
  kept : ∀ q, ¬ (q ∈ done ∧ (s.port q).Overdue s.settings.stallLimit) → s.KeptPort q t

theorem State.OverdueFailed.refl (s : State) : s.OverdueFailed ∅ s where
  settings := rfl
  failed _ mem := absurd mem (Set.notMem_empty _)
  kept _ _ := ⟨⟨_, .refl _, rfl⟩, fun _ mem => .inl mem⟩

/-- What a failure at another port leaves of a port that has failed. -/
theorem State.FailedOverdue.later {s t u : State} {M : Set ExtentId} {p q : PortId} (h : s.FailedOverdue q t)
    (follows : (t.withPort p Port.fallen).Aftermath M u) (other : q ≠ p) : s.FailedOverdue q u := by
  obtain ⟨w, sub, port⟩ := follows.ports q
  rw [State.port_withPort, if_neg (Ne.symm other)] at sub port
  have empty : w = [] := List.sublist_nil.mp (h.empty ▸ sub)
  have told : ∀ {r}, t.ToldGone q r → u.ToldGone q r := fun {r} told =>
    State.ToldGone.follows (s := t.withPort p Port.fallen) told follows.contexts
  have ended : ∀ {r}, t.Told q r .linkLost → u.Told q r .linkLost := fun {r} told =>
    State.Told.follows (s := t.withPort p Port.fallen) told follows.contexts
  exact ⟨by rw [port]; exact h.memberState, by rw [port]; exact h.stalled, by rw [port]; exact h.lapseCount,
    by rw [port]; exact empty, by rw [port]; exact h.slots, fun r mem => told (h.waiting r mem),
    fun i o held => ended (h.outstanding i o held)⟩

/-- What a failure at another port leaves of a port that has kept its record. -/
theorem State.KeptPort.later {s t u : State} {M : Set ExtentId} {p q : PortId} (h : s.KeptPort q t)
    (follows : (t.withPort p Port.fallen).Aftermath M u) (other : q ≠ p) : s.KeptPort q u := by
  obtain ⟨w, sub, port⟩ := h.port
  obtain ⟨w', sub', port'⟩ := follows.ports q
  have told := follows.told q
  rw [State.port_withPort, if_neg (Ne.symm other)] at sub' port' told
  refine ⟨⟨w', (port ▸ sub').trans sub, by rw [port', port]⟩, fun r mem => ?_⟩
  rcases h.waiting r mem with mem | gone
  · exact told r mem
  · exact .inr (State.ToldGone.follows (s := t.withPort p Port.fallen) gone follows.contexts)

/-- An overdue member that has kept its record fails. -/
theorem State.KeptPort.fails {s t : State} {p : PortId} (h : s.KeptPort p t) :
    s.FailedOverdue p (t.failMember p) := by
  have follows := t.aftermath_failMember p
  obtain ⟨w, sub, port⟩ := follows.port_self
  have empty : w = [] := List.sublist_nil.mp sub
  obtain ⟨kept, -, before⟩ := h.port
  refine ⟨by rw [port]; rfl, by rw [port]; rfl, by rw [port]; rfl, by rw [port]; exact empty, by rw [port]; rfl,
    fun r mem => ?_, fun i o held => ?_⟩
  · rcases h.waiting r mem with mem | gone
    · exact .inl (t.told_failMember p (Port.mem_allRequests_of_waiting mem))
    · exact State.ToldGone.follows (s := t.withPort p Port.fallen) gone follows.contexts
  · refine t.told_failMember p (Port.mem_allRequests_of_slot (i := i) ?_)
    rw [before]
    exact held

/-- The member of one port failed where it is overdue. -/
def State.failOverdue (s : State) (p : PortId) : State :=
  if (s.port p).memberState.carries && (s.port p).stalled && decide (s.settings.stallLimit ≤ (s.port p).lapseCount)
  then s.failMember p else s

theorem State.failOverdue_of_overdue {s : State} {p : PortId} (h : (s.port p).Overdue s.settings.stallLimit) :
    s.failOverdue p = s.failMember p := by
  obtain ⟨serves, stalled, limit⟩ := h
  exact if_pos (by simp [MemberState.carries_iff.mpr serves, stalled, limit])

theorem State.failOverdue_of_not {s : State} {p : PortId} (h : ¬ (s.port p).Overdue s.settings.stallLimit) :
    s.failOverdue p = s := by
  refine if_neg fun picked => h ?_
  simp only [Bool.and_eq_true, decide_eq_true_eq] at picked
  obtain ⟨⟨carries, stalled⟩, limit⟩ := picked
  exact ⟨MemberState.carries_iff.mp carries, stalled, limit⟩

theorem State.OverdueFailed.step {s t : State} {done : Set PortId} {p : PortId} (h : s.OverdueFailed done t)
    (fresh : p ∉ done) : s.OverdueFailed (insert p done) (t.failOverdue p) := by
  have own := h.kept p fun both => fresh both.1
  obtain ⟨w, -, port⟩ := own.port
  have same : (t.port p).Overdue t.settings.stallLimit ↔ (s.port p).Overdue s.settings.stallLimit := by
    rw [port, h.settings]
    rfl
  by_cases overdue : (s.port p).Overdue s.settings.stallLimit
  · rw [State.failOverdue_of_overdue (same.mpr overdue)]
    have follows := t.aftermath_failMember p
    refine ⟨follows.rest.settings.trans h.settings, fun q mem late => ?_, fun q out => ?_⟩
    · by_cases here : q = p
      · subst here
        exact own.fails
      · exact (h.failed q (mem.resolve_left here) late).later follows here
    · have other : q ≠ p := fun here => out (by rw [here]; exact ⟨Set.mem_insert _ _, overdue⟩)
      exact (h.kept q fun both => out ⟨Set.mem_insert_of_mem _ both.1, both.2⟩).later follows other
  · rw [State.failOverdue_of_not (mt same.mp overdue)]
    refine ⟨h.settings, fun q mem late => ?_, fun q out => h.kept q fun both =>
      out ⟨Set.mem_insert_of_mem _ both.1, both.2⟩⟩
    rcases mem with rfl | mem
    · exact absurd late overdue
    · exact h.failed q mem late

theorem State.OverdueFailed.foldl {s t : State} {done : Set PortId} (h : s.OverdueFailed done t) (l : List PortId)
    (fresh : ∀ p ∈ l, p ∉ done) (nodup : l.Nodup) : s.OverdueFailed ({ p | p ∈ l } ∪ done) (l.foldl State.failOverdue t) := by
  induction l generalizing t done with
  | nil => simpa using h
  | cons p rest ih =>
    obtain ⟨first, nodup⟩ := List.nodup_cons.mp nodup
    have later := ih (h.step (fresh p List.mem_cons_self)) (fun q mem => ?_) nodup
    · have same : { q | q ∈ p :: rest } ∪ done = { q | q ∈ rest } ∪ insert p done := by
        ext q
        simp only [Set.mem_union, Set.mem_ofPred_eq, List.mem_cons, Set.mem_insert_iff]
        tauto
      rw [same]
      exact later
    · rintro (rfl | mem')
      · exact first mem
      · exact fresh q (List.mem_cons_of_mem _ mem) mem'

theorem bankIndices_nodup (n : Nat) : (bankIndices n).Nodup := bankIndices_eq_finRange n ▸ List.nodup_finRange n

/-- Every overdue member fails (R34). -/
theorem State.overdueFailed (s : State) : s.OverdueFailed Set.univ s.failStalled := by
  have all := (State.OverdueFailed.refl s).foldl (bankIndices 16) (fun p _ => Set.notMem_empty p) (bankIndices_nodup 16)
  have univ : ({ p | p ∈ bankIndices 16 } ∪ ∅ : Set PortId) = Set.univ := by
    ext p
    simp
  rw [univ] at all
  exact all

/-- A SETTINGS slip with flags of the eight alone, that of the stall limit among them, sets the limit and fails the overdue
members. -/
theorem execSettings_of_limit {s : State} {run : SweepRun} (tag : BitVec 64) {body : SlipBody}
    (at_slip : s.sweepAt .slipRead = some run) (small : (settingsFields body).mask < 256)
    (limit : maskBit (settingsFields body).mask 2 = true) :
    exec (.settings tag body) s =
      ((((s.afterTake run tag).applySettings (settingsFields body)).failStalled).answer run.slip
        (if clampMask (settingsFields body) = 0 then .good else .adjusted) .none
        (settingsBody (((s.afterTake run tag).applySettings (settingsFields body)).failStalled).settings
          (clampMask (settingsFields body)))).done := by
  show execSettings tag body s = _
  rw [execSettings, State.takeSlip_afterTake tag at_slip]
  dsimp only
  rw [if_neg (Nat.not_le.mpr small), if_pos limit]

/-- An answer queued at the end of a step leaves the ports and the settings, and what owners have been told. -/
theorem State.answered_port (u : State) (i : SlipId) (status : Status) (reason : Reason) (body : List BodyField)
    (p : PortId) : (u.answer i status reason body).settle.port p = u.port p := by
  rw [State.settle_port]
  rfl

theorem State.answered_settings (u : State) (i : SlipId) (status : Status) (reason : Reason) (body : List BodyField) :
    (u.answer i status reason body).settle.settings = u.settings := by
  rw [State.settle_settings]
  rfl

theorem State.Told.answered {u : State} {p : PortId} {r : Request} {ending : Ending} (told : u.Told p r ending)
    (i : SlipId) (status : Status) (reason : Reason) (body : List BodyField) :
    (u.answer i status reason body).settle.Told p r ending :=
  (told.aftermath (u.aftermath_answer i status reason body)).settle

/-- Settles O13: the overdue members fail one after another (`State.overdueFailed`). -/
theorem stallLimitFails : Obligations.StallLimitFails := by
  intro s run tag body at_slip small limit
  have failed := State.overdueFailed ((s.afterTake run tag).applySettings (settingsFields body))
  have chosen : ((s.afterTake run tag).applySettings (settingsFields body)).settings.stallLimit =
      max 1 (min 15 (settingsFields body).values.stallLimit) := by
    simp [State.applySettings, Settings.choose, limit, Settings.clamped, clamp]
  refine ⟨_, execSettings_of_limit tag at_slip small limit, ?_, fun p => ?_⟩
  · rw [State.answered_settings, failed.settings]
    exact chosen
  · rw [State.answered_settings, State.answered_port, failed.settings]
    split
    · rename_i overdue
      have fate := failed.failed p (Set.mem_univ p) overdue
      exact ⟨fate.memberState, fate.stalled, fate.lapseCount, fate.empty, fate.slots,
        fun r mem => (fate.waiting r mem).imp (·.answered _ _ _ _) (·.answered _ _ _ _),
        fun i o held => (fate.outstanding i o held).answered _ _ _ _⟩
    · rename_i timely
      obtain ⟨w, -, port⟩ := (failed.kept p fun both => timely both.2).port
      rw [port]
      exact ⟨rfl, rfl, rfl, rfl⟩

end Sys2Proof.Machine
end

section
/-! SUPPORT for O26. What the end of the operations that have nothing running leaves of the jobs and of the contexts. -/

namespace Sys2Proof.Machine

/-! ## The jobs -/

/-- A job some of whose rows have ended without completing. -/
def Job.RowsEnded (a b : Job) : Prop :=
  b = { a with
    inFlight := b.inFlight, laneCount := b.laneCount, blocksLost := b.blocksLost, drainCount := b.drainCount }

theorem Job.RowsEnded.refl (a : Job) : a.RowsEnded a := rfl

theorem Job.RowsEnded.trans {a b c : Job} (h : a.RowsEnded b) (k : b.RowsEnded c) : a.RowsEnded c := by
  unfold Job.RowsEnded at *
  rw [k, h]

/-- From `s` to `t` rows of jobs may have ended without completing, and no answer was given. -/
structure State.RowsEnd (s t : State) : Prop where
  jobs : ∀ k, (s.job k).RowsEnded (t.job k)
  answers : t.board.answers = s.board.answers

namespace State.RowsEnd

theorem refl (s : State) : s.RowsEnd s := ⟨fun _ => .refl _, rfl⟩

theorem trans {s t u : State} (h : s.RowsEnd t) (k : t.RowsEnd u) : s.RowsEnd u :=
  ⟨fun j => (h.jobs j).trans (k.jobs j), k.answers.trans h.answers⟩

theorem ite {s t u : State} {c : Prop} [Decidable c] (h : s.RowsEnd t) (k : s.RowsEnd u) :
    s.RowsEnd (if c then t else u) := by
  split
  · exact h
  · exact k

theorem foldl {α : Type} {f : State → α → State} (h : ∀ (s : State) (x : α), s.RowsEnd (f s x)) (l : List α)
    (s : State) : s.RowsEnd (l.foldl f s) := by
  induction l generalizing s with
  | nil => exact refl s
  | cons x rest ih => exact (h s x).trans (ih _)

/-- What leaves the jobs alone and gives no answer. -/
theorem of_eq {s t : State} (jobs : t.jobs = s.jobs) (answers : t.board.answers = s.board.answers) : s.RowsEnd t :=
  ⟨fun k => by rw [State.job, State.job, jobs]; exact .refl _, answers⟩

/-- What moves the ports alone. -/
theorem of_moves {s t : State} (h : s.MovesPorts t) : s.RowsEnd t := of_eq h.jobs (by rw [h.board])

end State.RowsEnd

theorem State.rowsEnd_withJob (s : State) (j : JobId) (f : Job → Job) (h : (s.job j).RowsEnded (f (s.job j))) :
    s.RowsEnd (s.withJob j f) where
  jobs k := by
    rw [State.job_withJob]
    split
    · rename_i same
      exact same ▸ h
    · exact .refl _
  answers := rfl

theorem State.rowsEnd_drainCounted (s : State) (counted : Option JobId) (e : ExtentId) :
    s.RowsEnd (s.drainCounted counted e) := by
  unfold State.drainCounted
  split
  · exact .refl s
  · exact .ite (s.rowsEnd_withJob _ _ rfl) (.refl s)

theorem State.rowsEnd_handOver (s : State) (owner : RowOwner) (row : Nat) {outcome : RowOutcome}
    (failure : outcome.completed = false) (copied : Bool) (t : RowTallies) (kept settled : Bool) :
    s.RowsEnd (s.handOver owner row outcome copied t kept settled) := by
  cases owner with
  | job j =>
    rw [State.handOver, s.jobTakesRow_of_failure j row failure]
    exact .ite (s.rowsEnd_withJob _ _ rfl) (.refl s)
  | slip i piece => exact .of_eq rfl rfl

theorem State.rowsEnd_endOperation (s : State) (c : ContextId) {outcome : RowOutcome}
    (failure : outcome.completed = false) : s.RowsEnd (s.endOperation c outcome) := by
  unfold State.endOperation State.endOperationWith
  split
  · exact .refl s
  · exact ((s.rowsEnd_drainCounted _ _).trans (State.rowsEnd_handOver _ _ _ failure _ _ _ _)).trans (.of_eq rfl rfl)

theorem State.rowsEnd_endWaiting (s : State) (r : RowRequest) {outcome : RowOutcome}
    (failure : outcome.completed = false) : s.RowsEnd (s.endWaiting r outcome) :=
  ((s.rowsEnd_drainCounted _ _).trans (State.rowsEnd_handOver _ _ _ failure _ _ _ _)).trans (.of_eq rfl rfl)

theorem State.rowsEnd_endIdle (s : State) (which : RowOwner → ExtentId → Bool) {outcome : RowOutcome}
    (failure : outcome.completed = false) : s.RowsEnd (s.endIdle which outcome) :=
  .trans (.foldl (fun s _ => s.rowsEnd_endWaiting _ failure) _ s)
    (.foldl (f := fun (s : State) (x : ContextId × Operation) => s.endOperation x.1 outcome)
      (fun s x => s.rowsEnd_endOperation x.1 failure) _ _)

theorem State.movesPorts_withdrawAt (s : State) (c : ContextId) (p : PortId) : s.MovesPorts (s.withdrawAt c p) :=
  (s.movesPorts_withPort p _).trans (.foldl (fun s r => s.movesPorts_deliverFailure p r .withdrawn) _ _)

theorem State.movesPorts_withdraw (s : State) (c : ContextId) : s.MovesPorts (s.withdraw c) :=
  .foldl (fun s p => s.movesPorts_withdrawAt c p) _ s

theorem State.movesPorts_bereave (s : State) (c : ContextId) : s.MovesPorts (s.bereave c) :=
  (s.movesPorts_withdraw c).trans (State.movesPorts_withOperation _ _ _)

theorem State.rowsEnd_loseRows (s : State) (e : ExtentId) : s.RowsEnd (s.loseRows e) := by
  rw [State.loseRows_eq]
  exact .trans (s.rowsEnd_endIdle _ (outcome := .extentLost) rfl)
    (.foldl (f := fun (s : State) (x : ContextId × Operation) => s.bereave x.1)
      (fun s x => .of_moves (s.movesPorts_bereave x.1)) _ _)

/-! ## The contexts and the context wait list -/

theorem State.drainCounted_rows (s : State) (counted : Option JobId) (e : ExtentId) :
    (s.drainCounted counted e).rows = s.rows := by
  unfold State.drainCounted
  split
  · rfl
  · split <;> rfl

theorem State.handOver_rows (s : State) (owner : RowOwner) (row : Nat) {outcome : RowOutcome}
    (failure : outcome.completed = false) (copied : Bool) (t : RowTallies) (kept settled : Bool) :
    (s.handOver owner row outcome copied t kept settled).rows = s.rows := by
  cases owner with
  | job j =>
    rw [State.handOver, s.jobTakesRow_of_failure j row failure]
    split <;> rfl
  | slip i piece => rfl

/-- The end of an operation frees its context and no other. -/
theorem State.context_endOperation (s : State) (c d : ContextId) {outcome : RowOutcome}
    (failure : outcome.completed = false) :
    (s.endOperation c outcome).context d = if c = d then none else s.context d := by
  unfold State.endOperation State.endOperationWith
  split
  · rename_i free
    split
    · rename_i same
      exact same ▸ free
    · rfl
  · rw [State.context_freeContext]
    split
    · rfl
    · rw [State.context, State.handOver_rows _ _ _ failure, State.drainCounted_rows]
      rfl

theorem State.context_endOperations (l : List (ContextId × Operation)) (s : State) (d : ContextId)
    {outcome : RowOutcome} (failure : outcome.completed = false) :
    (l.foldl (fun s x => s.endOperation x.1 outcome) s).context d =
      if d ∈ l.map Prod.fst then none else s.context d := by
  induction l generalizing s with
  | nil => rfl
  | cons x rest ih =>
    rw [List.foldl_cons, ih, State.context_endOperation s x.1 d failure]
    simp only [List.map_cons, List.mem_cons, eq_comm (a := x.1)]
    by_cases first : d = x.1
    · rw [if_pos first, if_pos (Or.inl first), ite_self]
    · rw [if_neg first]
      simp only [or_iff_right first]

theorem State.rows_endWaiting (s : State) (r : RowRequest) {outcome : RowOutcome} (failure : outcome.completed = false) :
    (s.endWaiting r outcome).rows = { s.rows with contextWait := s.rows.contextWait.filter (· != r) } := by
  unfold State.endWaiting
  rw [State.withRows_rows, State.handOver_rows _ _ _ failure, State.drainCounted_rows]

/-- The requests that end where they wait leave the list, and no other. -/
theorem State.rows_endWaitings (l : List RowRequest) (s : State) {outcome : RowOutcome}
    (failure : outcome.completed = false) :
    (l.foldl (fun s r => s.endWaiting r outcome) s).rows =
      { s.rows with contextWait := s.rows.contextWait.filter fun r => decide (r ∉ l) } := by
  induction l generalizing s with
  | nil => simp
  | cons r rest ih =>
    rw [List.foldl_cons, ih, State.rows_endWaiting s r failure, List.filter_filter]
    refine congrArg (fun w => { s.rows with contextWait := w }) (List.filter_congr fun x _ => ?_)
    simp [bne, beq_eq_decide, Bool.and_comm]

/-- The operations in contexts that `which` picks and that have nothing running. -/
def Operation.EndsIdle (which : RowOwner → ExtentId → Bool) (op : Operation) : Prop :=
  op.phase.idle = true ∧ which op.owner op.extent = true

section
variable (s : State) (which : RowOwner → ExtentId → Bool) {outcome : RowOutcome}
  (failure : outcome.completed = false)
include failure

theorem State.rows_endIdleWaiting : ((s.rows.contextWait.filter fun r => which r.owner r.extent).foldl
    (fun s r => s.endWaiting r outcome) s).rows = { s.rows with
      contextWait := s.rows.contextWait.filter fun r =>
        decide (r ∉ s.rows.contextWait.filter fun r => which r.owner r.extent) } :=
  State.rows_endWaitings _ s failure

/-- An operation that has nothing running and is picked is gone. -/
theorem State.context_endIdle_of_ends {c : ContextId} {op : Operation} (held : s.context c = some op)
    (ends : op.EndsIdle which) : (s.endIdle which outcome).context c = none := by
  have waited : ((s.rows.contextWait.filter fun r => which r.owner r.extent).foldl
      (fun s r => s.endWaiting r outcome) s).context c = some op := by
    rw [State.context, s.rows_endIdleWaiting which failure]
    exact held
  refine (State.context_endOperations _ _ c failure).trans (if_pos (List.mem_map.mpr ⟨(c, op), ?_, rfl⟩))
  exact List.mem_filter.mpr ⟨State.mem_operations.mpr waited, Bool.and_eq_true_iff.mpr ends⟩

/-- Any other operation stays as it was. -/
theorem State.context_endIdle_of_not {c : ContextId} (stays : ∀ op, s.context c = some op → ¬ op.EndsIdle which) :
    (s.endIdle which outcome).context c = s.context c := by
  have waited : ((s.rows.contextWait.filter fun r => which r.owner r.extent).foldl
      (fun s r => s.endWaiting r outcome) s).context c = s.context c := by
    rw [State.context, s.rows_endIdleWaiting which failure]
    rfl
  refine (State.context_endOperations _ _ c failure).trans ((if_neg fun mem => ?_).trans waited)
  obtain ⟨x, picked, rfl⟩ := List.mem_map.mp mem
  obtain ⟨listed, ends⟩ := List.mem_filter.mp picked
  exact stays x.2 (waited.symm.trans (State.mem_operations.mp listed)) (Bool.and_eq_true_iff.mp ends)

end

theorem State.contextWait_endOperation (s : State) (c : ContextId) {outcome : RowOutcome}
    (failure : outcome.completed = false) : (s.endOperation c outcome).rows.contextWait = s.rows.contextWait := by
  unfold State.endOperation State.endOperationWith
  split
  · rfl
  · show (State.handOver _ _ _ _ _ _ _ _).rows.contextWait = _
    rw [State.handOver_rows _ _ _ failure, State.drainCounted_rows]

theorem State.contextWait_endOperations (l : List (ContextId × Operation)) (s : State) {outcome : RowOutcome}
    (failure : outcome.completed = false) :
    (l.foldl (fun s x => s.endOperation x.1 outcome) s).rows.contextWait = s.rows.contextWait := by
  induction l generalizing s with
  | nil => rfl
  | cons x rest ih => rw [List.foldl_cons, ih, State.contextWait_endOperation s x.1 failure]

/-- The requests that are picked no longer wait for a context. -/
theorem State.contextWait_endIdle (s : State) (which : RowOwner → ExtentId → Bool) {outcome : RowOutcome}
    (failure : outcome.completed = false) {r : RowRequest} (mem : r ∈ (s.endIdle which outcome).rows.contextWait) :
    which r.owner r.extent = false := by
  unfold State.endIdle at mem
  dsimp only at mem
  rw [State.contextWait_endOperations _ _ failure, State.rows_endIdleWaiting s which failure] at mem
  obtain ⟨waits, stays⟩ := List.mem_filter.mp mem
  exact Bool.eq_false_iff.mpr fun picked => of_decide_eq_true stays (List.mem_filter.mpr ⟨waits, picked⟩)

/-! ## Operations that run on a LOST extent (R63; log 26) -/

/-- What one of a series of steps establishes, and whatever follows keeps, holds at the end of the series. -/
theorem State.foldl_establishes {α : Type} {f : State → α → State}
    (after : ∀ (s : State) (x : α), s.Aftermath ∅ (f s x))
    {P : State → Prop} (stable : ∀ {s t : State}, s.Aftermath ∅ t → P s → P t) {x : α} {l : List α} (mem : x ∈ l)
    (s : State) (reach : ∀ t : State, s.Aftermath ∅ t → P (f t x)) : P (l.foldl f s) := by
  induction l generalizing s with
  | nil => cases mem
  | cons y rest ih =>
    rcases List.mem_cons.mp mem with rfl | mem
    · exact stable (.foldl after rest _) (reach s (.refl s))
    · exact ih mem (f s y) fun t h => reach t ((after s y).trans h)

/-- No request of context `c` is pending at port `q`. -/
def State.NonePending (s : State) (c : ContextId) (q : PortId) : Prop := ∀ r ∈ (s.port q).waiting, r.owner ≠ some c

theorem State.NonePending.aftermath {M : Set ExtentId} {s t : State} {c : ContextId} {q : PortId}
    (none : s.NonePending c q) (h : s.Aftermath M t) : t.NonePending c q := by
  obtain ⟨w, sub, port⟩ := h.ports q
  intro r mem
  rw [port] at mem
  exact none r (sub.subset mem)

theorem State.nonePending_withdraw (s : State) (c : ContextId) (q : PortId) : (s.withdraw c).NonePending c q := by
  refine State.foldl_establishes (fun s p => s.aftermath_withdrawAt c p) (P := fun t => t.NonePending c q)
    (fun h none => none.aftermath h) (mem_bankIndices q) s fun t _ r mem => ?_
  have mem : r ∈ ((t.dropWaiting q (fun r => r.owner == some c) .withdrawn).port q).waiting := mem
  rw [State.dropWaiting_port, if_pos rfl] at mem
  simpa using (List.mem_filter.mp mem).2

/-- The operation of context `c` goes on in a phase, remembers the loss of its extent, and has nothing more to write and
nothing pending. -/
structure State.Bereft (s : State) (c : ContextId) (phase : Phase) : Prop where
  operation : ∃ op, s.context c = some op ∧ op.phase = phase ∧ op.lostSeen = true ∧ op.writesLeft = []
  pending : ∀ q, s.NonePending c q

theorem State.Bereft.aftermath {M : Set ExtentId} {s t : State} {c : ContextId} {phase : Phase}
    (bereft : s.Bereft c phase) (running : phase.idle = false) (h : s.Aftermath M t) : t.Bereft c phase := by
  obtain ⟨op, held, rfl, lost, nothing⟩ := bereft.operation
  have follows := h.contexts c
  rw [held] at follows
  obtain ⟨op', held', goes⟩ := follows.of_running running
  exact ⟨⟨op', held', goes.phase, goes.lostSeen lost, List.subset_nil.mp (nothing ▸ goes.writesLeft)⟩,
    fun q => (bereft.pending q).aftermath h⟩

theorem State.bereft_bereave {s : State} {c : ContextId} {op : Operation} (held : s.context c = some op)
    (running : op.phase.idle = false) : (s.bereave c).Bereft c op.phase := by
  have follows := (s.aftermath_withdraw c).contexts c
  rw [held] at follows
  obtain ⟨op', held', goes⟩ := follows.of_running running
  refine ⟨⟨op'.bereft, ?_, goes.phase, rfl, rfl⟩, fun q => (s.nonePending_withdraw c q).aftermath
    (State.aftermath_withOperation _ c _ fun _ _ => ⟨rfl, rfl, rfl, fun _ => rfl, fun _ h => h, List.nil_subset _⟩)⟩
  rw [State.bereave, State.context_withOperation_self, held']
  rfl

theorem Phase.idle_of_running {phase : Phase} (running : phase.running = true) : phase.idle = false := by
  cases phase with
  | holdWait | frameWait | awaitMember => cases running
  | _ => rfl

/-- What becomes of the operations on an extent that has become LOST. -/
structure State.RowsLost (s : State) (e : ExtentId) (t : State) : Prop where
  waits : ∀ r ∈ t.rows.contextWait, r.extent ≠ e
  idle : ∀ c op, s.context c = some op → op.extent = e → op.phase.idle = true → t.context c = none
  running : ∀ c op, s.context c = some op → op.extent = e → op.phase.running = true → t.Bereft c op.phase
  others : ∀ c op, s.context c = some op → op.phase.idle = false → (t.context c).map Operation.phase = some op.phase

theorem State.rowsLost (s : State) (e : ExtentId) : s.RowsLost e (s.loseRows e) := by
  have whole := s.aftermath_loseRows e
  have ended : s.Aftermath ∅ (s.endIdle (fun _ x => x == e) .extentLost) := s.aftermath_endIdle _ rfl
  have bereaved : (s.endIdle (fun _ x => x == e) .extentLost).Aftermath ∅ (s.loseRows e) := by
    rw [State.loseRows_eq]
    exact .foldl (f := fun (s : State) (x : ContextId × Operation) => s.bereave x.1) (fun s x => s.aftermath_bereave x.1)
      _ _
  refine ⟨fun r mem => ?_, fun c op held here idle => ?_, fun c op held here running => ?_, fun c op held busy => ?_⟩
  · simpa using s.contextWait_endIdle (fun _ x => x == e) rfl (bereaved.waits mem)
  · have gone := s.context_endIdle_of_ends (fun _ x => x == e) (outcome := .extentLost) rfl held
      ⟨idle, beq_iff_eq.mpr here⟩
    have follows := bereaved.contexts c
    rw [gone] at follows
    cases after : (s.loseRows e).context c with
    | none => rfl
    | some op' =>
      rw [after] at follows
      cases follows
  · have busy := Phase.idle_of_running running
    have stays := s.context_endIdle_of_not (fun _ x => x == e) (outcome := .extentLost) rfl (c := c)
      fun op' held' ends => by
      obtain rfl : op = op' := Option.some.inj (held.symm.trans held')
      rw [ends.1] at busy
      cases busy
    rw [held] at stays
    rw [State.loseRows_eq]
    refine State.foldl_establishes (f := fun (s : State) (x : ContextId × Operation) => s.bereave x.1)
      (fun s x => s.aftermath_bereave x.1) (P := fun t => t.Bereft c op.phase) (fun h b => b.aftermath busy h)
      (x := (c, op)) (List.mem_filter.mpr ⟨State.mem_operations.mpr stays, ?_⟩) _ fun t h => ?_
    · simp [running, here]
    · have follows := h.contexts c
      rw [stays] at follows
      obtain ⟨op', held', goes⟩ := follows.of_running busy
      rw [← goes.phase]
      exact State.bereft_bereave held' (goes.phase ▸ busy)
  · have follows := whole.contexts c
    rw [held] at follows
    obtain ⟨op', held', goes⟩ := follows.of_running busy
    rw [held', Option.map_some, goes.phase]

end Sys2Proof.Machine
end

section
/-! SUPPORT for O26. What a drain, a new condition and the failure of a member are to a job. -/

namespace Sys2Proof.Machine

/-! ## Drains -/

theorem State.supersedePause_answers (s : State) (j : JobId) (cause : EndCause) :
    (s.supersedePause j cause).board.answers = s.board.answers ++ s.supersededPause j cause := by
  unfold State.supersedePause State.supersededPause
  by_cases pausing : (s.job j).state = .pausing
  · rw [if_pos pausing, pausing]
    cases (s.job j).control with
    | none => exact (List.append_nil _).symm
    | some slip => rfl
  · rw [if_neg pausing, List.append_nil]
    split
    · exact absurd ‹_› pausing
    · rfl

/-- The answer that a drain gives: to the PAUSE that it supersedes, where the job can be set draining. -/
def State.drainAnswers (s : State) (j : JobId) (cause : EndCause) : List Answer :=
  if (s.job j).drainable then s.supersededPause j cause else []

theorem State.drainJob_answers (s : State) (j : JobId) (cause : EndCause) :
    (s.drainJob j cause).board.answers = s.board.answers ++ s.drainAnswers j cause := by
  rw [State.drainJob_eq, State.drainAnswers]
  split
  · exact s.supersedePause_answers j cause
  · exact (List.append_nil _).symm

/-- A job set draining, where it can be. -/
def Job.drainedIf (cause : EndCause) (x : Job) : Job := if x.drainable then x.drained cause else x

theorem Job.drainedIf_of_drainable {x : Job} (cause : EndCause) (h : x.drainable = true) :
    x.drainedIf cause = x.drained cause := if_pos h

theorem Job.drainedIf_of_not {x : Job} (cause : EndCause) (h : x.drainable = false) : x.drainedIf cause = x :=
  if_neg (by rw [h]; exact Bool.false_ne_true)

theorem State.drainJob_job (s : State) (j k : JobId) (cause : EndCause) :
    (s.drainJob j cause).job k = if j = k then (s.job k).drainedIf cause else s.job k := by
  rw [State.drainJob_eq]
  by_cases drainable : (s.job j).drainable = true
  · rw [if_pos drainable]
    have drained := (s.supersedePause j cause).job_withJob j k (Job.drained cause)
    rw [State.supersedePause_job] at drained
    refine drained.trans ?_
    split
    · rename_i same
      exact (Job.drainedIf_of_drainable cause (same ▸ drainable)).symm
    · rfl
  · rw [if_neg drainable]
    split
    · rename_i same
      exact (Job.drainedIf_of_not cause (same ▸ Bool.not_eq_true _ ▸ drainable)).symm
    · rfl

theorem State.drainJob_rows (s : State) (j : JobId) (cause : EndCause) : (s.drainJob j cause).rows = s.rows := by
  rw [State.drainJob_eq]
  split
  · show (s.supersedePause j cause).rows = s.rows
    unfold State.supersedePause
    split <;> rfl
  · rfl

/-- A job on its extent whose last row has not ended can be set draining unless it is ABORTING. -/
theorem Job.drainable_iff {x : Job} (on : x.isOn = true) :
    x.drainable = true ↔ x.completes = false ∧ x.state ≠ .aborting := by
  unfold Job.isOn at on
  unfold Job.drainable
  cases state : x.state <;> simp_all [JobState.drainable]

theorem Job.completes_iff {x : Job} :
    x.completes = true ↔ (x.state = .running ∨ x.state = .pausing) ∧ x.frontier = x.endRow := by
  simp [Job.completes]

/-! ## A new condition (R98) -/

/-- A job that sees a new condition of its extent. -/
def Job.seen (new : Condition) (x : Job) : Job :=
  if new = .lost then ({ x with exposed := new == .exposed } : Job).drainedIf .extentLost
  else { x with exposed := new == .exposed }

theorem State.jobSeesCondition_of_on {s : State} {e : ExtentId} {j : JobId} (on : s.jobOn e = some j) (new : Condition) :
    s.jobSeesCondition e new =
      if new = .lost then (s.withJob j fun x => { x with exposed := new == .exposed }).drainJob j .extentLost
      else s.withJob j fun x => { x with exposed := new == .exposed } := by
  unfold State.jobSeesCondition
  rw [on]

theorem State.jobSeesCondition_job {s : State} {e : ExtentId} {j : JobId} (on : s.jobOn e = some j) (new : Condition)
    (k : JobId) : (s.jobSeesCondition e new).job k = if j = k then (s.job k).seen new else s.job k := by
  rw [State.jobSeesCondition_of_on on, Job.seen]
  have exposed := s.job_withJob j k fun x => { x with exposed := new == .exposed }
  by_cases lost : new = .lost
  · rw [if_pos lost, if_pos lost, State.drainJob_job, exposed]
    split <;> rfl
  · rw [if_neg lost, if_neg lost, exposed]

/-- The answers that a new condition gives. -/
theorem State.jobSeesCondition_answers {s : State} {e : ExtentId} {j : JobId} (on : s.jobOn e = some j)
    (new : Condition) : (s.jobSeesCondition e new).board.answers =
      s.board.answers ++ if new = .lost then s.drainAnswers j .extentLost else [] := by
  rw [State.jobSeesCondition_of_on on]
  split
  · rw [State.drainJob_answers]
    refine congrArg (s.board.answers ++ ·) ?_
    simp only [State.drainAnswers, State.supersededPause, State.job_withJob_self]
    rfl
  · exact (List.append_nil _).symm

theorem State.jobSeesCondition_of_none {s : State} {e : ExtentId} (none : s.jobOn e = none) (new : Condition) :
    s.jobSeesCondition e new = s := by
  unfold State.jobSeesCondition
  rw [none]

theorem State.jobSeesCondition_rows (s : State) (e : ExtentId) (new : Condition) :
    (s.jobSeesCondition e new).rows = s.rows := by
  cases on : s.jobOn e with
  | none => rw [State.jobSeesCondition_of_none on]
  | some j =>
    rw [State.jobSeesCondition_of_on on]
    split
    · exact State.drainJob_rows _ _ _
    · rfl

/-! ## A condition recomputed (R10) -/

theorem State.recompute_of_same {s : State} {e : ExtentId} (same : s.conditionOf e = (s.extent e).condition) :
    s.recompute e = s := by
  unfold State.recompute
  dsimp only
  rw [if_pos same, ite_self]

/-- The entry of an extent set to its new condition, and the change published and seen by its job. -/
def State.conditionSeen (s : State) (e : ExtentId) : State :=
  ((s.withExtent e fun x => { x with condition := s.conditionOf e }).askPublish).jobSeesCondition e (s.conditionOf e)

theorem State.recompute_of_changed {s : State} {e : ExtentId} (used : (s.extent e).inUse = true)
    (changed : s.conditionOf e ≠ (s.extent e).condition) :
    s.recompute e = if s.conditionOf e = .lost then (s.conditionSeen e).loseRows e else s.conditionSeen e := by
  unfold State.recompute
  rw [if_pos used]
  exact if_neg changed

theorem State.conditionSeen_rows (s : State) (e : ExtentId) : (s.conditionSeen e).rows = s.rows :=
  State.jobSeesCondition_rows _ e _

/-- From the state in which the job has seen a changed condition, only rows end. -/
theorem State.rowsEnd_recompute {s : State} {e : ExtentId} (used : (s.extent e).inUse = true)
    (changed : s.conditionOf e ≠ (s.extent e).condition) : (s.conditionSeen e).RowsEnd (s.recompute e) := by
  rw [State.recompute_of_changed used changed]
  exact .ite (State.rowsEnd_loseRows _ e) (.refl _)

theorem State.conditionSeen_job {s : State} {e : ExtentId} {j : JobId} (on : s.jobOn e = some j) (k : JobId) :
    (s.conditionSeen e).job k = if j = k then (s.job k).seen (s.conditionOf e) else s.job k :=
  State.jobSeesCondition_job (s := (s.withExtent e _).askPublish) on _ k

theorem State.conditionSeen_answers {s : State} {e : ExtentId} {j : JobId} (on : s.jobOn e = some j) :
    (s.conditionSeen e).board.answers =
      s.board.answers ++ if s.conditionOf e = .lost then s.drainAnswers j .extentLost else [] :=
  State.jobSeesCondition_answers (s := (s.withExtent e _).askPublish) on _

theorem State.conditionSeen_of_none {s : State} {e : ExtentId} (none : s.jobOn e = none) :
    s.conditionSeen e = (s.withExtent e fun x => { x with condition := s.conditionOf e }).askPublish :=
  State.jobSeesCondition_of_none (s := (s.withExtent e _).askPublish) none _

/-- What a new condition leaves of a job: all but its state, its drain and its exposed flag, and of one that cannot be set
draining all but the flag. -/
structure Job.Sees (a b : Job) : Prop where
  mode : b.mode = a.mode
  outgoing : b.outgoing = a.outgoing
  sources : b.sources = a.sources
  targetless : b.targetless = a.targetless
  quiet : a.drainable = false → b.state = a.state ∧ b.drainCause = a.drainCause ∧ b.control = a.control

theorem Job.RowsEnded.sees {a b : Job} (h : a.RowsEnded b) : a.Sees b := by
  rw [h]
  exact ⟨rfl, rfl, rfl, rfl, fun _ => ⟨rfl, rfl, rfl⟩⟩

theorem Job.seen_sees (new : Condition) (x : Job) : x.Sees (x.seen new) := by
  unfold Job.seen
  split
  · unfold Job.drainedIf
    split
    · rename_i drainable
      refine ⟨rfl, rfl, rfl, rfl, fun quiet => ?_⟩
      have drainable : x.drainable = true := drainable
      rw [quiet] at drainable
      cases drainable
    · exact ⟨rfl, rfl, rfl, rfl, fun _ => ⟨rfl, rfl, rfl⟩⟩
  · exact ⟨rfl, rfl, rfl, rfl, fun _ => ⟨rfl, rfl, rfl⟩⟩

/-- Rows that end after a job has seen a condition change none of it. -/
theorem Job.Sees.rowsEnded {a b c : Job} (h : a.Sees b) (k : b.RowsEnded c) : a.Sees c := by
  rw [k]
  exact ⟨h.mode, h.outgoing, h.sources, h.targetless, h.quiet⟩

theorem State.sees_recompute (s : State) (e : ExtentId) (k : JobId) : (s.job k).Sees ((s.recompute e).job k) := by
  have refl : (s.job k).Sees (s.job k) := Job.RowsEnded.sees (.refl _)
  by_cases used : (s.extent e).inUse = true
  · by_cases same : s.conditionOf e = (s.extent e).condition
    · rw [State.recompute_of_same same]
      exact refl
    · refine Job.Sees.rowsEnded ?_ ((State.rowsEnd_recompute used same).jobs k)
      cases on : s.jobOn e with
      | none =>
        rw [State.conditionSeen_of_none on]
        exact refl
      | some j =>
        rw [State.conditionSeen_job on]
        split
        · exact Job.seen_sees _ _
        · exact refl
  · unfold State.recompute
    rw [if_neg used]
    exact refl

theorem State.sees_recomputeOf (s : State) (p : PortId) (k : JobId) : (s.job k).Sees ((s.recomputeOf p).job k) := by
  unfold State.recomputeOf
  split
  · exact s.sees_recompute _ k
  · exact Job.RowsEnded.sees (.refl _)

/-! ## The failure of a member and one job (R97, R99) -/

/-- A job on its extent that copies from port `p`. -/
def Job.copiesFrom (p : PortId) (x : Job) : Bool :=
  x.isOn && !x.completes && x.mode == .copy && x.outgoing == some p

/-- A job on its extent that has port `p` as a target to lose. -/
def Job.aimsAt (p : PortId) (x : Job) : Bool := x.isOn && !x.completes && x.ownTargets.contains p

theorem Job.copiesFrom_iff {p : PortId} {x : Job} :
    x.copiesFrom p = true ↔ x.isOn = true ∧ x.completes = false ∧ x.mode = .copy ∧ x.outgoing = some p := by
  simp only [Job.copiesFrom, Bool.and_eq_true, Bool.not_eq_true', beq_iff_eq, and_assoc]

theorem Job.aimsAt_iff {p : PortId} {x : Job} : x.aimsAt p = true ↔
    x.isOn = true ∧ x.completes = false ∧ x.targetless = false ∧ ∃ y ∈ x.sources, y.target = p := by
  unfold Job.aimsAt Job.ownTargets
  cases x.targetless <;> simp [and_assoc]

/-- A COPY job that turns to RECONSTRUCT (R97). -/
def Job.reconstructs (x : Job) : Job := { x with mode := .reconstruct, outgoing := none }

theorem State.copyToReconstruct_of_none {s : State} {p : PortId} (none : ∀ k, (s.job k).copiesFrom p = false) :
    s.copyToReconstruct p = s := by
  have found : ((bankIndices 4).find? fun j => (s.job j).copiesFrom p) = Option.none :=
    List.find?_eq_none.mpr fun k _ => by simp [none k]
  unfold Job.copiesFrom at found
  unfold State.copyToReconstruct
  rw [found]

theorem State.copyToReconstruct_of_only {s : State} {p : PortId} {j : JobId} (copies : (s.job j).copiesFrom p = true)
    (only : ∀ k, k ≠ j → (s.job k).copiesFrom p = false) :
    s.copyToReconstruct p = (s.withJob j Job.reconstructs).askPublish := by
  have found : ((bankIndices 4).find? fun j => (s.job j).copiesFrom p) = some j :=
    find?_bankIndices_eq_some.mpr ⟨copies, fun k low => only k (ne_of_lt low)⟩
  unfold Job.copiesFrom at found
  unfold State.copyToReconstruct
  rw [found]
  rfl

theorem State.targetLost_of_none {s : State} {p : PortId} (none : ∀ k, (s.job k).aimsAt p = false) :
    s.targetLost p = s := by
  have picked : ((bankIndices 4).filter fun j => (s.job j).aimsAt p) = [] :=
    List.filter_eq_nil_iff.mpr fun k _ => by simp [none k]
  unfold Job.aimsAt at picked
  unfold State.targetLost
  rw [picked]
  rfl

theorem State.targetLost_of_only {s : State} {p : PortId} {j : JobId} (aims : (s.job j).aimsAt p = true)
    (only : ∀ k, k ≠ j → (s.job k).aimsAt p = false) : s.targetLost p = State.loseTarget p s j := by
  have same : (fun k => (s.job k).aimsAt p) = fun k => k == j := funext fun k => by
    by_cases here : k = j
    · rw [here, aims, beq_self_eq_true]
    · rw [only k here, beq_eq_false_iff_ne.mpr here]
  have picked : ((bankIndices 4).filter fun j => (s.job j).aimsAt p) = [j] := by
    rw [same, List.filter_beq, List.count_eq_one_of_mem (bankIndices_nodup 4) (mem_bankIndices j)]
    rfl
  unfold Job.aimsAt at picked
  unfold State.targetLost
  rw [picked]
  rfl

end Sys2Proof.Machine
end

section
/-! O26: what a member's failure is to a job. -/

namespace Sys2Proof.Machine

/-! ## The port before its failure is reported -/

/-- LINK_DOWN at an ONLINE or TARGET port up to the report of its member's failure to the jobs: the port has fallen, the
owners of its requests are told, and the operations that wait for it wake. -/
def State.portFailed (s : State) (p : PortId) : State :=
  ((((s.linkLost p).withPort p fun x => { x.clearFlags with memberState := .failed }).loseRequests p).askPublish).wake p

theorem State.movesPorts_loseRequests (s : State) (p : PortId) : s.MovesPorts (s.loseRequests p) :=
  State.MovesPorts.trans (t := s.withPort p Port.emptied) rfl
    (.foldl (fun s r => s.movesPorts_deliverFailure p r .linkLost) _ _)

theorem State.movesPorts_portFailed (s : State) (p : PortId) : s.MovesPorts (s.portFailed p) :=
  State.MovesPorts.trans
    (State.MovesPorts.trans (t := (s.linkLost p).withPort p fun x => { x.clearFlags with memberState := .failed }) rfl
      (State.movesPorts_loseRequests _ p)) rfl

theorem State.aftermath_portFailed (s : State) (p : PortId) :
    ((s.linkLost p).withPort p Port.fallen).Aftermath ∅ (s.portFailed p) :=
  (((s.linkLost p).aftermath_fallen p).trans (State.aftermath_askPublish _)).trans (State.aftermath_wake _ p)

/-- The member of `p` is FAILED, and the others are as they were. -/
theorem State.portFailed_memberState (s : State) (p q : PortId) :
    ((s.portFailed p).port q).memberState = if p = q then .failed else (s.port q).memberState := by
  obtain ⟨w, -, port⟩ := (s.aftermath_portFailed p).ports q
  rw [State.linkLost_withPort] at port
  have before := s.port_withPort p q fun x => Port.fallen { x with link := .down }
  rw [port, show ((s.withPort p fun x => Port.fallen { x with link := .down }).askPublish.port q) = _ from before]
  split <;> rfl

theorem State.portFailed_answers (s : State) (p : PortId) : (s.portFailed p).board.answers = s.board.answers := by
  rw [(s.movesPorts_portFailed p).board]

theorem State.portFailed_job (s : State) (p : PortId) (k : JobId) : (s.portFailed p).job k = s.job k := by
  rw [State.job, (s.movesPorts_portFailed p).jobs, State.job]

/-- Every operation keeps its phase. -/
def State.PhasesKept (s t : State) : Prop :=
  ∀ c, (t.context c).map Operation.phase = (s.context c).map Operation.phase

theorem State.PhasesKept.trans {s t u : State} (h : s.PhasesKept t) (k : t.PhasesKept u) : s.PhasesKept u :=
  fun c => (k c).trans (h c)

theorem State.PhasesKept.foldl {α : Type} {f : State → α → State} (h : ∀ (s : State) (x : α), s.PhasesKept (f s x))
    (l : List α) (s : State) : s.PhasesKept (l.foldl f s) := by
  induction l generalizing s with
  | nil => exact fun _ => rfl
  | cons x rest ih => exact (h s x).trans (ih _)

theorem State.phasesKept_of_map {s t : State} {g : ContextId → Operation → Operation}
    (contexts : ∀ c, t.context c = (s.context c).map (g c)) (phase : ∀ c op, (g c op).phase = op.phase) :
    s.PhasesKept t := fun c => by
  rw [contexts c, Option.map_map]
  exact congrArg (Option.map · _) (funext (phase c))

theorem State.phasesKept_deliverFailure (s : State) (p : PortId) (r : Request) (ending : Ending) :
    s.PhasesKept (s.deliverFailure p r ending) :=
  State.phasesKept_of_map (s.context_deliverFailure p r ending) fun c op => by
    unfold Operation.failedRequest
    split
    · rfl
    · split <;> rfl

theorem State.phasesKept_portFailed (s : State) (p : PortId) : s.PhasesKept (s.portFailed p) := by
  have lost : ∀ t : State, t.PhasesKept (t.loseRequests p) := fun t =>
    State.PhasesKept.foldl (fun s r => s.phasesKept_deliverFailure p r .linkLost) _ (t.withPort p Port.emptied)
  have woken : ∀ t : State, t.PhasesKept (t.askPublish.wake p) := fun t =>
    State.phasesKept_of_map (g := fun _ => Operation.wakenFor p) (fun c => State.context_wake _ p c)
      fun _ op => op.wakenFor_phase p
  exact (lost ((s.linkLost p).withPort p _)).trans (woken _)

/-- An operation found before the failure is there after it. -/
theorem State.portFailed_goesOn {s : State} {p : PortId} {c : ContextId} {op : Operation}
    (held : s.context c = some op) : ∃ op', (s.portFailed p).context c = some op' ∧ op.GoesOn op' := by
  have follows := (s.aftermath_portFailed p).contexts c
  have before : ((s.linkLost p).withPort p Port.fallen).context c = some op := held
  rw [before] at follows
  have kept := s.phasesKept_portFailed p c
  rw [held] at kept
  cases after : (s.portFailed p).context c with
  | none =>
    rw [after] at kept
    cases kept
  | some op' =>
    rw [after] at follows
    cases follows with
    | goesOn goes => exact ⟨op', rfl, goes⟩

/-- LINK_DOWN at an ONLINE or TARGET port: the failure reaches the jobs, and then the layout map. -/
theorem execLinkDown_of_serves {s : State} {p : PortId}
    (serves : (s.port p).memberState = .online ∨ (s.port p).memberState = .target) :
    exec (.linkDown p) s = ((((s.portFailed p).copyToReconstruct p).targetLost p).recomputeOf p).done ∧
      s.LinkDowned p ((((s.portFailed p).copyToReconstruct p).targetLost p).recomputeOf p) := by
  have fails : (s.linkLost p).failMember p =
      (((s.portFailed p).copyToReconstruct p).targetLost p).recomputeOf p := by
    rw [State.failMember_eq, State.reportMember_eq, State.failureSeen]
    have failed : ((s.portFailed p).port p).memberState = .failed := by
      rw [State.portFailed_memberState, if_pos rfl]
    exact congrArg (fun t => State.recomputeOf t p) (if_pos failed)
  have here : ((s.linkLost p).port p).memberState = (s.port p).memberState := by rw [State.port_linkLost]
  have unlinked : (s.port p).unlinked = { (s.port p).fallen with link := .down } := by
    unfold Port.unlinked
    rcases serves with online | target
    · rw [online]
    · rw [target]
  rw [← fails]
  refine ⟨?_, State.linkDowned_failMember unlinked⟩
  show execLinkDown p s = _
  have run : execLinkDown p s = match ((s.linkLost p).port p).memberState with
      | .online | .target => ((s.linkLost p).failMember p).done
      | .spare | .released => (((s.linkLost p).loseRequests p).changeMember p .absent).done
      | .absent | .failed => ((s.linkLost p).loseRequests p).done := rfl
  rw [run, here]
  rcases serves with online | target
  · rw [online]
  · rw [target]

/-! ## The one job that the failure may reach -/

/-- No job but `j` copies from port `p` or has it as a target to lose. -/
def State.ReachesOnly (s : State) (p : PortId) (j : JobId) : Prop :=
  ∀ k, k ≠ j → (s.job k).copiesFrom p = false ∧ (s.job k).aimsAt p = false

theorem State.copyToReconstruct_of_reaches {s : State} {p : PortId} {j : JobId} (only : s.ReachesOnly p j) :
    s.copyToReconstruct p =
      if (s.job j).copiesFrom p then (s.withJob j Job.reconstructs).askPublish else s := by
  cases copies : (s.job j).copiesFrom p with
  | true => exact State.copyToReconstruct_of_only copies fun k other => (only k other).1
  | false =>
    refine State.copyToReconstruct_of_none fun k => ?_
    by_cases same : k = j
    · exact same ▸ copies
    · exact (only k same).1

theorem State.targetLost_of_reaches {s : State} {p : PortId} {j : JobId}
    (only : ∀ k, k ≠ j → (s.job k).aimsAt p = false) :
    s.targetLost p = if (s.job j).aimsAt p then State.loseTarget p s j else s := by
  cases aims : (s.job j).aimsAt p with
  | true => exact State.targetLost_of_only aims only
  | false =>
    refine State.targetLost_of_none fun k => ?_
    by_cases same : k = j
    · exact same ▸ aims
    · exact only k same

/-- A target lost among others: the record drops it (R99). -/
theorem State.loseTarget_of_another {s : State} {p : PortId} {j : JobId}
    (another : ∃ y ∈ (s.job j).sources, y.target ≠ p ∧ (s.port y.target).memberState = .target) :
    State.loseTarget p s j =
      (s.withJob j fun x => { x with sources := x.sources.filter fun y => y.target ≠ p }).askPublish := by
  have found : ((s.job j).sources.any fun x => x.target != p && (s.port x.target).memberState == .target) = true := by
    simpa [List.any_eq_true, and_assoc] using another
  refine (if_pos found).trans ?_
  simp only [bne, beq_eq_decide, ne_eq, decide_not]

/-- The last target lost: the job drains, and its rows that have nothing running end (R99, R63). -/
theorem State.loseTarget_of_last {s : State} {p : PortId} {j : JobId}
    (last : ¬ ∃ y ∈ (s.job j).sources, y.target ≠ p ∧ (s.port y.target).memberState = .target) :
    State.loseTarget p s j =
      ((s.drainJob j .targetLost).withJob j fun x => { x with targetless := true }).endTargetless j := by
  refine if_neg fun found => last ?_
  simpa [List.any_eq_true, and_assoc] using found

theorem State.rowsEnd_endTargetless (s : State) (j : JobId) : s.RowsEnd (s.endTargetless j) :=
  .ite (s.rowsEnd_endIdle _ rfl) (.refl s)

/-- A job that loses a target keeps its mode and its outgoing port. -/
theorem State.loseTarget_keeps (s : State) (p : PortId) (j : JobId) :
    ((State.loseTarget p s j).job j).mode = (s.job j).mode ∧
      ((State.loseTarget p s j).job j).outgoing = (s.job j).outgoing := by
  by_cases another : ∃ y ∈ (s.job j).sources, y.target ≠ p ∧ (s.port y.target).memberState = .target
  · rw [State.loseTarget_of_another another]
    have dropped := s.job_withJob_self j fun x => { x with sources := x.sources.filter fun y => y.target ≠ p }
    rw [show ((s.withJob j fun x => { x with sources := x.sources.filter fun y => y.target ≠ p }).askPublish.job j) = _
      from dropped]
    exact ⟨rfl, rfl⟩
  · rw [State.loseTarget_of_last another, (State.rowsEnd_endTargetless _ j).jobs j, State.job_withJob_self,
      State.drainJob_job, if_pos rfl]
    unfold Job.drainedIf
    split <;> exact ⟨rfl, rfl⟩

/-! ## The failure as the jobs take it -/

/-- A job after the failure of the port that it copies from, if it does. -/
def Job.afterCopy (p : PortId) (x : Job) : Job := if x.copiesFrom p then x.reconstructs else x

theorem Job.afterCopy_of_copies {p : PortId} {x : Job} (h : x.copiesFrom p = true) : x.afterCopy p = x.reconstructs :=
  if_pos h

theorem Job.afterCopy_of_not {p : PortId} {x : Job} (h : x.copiesFrom p = false) : x.afterCopy p = x :=
  if_neg (by rw [h]; exact Bool.false_ne_true)

/-- A job that turns to RECONSTRUCT keeps all but its mode and its outgoing port. -/
theorem Job.afterCopy_eq (p : PortId) (x : Job) :
    x.afterCopy p = { x with mode := (x.afterCopy p).mode, outgoing := (x.afterCopy p).outgoing } := by
  unfold Job.afterCopy
  split <;> rfl

theorem Job.afterCopy_drainable (p : PortId) (x : Job) : (x.afterCopy p).drainable = x.drainable := by
  rw [Job.afterCopy_eq]
  rfl

theorem Job.afterCopy_aimsAt (p : PortId) (x : Job) : (x.afterCopy p).aimsAt p = x.aimsAt p := by
  rw [Job.afterCopy_eq]
  rfl

/-- The failure once a COPY job has seen it. -/
def State.copySeen (s : State) (p : PortId) : State := (s.portFailed p).copyToReconstruct p

/-- The failure once the jobs have seen it. -/
def State.jobsTold (s : State) (p : PortId) : State := (s.copySeen p).targetLost p

theorem State.aftermath_copySeen (s : State) (p : PortId) : (s.portFailed p).Aftermath ∅ (s.copySeen p) :=
  State.aftermath_copyToReconstruct _ p

theorem State.aftermath_jobsTold (s : State) (p : PortId) : (s.portFailed p).Aftermath ∅ (s.jobsTold p) :=
  (s.aftermath_copySeen p).trans (State.aftermath_targetLost _ p)

theorem State.extentOfPort_portFailed (s : State) (p : PortId) : (s.portFailed p).extentOfPort = s.extentOfPort :=
  State.extentOfPort_congr (s.movesPorts_portFailed p).extents (s.movesPorts_portFailed p).jobs

theorem State.extentOfPort_jobsTold (s : State) (p : PortId) : (s.jobsTold p).extentOfPort = s.extentOfPort :=
  (s.aftermath_jobsTold p).extentOfPort.trans (s.extentOfPort_portFailed p)

theorem State.reachesOnly_portFailed {s : State} {p : PortId} {j : JobId} (only : s.ReachesOnly p j) :
    (s.portFailed p).ReachesOnly p j := fun k other => by
  rw [State.portFailed_job]
  exact only k other

section
variable {s : State} {p : PortId} {j : JobId} (only : s.ReachesOnly p j)
include only

theorem State.copySeen_eq : s.copySeen p =
    if (s.job j).copiesFrom p then ((s.portFailed p).withJob j Job.reconstructs).askPublish else s.portFailed p := by
  rw [State.copySeen, State.copyToReconstruct_of_reaches (State.reachesOnly_portFailed only), State.portFailed_job]

theorem State.copySeen_job (k : JobId) : (s.copySeen p).job k = (s.job k).afterCopy p := by
  rw [State.copySeen_eq only]
  cases copies : (s.job j).copiesFrom p with
  | true =>
    refine ((s.portFailed p).job_withJob j k Job.reconstructs).trans ?_
    rw [State.portFailed_job]
    by_cases same : j = k
    · rw [if_pos same, Job.afterCopy_of_copies (same ▸ copies)]
    · rw [if_neg same, Job.afterCopy_of_not (only k (Ne.symm same)).1]
  | false =>
    refine (s.portFailed_job p k).trans ?_
    by_cases same : j = k
    · rw [Job.afterCopy_of_not (same ▸ copies)]
    · rw [Job.afterCopy_of_not (only k (Ne.symm same)).1]

theorem State.copySeen_rows : (s.copySeen p).rows = (s.portFailed p).rows := by
  rw [State.copySeen_eq only]
  split <;> rfl

theorem State.copySeen_answers : (s.copySeen p).board.answers = s.board.answers := by
  rw [← s.portFailed_answers p, State.copySeen_eq only]
  split <;> rfl

theorem State.jobsTold_eq : s.jobsTold p =
    if (s.job j).aimsAt p then State.loseTarget p (s.copySeen p) j else s.copySeen p := by
  rw [State.jobsTold, State.targetLost_of_reaches (j := j) fun k other => ?_, State.copySeen_job only,
    Job.afterCopy_aimsAt]
  rw [State.copySeen_job only, Job.afterCopy_aimsAt]
  exact (only k other).2

theorem State.jobsTold_of_not_aims (aims : (s.job j).aimsAt p = false) : s.jobsTold p = s.copySeen p := by
  rw [State.jobsTold_eq only, aims]
  rfl

theorem State.jobsTold_keeps : ((s.jobsTold p).job j).mode = ((s.job j).afterCopy p).mode ∧
    ((s.jobsTold p).job j).outgoing = ((s.job j).afterCopy p).outgoing := by
  rw [State.jobsTold_eq only, ← State.copySeen_job only j]
  split
  · exact State.loseTarget_keeps _ p j
  · exact ⟨rfl, rfl⟩

/-- The mode and the outgoing port at the end. -/
theorem State.failureSeen_mode : (((s.jobsTold p).recomputeOf p).job j).mode = ((s.job j).afterCopy p).mode ∧
    (((s.jobsTold p).recomputeOf p).job j).outgoing = ((s.job j).afterCopy p).outgoing := by
  have sees := (s.jobsTold p).sees_recomputeOf p j
  obtain ⟨mode, outgoing⟩ := State.jobsTold_keeps only
  exact ⟨sees.mode.trans mode, sees.outgoing.trans outgoing⟩

/-- A job that has no target to lose at the port keeps its targets. -/
theorem State.failureSeen_sources (aims : (s.job j).aimsAt p = false) :
    (((s.jobsTold p).recomputeOf p).job j).sources = (s.job j).sources ∧
      (((s.jobsTold p).recomputeOf p).job j).targetless = (s.job j).targetless := by
  have sees := (s.jobsTold p).sees_recomputeOf p j
  rw [State.jobsTold_of_not_aims only aims, State.copySeen_job only, Job.afterCopy_eq] at sees
  rw [State.jobsTold_of_not_aims only aims]
  exact ⟨sees.sources, sees.targetless⟩

/-- A job whose last row has ended takes none of it. -/
theorem State.failureSeen_of_completes (completes : (s.job j).completes = true) :
    let x := s.job j
    let y := ((s.jobsTold p).recomputeOf p).job j
    y.state = x.state ∧ y.drainCause = x.drainCause ∧ y.mode = x.mode ∧ y.outgoing = x.outgoing ∧
      y.sources = x.sources ∧ y.control = x.control := by
  intro x y
  have copies : x.copiesFrom p = false := by simp [Job.copiesFrom, x, completes]
  have aims : x.aimsAt p = false := by simp [Job.aimsAt, x, completes]
  have quiet : x.drainable = false := by simp [Job.drainable, x, completes]
  have sees := (s.jobsTold p).sees_recomputeOf p j
  have before : (s.jobsTold p).job j = x := by
    rw [State.jobsTold_of_not_aims only aims, State.copySeen_job only, Job.afterCopy_of_not copies]
  rw [before] at sees
  obtain ⟨state, cause, control⟩ := sees.quiet quiet
  exact ⟨state, cause, sees.mode, sees.outgoing, sees.sources, control⟩

/-! ## A port in no extent -/

omit only in
theorem State.recomputeOf_of_none (free : s.extentOfPort p = none) : (s.jobsTold p).recomputeOf p = s.jobsTold p := by
  unfold State.recomputeOf
  rw [State.extentOfPort_jobsTold, free]

/-- A target lost among others, where the job copies from another port. -/
theorem State.jobsTold_of_another (aims : (s.job j).aimsAt p = true) (copies : (s.job j).copiesFrom p = false)
    (another : ∃ y ∈ (s.job j).sources, y.target ≠ p ∧ (s.port y.target).memberState = .target) :
    s.jobsTold p = ((s.portFailed p).withJob j fun x =>
      { x with sources := x.sources.filter fun y => y.target ≠ p }).askPublish := by
  rw [State.jobsTold_eq only, if_pos aims, State.copySeen_eq only, copies]
  refine State.loseTarget_of_another ?_
  obtain ⟨y, mem, other, target⟩ := another
  refine ⟨y, by rw [if_neg Bool.false_ne_true, State.portFailed_job]; exact mem, other, ?_⟩
  rw [if_neg Bool.false_ne_true, State.portFailed_memberState, if_neg (Ne.symm other)]
  exact target

/-- The last target lost, where the job copies from another port. -/
theorem State.jobsTold_of_last (aims : (s.job j).aimsAt p = true) (copies : (s.job j).copiesFrom p = false)
    (last : ¬ ∃ y ∈ (s.job j).sources, y.target ≠ p ∧ (s.port y.target).memberState = .target) :
    s.jobsTold p = (((s.portFailed p).drainJob j .targetLost).withJob j fun x =>
      { x with targetless := true }).endIdle (fun o _ => o == .job j) .targetLost := by
  rw [State.jobsTold_eq only, if_pos aims, State.copySeen_eq only, copies, if_neg Bool.false_ne_true,
    State.loseTarget_of_last]
  · refine if_pos ?_
    obtain ⟨on, running, -⟩ := Job.aimsAt_iff.mp aims
    have lost := ((s.portFailed p).drainJob j .targetLost).job_withJob_self j fun x => { x with targetless := true }
    rw [State.drainJob_job, if_pos rfl, State.portFailed_job] at lost
    unfold State.drainsWithoutTarget
    rw [lost]
    cases drainable : (s.job j).drainable with
    | true =>
      rw [Job.drainedIf_of_drainable _ drainable]
      rfl
    | false =>
      have aborting : (s.job j).state = .aborting := by
        by_contra other
        rw [(Job.drainable_iff on).mpr ⟨running, other⟩] at drainable
        cases drainable
      rw [Job.drainedIf_of_not _ drainable]
      simp [aborting]
  · rintro ⟨y, mem, other, target⟩
    rw [State.portFailed_job] at mem
    rw [State.portFailed_memberState, if_neg (Ne.symm other)] at target
    exact last ⟨y, mem, other, target⟩

end

/-! ## The last target lost -/

/-- What the loss of its last target is to job `j`, a port in no extent having failed. -/
structure State.LastTargetLost (s : State) (j : JobId) (u : State) : Prop where
  job : Job.RowsEnded { (s.job j).drainedIf .targetLost with targetless := true } (u.job j)
  answers : u.board.answers = s.board.answers ++ s.drainAnswers j .targetLost
  waits : ∀ r ∈ u.rows.contextWait, r.owner ≠ .job j
  idle : ∀ c op, s.context c = some op → op.owner = .job j → op.phase.idle = true → u.context c = none
  busy : ∀ c op, s.context c = some op → op.phase.idle = false → (u.context c).map Operation.phase = some op.phase

theorem State.drainAnswers_congr {s t : State} {j : JobId} (job : t.job j = s.job j) (cause : EndCause) :
    t.drainAnswers j cause = s.drainAnswers j cause := by
  rw [State.drainAnswers, State.drainAnswers, State.supersededPause, State.supersededPause, job]

/-- The rows of job `j` end in a state `w` in which the job has been set draining. -/
theorem State.lastTargetLost_of {s w : State} {p : PortId} {j : JobId}
    (job : w.job j = { (s.job j).drainedIf .targetLost with targetless := true })
    (answers : w.board.answers = s.board.answers ++ s.drainAnswers j .targetLost)
    (contexts : ∀ c, w.context c = (s.portFailed p).context c) :
    s.LastTargetLost j (w.endIdle (fun o _ => o == .job j) .targetLost) := by
  have ended := w.rowsEnd_endIdle (fun o _ => o == .job j) (outcome := .targetLost) rfl
  refine ⟨job ▸ ended.jobs j, ended.answers.trans answers, fun r mem => ?_, fun c op held own idle => ?_,
    fun c op held busy => ?_⟩
  · simpa using State.contextWait_endIdle _ _ rfl mem
  · obtain ⟨op', held', goes⟩ := State.portFailed_goesOn (p := p) held
    exact State.context_endIdle_of_ends _ _ rfl ((contexts c).trans held')
      ⟨goes.phase ▸ idle, beq_iff_eq.mpr (goes.owner.trans own)⟩
  · obtain ⟨op', held', goes⟩ := State.portFailed_goesOn (p := p) held
    rw [State.context_endIdle_of_not _ _ rfl fun op'' held'' ends => ?_, contexts, held', Option.map_some, goes.phase]
    obtain rfl : op' = op'' := Option.some.inj (held'.symm.trans ((contexts c).symm.trans held''))
    have idle := ends.1
    rw [goes.phase, busy] at idle
    cases idle

theorem State.lastTargetLost (s : State) (p : PortId) (j : JobId) :
    s.LastTargetLost j ((((s.portFailed p).drainJob j .targetLost).withJob j fun x =>
      { x with targetless := true }).endIdle (fun o _ => o == .job j) .targetLost) := by
  refine State.lastTargetLost_of (p := p) ?_ ?_ fun c => ?_
  · rw [State.job_withJob_self, State.drainJob_job, if_pos rfl, State.portFailed_job]
  · rw [State.withJob_board, State.drainJob_answers, State.portFailed_answers,
      State.drainAnswers_congr (s.portFailed_job p j)]
  · rw [State.context, State.withJob_rows, State.drainJob_rows, State.context]

/-! ## The condition of the job's extent -/

/-- The only job on an extent. -/
theorem State.jobOn_eq_some {s : State} {e : ExtentId} {j : JobId} (on : (s.job j).isOn = true)
    (here : (s.job j).extent = e) (only : ∀ k, k ≠ j → (s.job k).isOn = true → (s.job k).extent ≠ e) :
    s.jobOn e = some j := by
  refine find?_bankIndices_eq_some.mpr ⟨by simp [on, here], fun k low => ?_⟩
  cases onIt : (s.job k).isOn with
  | false => rfl
  | true => simpa using only k (ne_of_lt low) onIt

theorem Job.seen_exposed (new : Condition) (x : Job) : (x.seen new).exposed = decide (new = .exposed) := by
  unfold Job.seen Job.drainedIf
  split
  · split <;> exact beq_eq_decide _ _
  · exact beq_eq_decide _ _

/-- A job that sees a condition other than LOST has its exposed flag set, and no more. -/
theorem Job.seen_of_not_lost {new : Condition} (alive : new ≠ .lost) (x : Job) :
    x.seen new = { x with exposed := new == .exposed } := if_neg alive

/-- A job that sees its extent LOST drains, where it can. -/
theorem Job.seen_of_lost_drainable {new : Condition} (lost : new = .lost) {x : Job} (h : x.drainable = true) :
    x.seen new = ({ x with exposed := new == .exposed } : Job).drained .extentLost :=
  (if_pos lost).trans (if_pos h)

/-- What a failure comes to that reaches the extent of job `j` through port `p`, the job having no target to lose there. -/
structure State.ConditionSeen (s : State) (p : PortId) (j : JobId) (u : State) : Prop where
  same : (u.extent (s.job j).extent).condition = (s.extent (s.job j).extent).condition → u = s.copySeen p
  jobs : (u.extent (s.job j).extent).condition ≠ (s.extent (s.job j).extent).condition →
    (((s.job j).afterCopy p).seen (u.extent (s.job j).extent).condition).RowsEnded (u.job j)
  answers : u.board.answers = s.board.answers ++
    if (u.extent (s.job j).extent).condition ≠ (s.extent (s.job j).extent).condition ∧
      (u.extent (s.job j).extent).condition = .lost then s.drainAnswers j .extentLost else []
  rows : (u.extent (s.job j).extent).condition = .lost →
    (u.extent (s.job j).extent).condition ≠ (s.extent (s.job j).extent).condition →
    (s.copySeen p).RowsLost (s.job j).extent u

theorem State.drainAnswers_copySeen {s : State} {p : PortId} {j : JobId} (only : s.ReachesOnly p j)
    (cause : EndCause) : (s.copySeen p).drainAnswers j cause = s.drainAnswers j cause := by
  rw [State.drainAnswers, State.drainAnswers, State.supersededPause, State.supersededPause, State.copySeen_job only,
    Job.afterCopy_drainable, Job.afterCopy_eq]

theorem State.RowsLost.congr {s t u : State} {e : ExtentId} (h : s.RowsLost e u) (rows : s.rows = t.rows) :
    t.RowsLost e u := by
  have contexts : ∀ c, t.context c = s.context c := fun c => by rw [State.context, State.context, rows]
  exact ⟨h.waits, fun c op held => h.idle c op ((contexts c).symm.trans held),
    fun c op held => h.running c op ((contexts c).symm.trans held),
    fun c op held => h.others c op ((contexts c).symm.trans held)⟩

theorem State.conditionSeen_of_failure {s : State} {p : PortId} {j : JobId} (only : s.ReachesOnly p j)
    (aims : (s.job j).aimsAt p = false) (on : (s.job j).isOn = true)
    (alone : ∀ k, k ≠ j → (s.job k).isOn = true → (s.job k).extent ≠ (s.job j).extent)
    (held : s.extentOfPort p = some (s.job j).extent) :
    s.ConditionSeen p j ((s.jobsTold p).recomputeOf p) := by
  have told := State.jobsTold_of_not_aims only aims
  have extent : (s.copySeen p).extent (s.job j).extent = s.extent (s.job j).extent :=
    ((s.aftermath_copySeen p).still _ (Set.notMem_empty _)).trans ((s.movesPorts_portFailed p).extent _)
  have recomputed : (s.jobsTold p).recomputeOf p = (s.copySeen p).recompute (s.job j).extent := by
    unfold State.recomputeOf
    rw [State.extentOfPort_jobsTold, held, told]
  have used : ((s.copySeen p).extent (s.job j).extent).inUse = true := by
    rw [extent]
    exact State.inUse_of_extentOfPort held
  have onIt : (s.copySeen p).jobOn (s.job j).extent = some j := by
    refine State.jobOn_eq_some ?_ ?_ fun k other onIt => ?_
    · rw [State.copySeen_job only, Job.afterCopy_eq]
      exact on
    · rw [State.copySeen_job only, Job.afterCopy_eq]
    · rw [State.copySeen_job only, Job.afterCopy_eq] at onIt ⊢
      exact alone k other onIt
  have new := State.condition_recompute used
  rw [recomputed]
  by_cases same : (s.copySeen p).conditionOf (s.job j).extent = ((s.copySeen p).extent (s.job j).extent).condition
  · have unchanged := State.recompute_of_same same
    rw [unchanged]
    have condition : ((s.copySeen p).extent (s.job j).extent).condition = (s.extent (s.job j).extent).condition := by
      rw [extent]
    refine ⟨fun _ => rfl, fun differs => absurd condition differs, ?_, fun _ differs => absurd condition differs⟩
    rw [if_neg fun both => both.1 condition, List.append_nil]
    exact State.copySeen_answers only
  · have ended := State.rowsEnd_recompute used same
    have differs : (((s.copySeen p).recompute (s.job j).extent).extent (s.job j).extent).condition ≠
        (s.extent (s.job j).extent).condition := by
      rw [new, ← extent]
      exact same
    refine ⟨fun equal => absurd equal differs, fun _ => ?_, ?_, fun lost _ => ?_⟩
    · have job := ended.jobs j
      rw [State.conditionSeen_job onIt, if_pos rfl, State.copySeen_job only] at job
      rw [new]
      exact job
    · simp only [differs, ne_eq, not_false_eq_true, true_and]
      rw [ended.answers, State.conditionSeen_answers onIt, State.copySeen_answers only, new,
        State.drainAnswers_copySeen only]
    · rw [new] at lost
      rw [State.recompute_of_changed used same, if_pos lost]
      exact ((s.copySeen p).conditionSeen _).rowsLost _ |>.congr (State.conditionSeen_rows _ _)

/-! ## The settlement -/

/-- What holds of a job and does not speak of its published frontier holds of it at the end of the step. -/
theorem State.settled_job {u : State} {j : JobId} {P : Job → Prop} (h : P (u.job j))
    (blind : ∀ x n, P x → P { x with publishedFrontier := n } := by exact fun _ _ => id) : P (u.settle.job j) := by
  rw [State.settle_job]
  split
  · exact blind _ _ h
  · exact h

/-- The phases in which an operation has nothing running. -/
theorem Phase.idle_iff {phase : Phase} : phase.idle = true ↔ phase ∈ [Phase.holdWait, .frameWait, .awaitMember] := by
  cases phase <;> decide

theorem Phase.running_iff {phase : Phase} :
    phase.running = true ↔ phase ∈ [Phase.gather, .supplement, .solving, .place] := by
  cases phase <;> decide

theorem Phase.busy_of_notMem {phase : Phase} (h : phase ∉ [Phase.holdWait, .frameWait, .awaitMember]) :
    phase.idle = false := Bool.eq_false_iff.mpr fun idle => h (Phase.idle_iff.mp idle)

/-- The hypothesis of O26 on the other jobs. -/
theorem State.reachesOnly_of_others {s : State} {p : PortId} {j : JobId}
    (others : ∀ k : JobId, k ≠ j → (s.job k).isOn = true → (s.job k).extent ≠ (s.job j).extent ∧
      (s.job k).outgoing ≠ some p ∧ ((s.job k).targetless = true ∨ ∀ y ∈ (s.job k).sources, y.target ≠ p)) :
    s.ReachesOnly p j := by
  refine fun k other => ⟨Bool.eq_false_iff.mpr fun copies => ?_, Bool.eq_false_iff.mpr fun aims => ?_⟩
  · obtain ⟨on, -, -, outgoing⟩ := Job.copiesFrom_iff.mp copies
    obtain ⟨-, elsewhere, -⟩ := others k other on
    exact elsewhere outgoing
  · obtain ⟨on, -, targeted, y, mem, target⟩ := Job.aimsAt_iff.mp aims
    obtain ⟨-, -, targetless | none⟩ := others k other on
    · rw [targeted] at targetless
      cases targetless
    · exact none y mem target

/-- A job changed, and the change published. -/
theorem State.changedJob_spec (s : State) (j : JobId) (f : Job → Job) :
    (s.withJob j f).askPublish.job j = f (s.job j) ∧ (s.withJob j f).askPublish.board.answers = s.board.answers ∧
      s.PhasesKept (s.withJob j f).askPublish := ⟨s.job_withJob_self j f, rfl, fun _ => rfl⟩

/-- A job that loses its last target drains, unless it is ABORTING, and keeps the rest of its record. -/
structure Job.LosesLast (x y : Job) : Prop where
  sources : y.sources = x.sources
  targetless : y.targetless = true
  state : y.state = .aborting
  drainCause : y.drainCause = if x.state = .aborting then x.drainCause else some .targetLost
  control : y.control = if x.state = .aborting then x.control else none
  frontier : y.frontier = x.frontier
  nextRow : y.nextRow = x.nextRow
  rowsDone : y.rowsDone = x.rowsDone

theorem Job.losesLast {x y : Job} (on : x.isOn = true) (running : x.completes = false)
    (h : Job.RowsEnded { x.drainedIf .targetLost with targetless := true } y) : x.LosesLast y := by
  rw [h]
  by_cases aborting : x.state = .aborting
  · have stays : x.drainable = false := by simp [Job.drainable, aborting, JobState.drainable]
    rw [Job.drainedIf_of_not _ stays]
    exact ⟨rfl, rfl, aborting, (if_pos aborting).symm, (if_pos aborting).symm, rfl, rfl, rfl⟩
  · rw [Job.drainedIf_of_drainable _ ((Job.drainable_iff on).mpr ⟨running, aborting⟩)]
    exact ⟨rfl, rfl, rfl, (if_neg aborting).symm, (if_neg aborting).symm, rfl, rfl, rfl⟩

/-- A job that can lose a target answers the PAUSE that its drain supersedes, where one awaits its answer. -/
theorem State.drainAnswers_of_running {s : State} {j : JobId} (on : (s.job j).isOn = true)
    (running : (s.job j).completes = false) (cause : EndCause) :
    s.drainAnswers j cause = s.supersededPause j cause := by
  unfold State.drainAnswers
  split
  · rfl
  · rename_i stays
    have aborting : (s.job j).state = .aborting := by
      by_contra other
      exact stays ((Job.drainable_iff on).mpr ⟨running, other⟩)
    rw [State.supersededPause, if_neg (by rw [aborting]; decide)]

section
variable {s : State} {p : PortId} {j : JobId} (only : s.ReachesOnly p j)
include only

section
variable (aims : (s.job j).aimsAt p = true) (copies : (s.job j).copiesFrom p = false)
include aims copies

/-- A job that loses a target among others drops it from its record, and no more. -/
theorem State.failure_of_another
    (another : ∃ y ∈ (s.job j).sources, y.target ≠ p ∧ (s.port y.target).memberState = .target) :
    (s.jobsTold p).job j = { s.job j with sources := (s.job j).sources.filter fun y => y.target ≠ p } ∧
      (s.jobsTold p).board.answers = s.board.answers ∧ s.PhasesKept (s.jobsTold p) := by
  rw [State.jobsTold_of_another only aims copies another]
  obtain ⟨job, answers, phases⟩ := (s.portFailed p).changedJob_spec j fun x =>
    { x with sources := x.sources.filter fun y => y.target ≠ p }
  refine ⟨?_, answers.trans (s.portFailed_answers p), (s.phasesKept_portFailed p).trans phases⟩
  rw [job, State.portFailed_job]

/-- A job that loses its last target. -/
theorem State.failure_of_last
    (last : ¬ ∃ y ∈ (s.job j).sources, y.target ≠ p ∧ (s.port y.target).memberState = .target) :
    (s.job j).LosesLast ((s.jobsTold p).job j) ∧
      (s.jobsTold p).board.answers = s.board.answers ++ s.supersededPause j .targetLost ∧
      (∀ r ∈ (s.jobsTold p).rows.contextWait, r.owner ≠ .job j) ∧
      ∀ c op, s.context c = some op → op.owner = .job j →
        (op.phase.idle = true → (s.jobsTold p).context c = none) ∧
        (op.phase.idle = false → ((s.jobsTold p).context c).map Operation.phase = some op.phase) := by
  obtain ⟨on, running, -⟩ := Job.aimsAt_iff.mp aims
  have lost := s.lastTargetLost p j
  rw [← State.jobsTold_of_last only aims copies last] at lost
  refine ⟨Job.losesLast on running lost.job, ?_, lost.waits,
    fun c op held own => ⟨lost.idle c op held own, lost.busy c op held⟩⟩
  rw [lost.answers, State.drainAnswers_of_running on running]

end

end

end Sys2Proof.Machine
end

section
/-! O26, settled: the parts of `Sys2Proof.Machine.State.jobsTold` and `State.ConditionSeen` put together. -/

namespace Sys2Proof.Machine

section
variable {s : State} {p : PortId} {j : JobId}

/-- Where the job has no target to lose at a port in no extent, and does not copy from it, the failure is nothing to it. -/
theorem State.jobsTold_of_bystander (only : s.ReachesOnly p j) (aims : (s.job j).aimsAt p = false)
    (copies : (s.job j).copiesFrom p = false) (free : s.extentOfPort p = none) :
    (s.jobsTold p).recomputeOf p = s.portFailed p := by
  rw [State.recomputeOf_of_none free, State.jobsTold_of_not_aims only aims, State.copySeen_eq only, copies]
  rfl

/-- What a failure that reaches the extent of the job is to the job itself. -/
structure State.JobSees (s : State) (j : JobId) (new : Condition) (u : State) : Prop where
  same : new = (s.extent (s.job j).extent).condition →
    (u.job j).exposed = (s.job j).exposed ∧ (u.job j).state = (s.job j).state
  exposed : new ≠ (s.extent (s.job j).extent).condition → (u.job j).exposed = decide (new = .exposed)
  alive : new ≠ .lost → (u.job j).state = (s.job j).state ∧ (u.job j).drainCause = (s.job j).drainCause ∧
    u.board.answers = s.board.answers
  quiet : (s.job j).drainable = false →
    (u.job j).state = (s.job j).state ∧ (u.job j).drainCause = (s.job j).drainCause
  drains : new = .lost → new ≠ (s.extent (s.job j).extent).condition → (s.job j).drainable = true →
    (u.job j).state = .aborting ∧ (u.job j).drainCause = some .extentLost ∧ (u.job j).control = none ∧
      u.board.answers = s.board.answers ++ s.supersededPause j .extentLost

theorem State.ConditionSeen.jobSees {u : State} (only : s.ReachesOnly p j) (seen : s.ConditionSeen p j u)
    (sees : ((s.job j).afterCopy p).Sees (u.job j)) :
    s.JobSees j (u.extent (s.job j).extent).condition u := by
  have copied : u = s.copySeen p → u.job j = (s.job j).afterCopy p := fun same => by
    rw [same, State.copySeen_job only]
  have kept := Job.afterCopy_eq p (s.job j)
  have exposed : ((s.job j).afterCopy p).exposed = (s.job j).exposed := by rw [kept]
  have state : ((s.job j).afterCopy p).state = (s.job j).state := by rw [kept]
  have cause : ((s.job j).afterCopy p).drainCause = (s.job j).drainCause := by rw [kept]
  refine ⟨fun same => ?_, fun differs => ?_, fun alive => ?_, fun stays => ?_, fun lost differs drains => ?_⟩
  · rw [copied (seen.same same)]
    exact ⟨exposed, state⟩
  · rw [seen.jobs differs]
    exact Job.seen_exposed _ _
  · have answers := seen.answers
    rw [if_neg fun both => alive both.2, List.append_nil] at answers
    by_cases same : (u.extent (s.job j).extent).condition = (s.extent (s.job j).extent).condition
    · rw [copied (seen.same same)]
      exact ⟨state, cause, answers⟩
    · have job := seen.jobs same
      rw [Job.seen_of_not_lost alive] at job
      rw [job]
      exact ⟨state, cause, answers⟩
  · obtain ⟨still, same, -⟩ := sees.quiet ((Job.afterCopy_drainable p _).trans stays)
    exact ⟨still.trans state, same.trans cause⟩
  · have answers := seen.answers
    rw [if_pos ⟨differs, lost⟩, State.drainAnswers, if_pos drains] at answers
    have job := seen.jobs differs
    rw [Job.seen_of_lost_drainable lost ((Job.afterCopy_drainable p _).trans drains)] at job
    rw [job]
    exact ⟨rfl, rfl, rfl, answers⟩

/-- What becomes of the row operations on the job's extent where it has become LOST. -/
theorem State.ConditionSeen.rowsLost {u : State} (only : s.ReachesOnly p j) (seen : s.ConditionSeen p j u)
    (lost : (u.extent (s.job j).extent).condition = .lost)
    (differs : (u.extent (s.job j).extent).condition ≠ (s.extent (s.job j).extent).condition) :
    s.RowsLost (s.job j).extent u := by
  have rows := (seen.rows lost differs).congr (State.copySeen_rows only)
  refine ⟨rows.waits, fun c op held here idle => ?_, fun c op held here running => ?_, fun c op held busy => ?_⟩
  · obtain ⟨op', held', goes⟩ := State.portFailed_goesOn (p := p) held
    exact rows.idle c op' held' (goes.extent.trans here) (goes.phase ▸ idle)
  · obtain ⟨op', held', goes⟩ := State.portFailed_goesOn (p := p) held
    exact goes.phase ▸ rows.running c op' held' (goes.extent.trans here) (goes.phase ▸ running)
  · obtain ⟨op', held', goes⟩ := State.portFailed_goesOn (p := p) held
    exact goes.phase ▸ rows.others c op' held' (goes.phase ▸ busy)

/-! ## The failure, as the job has it before the step settles -/

/-- What LINK_DOWN at an ONLINE or TARGET port is to a job, which alone may take it, in the state `u` that the step then
settles. -/
structure State.FailureToJob (s : State) (p : PortId) (j : JobId) (u : State) : Prop where
  completed : (s.job j).completes = true → (u.job j).state = (s.job j).state ∧
    (u.job j).drainCause = (s.job j).drainCause ∧ (u.job j).mode = (s.job j).mode ∧
    (u.job j).outgoing = (s.job j).outgoing ∧ (u.job j).sources = (s.job j).sources ∧
    (u.job j).control = (s.job j).control
  reconstructs : (s.job j).copiesFrom p = true → (u.job j).mode = .reconstruct ∧ (u.job j).outgoing = none
  copies : (s.job j).copiesFrom p = false →
    (u.job j).mode = (s.job j).mode ∧ (u.job j).outgoing = (s.job j).outgoing
  targets : (s.job j).aimsAt p = false →
    (u.job j).sources = (s.job j).sources ∧ (u.job j).targetless = (s.job j).targetless
  bystander : (s.job j).aimsAt p = false → (s.job j).copiesFrom p = false → s.extentOfPort p = none →
    u.job j = s.job j ∧ u.board.answers = s.board.answers ∧ s.PhasesKept u
  another : (s.job j).aimsAt p = true → (s.job j).copiesFrom p = false → s.extentOfPort p = none →
    (∃ y ∈ (s.job j).sources, y.target ≠ p ∧ (s.port y.target).memberState = .target) →
    u.job j = { s.job j with sources := (s.job j).sources.filter fun y => y.target ≠ p } ∧
      u.board.answers = s.board.answers ∧ s.PhasesKept u
  last : (s.job j).aimsAt p = true → (s.job j).copiesFrom p = false → s.extentOfPort p = none →
    (¬ ∃ y ∈ (s.job j).sources, y.target ≠ p ∧ (s.port y.target).memberState = .target) →
    (s.job j).LosesLast (u.job j) ∧ u.board.answers = s.board.answers ++ s.supersededPause j .targetLost ∧
      (∀ r ∈ u.rows.contextWait, r.owner ≠ .job j) ∧
      ∀ c op, s.context c = some op → op.owner = .job j →
        (op.phase.idle = true → u.context c = none) ∧
        (op.phase.idle = false → (u.context c).map Operation.phase = some op.phase)
  sees : (s.job j).aimsAt p = false → ((s.job j).afterCopy p).Sees (u.job j)

theorem State.failureToJob (only : s.ReachesOnly p j) : s.FailureToJob p j ((s.jobsTold p).recomputeOf p) where
  completed := State.failureSeen_of_completes only
  reconstructs copies := by
    rw [(State.failureSeen_mode only).1, (State.failureSeen_mode only).2, Job.afterCopy_of_copies copies]
    exact ⟨rfl, rfl⟩
  copies still := by
    rw [(State.failureSeen_mode only).1, (State.failureSeen_mode only).2, Job.afterCopy_of_not still]
    exact ⟨rfl, rfl⟩
  targets := State.failureSeen_sources only
  bystander aims copies free := by
    rw [State.jobsTold_of_bystander only aims copies free]
    exact ⟨s.portFailed_job p j, s.portFailed_answers p, s.phasesKept_portFailed p⟩
  another aims copies free := by
    rw [State.recomputeOf_of_none free]
    exact State.failure_of_another only aims copies
  last aims copies free := by
    rw [State.recomputeOf_of_none free]
    exact State.failure_of_last only aims copies
  sees aims := by
    have sees := (s.jobsTold p).sees_recomputeOf p j
    rwa [State.jobsTold_of_not_aims only aims, State.copySeen_job only,
      ← State.jobsTold_of_not_aims only aims] at sees

theorem State.JobSees.settle {new : Condition} {u : State} (h : s.JobSees j new u) : s.JobSees j new u.settle where
  same same := State.settled_job (P := fun y => y.exposed = (s.job j).exposed ∧ y.state = (s.job j).state) (h.same same)
  exposed differs := State.settled_job (P := fun y => y.exposed = decide (new = .exposed)) (h.exposed differs)
  alive alive := by
    obtain ⟨state, cause, answers⟩ := h.alive alive
    exact ⟨State.settled_job (P := fun y => y.state = (s.job j).state) state,
      State.settled_job (P := fun y => y.drainCause = (s.job j).drainCause) cause, u.settle_answers.trans answers⟩
  quiet stays := State.settled_job
    (P := fun y => y.state = (s.job j).state ∧ y.drainCause = (s.job j).drainCause) (h.quiet stays)
  drains lost differs drains := by
    obtain ⟨state, cause, control, answers⟩ := h.drains lost differs drains
    exact ⟨State.settled_job (P := fun y => y.state = .aborting) state,
      State.settled_job (P := fun y => y.drainCause = some .extentLost) cause,
      State.settled_job (P := fun y => y.control = none) control, u.settle_answers.trans answers⟩

theorem State.RowsLost.settle {u : State} {e : ExtentId} (h : s.RowsLost e u) : s.RowsLost e u.settle where
  waits := by
    rw [State.settle_rows]
    exact h.waits
  idle c op held here idle := (u.settle_context c).trans (h.idle c op held here idle)
  running c op held here running := by
    obtain ⟨operation, pending⟩ := h.running c op held here running
    refine ⟨by rwa [State.settle_context], fun q => ?_⟩
    unfold State.NonePending
    rw [State.settle_port]
    exact pending q
  others c op held busy := by
    rw [State.settle_context]
    exact h.others c op held busy

end

/-- Settles O26: LINK_DOWN is the failure told to the job (`State.jobsTold`), and then to its extent
(`State.ConditionSeen`). -/
theorem jobsSeeMembers : Obligations.JobsSeeMembers := by
  intro s p j rest on serves x completes outgoing left another others
  have only := State.reachesOnly_of_others others
  obtain ⟨run, down⟩ := execLinkDown_of_serves serves
  have told := State.failureToJob only
  have seen := State.conditionSeen_of_failure (p := p) only (on := on)
    (alone := fun k other onIt => (others k other onIt).1)
  rw [← State.copySeen, ← State.jobsTold] at run down
  generalize (s.jobsTold p).recomputeOf p = u at run down told seen
  obtain ⟨-, -, -, -, -, -, publishes⟩ := down.follows.settled (s.movesPorts_withPort p _) down.asked
  have ends : x.completes = true ↔ completes := Job.completes_iff
  have runs : ¬ completes → x.completes = false := fun h => Bool.eq_false_iff.mpr (mt ends.mp h)
  have still : ¬ outgoing → x.copiesFrom p = false := fun h =>
    Bool.eq_false_iff.mpr fun copies => h (Job.copiesFrom_iff.mp copies).2.2
  have untouched : (∀ y ∈ x.sources, y.target ≠ p) ∨ x.targetless = true → x.aimsAt p = false := fun h =>
    Bool.eq_false_iff.mpr fun aims => by
      obtain ⟨-, -, targeted, y, mem, target⟩ := Job.aimsAt_iff.mp aims
      rcases h with none | targetless
      · exact none y mem target
      · rw [targeted] at targetless
        cases targetless
  have among : another ↔ ∃ y ∈ x.sources, y.target ≠ p ∧ (s.port y.target).memberState = .target := by
    simp only [another, left, List.mem_filter, decide_eq_true_eq, and_assoc]
  refine ⟨u.settle, run, fun done => ?_, fun undone copies => ?_, fun copies => ?_, fun free => ?_,
    fun targetless free copies => ?_, fun undone targeted aimed free copies => ⟨fun some => ?_, fun last => ?_⟩,
    fun held free => ?_⟩
  · exact State.settled_job (P := fun y => y.state = x.state ∧ y.drainCause = x.drainCause ∧ y.mode = x.mode ∧
      y.outgoing = x.outgoing ∧ y.sources = x.sources ∧ y.control = x.control) (told.completed (ends.mpr done))
  · obtain ⟨mode, port⟩ := State.settled_job (P := fun y => y.mode = .reconstruct ∧ y.outgoing = none)
      (told.reconstructs (Job.copiesFrom_iff.mpr ⟨on, runs undone, copies⟩))
    exact ⟨mode, port, publishes⟩
  · exact State.settled_job (P := fun y => y.mode = x.mode ∧ y.outgoing = x.outgoing) (told.copies (still copies))
  · exact State.settled_job (P := fun y => y.sources = x.sources ∧ y.targetless = x.targetless)
      (told.targets (untouched free))
  · obtain ⟨job, answers, phases⟩ := told.bystander (untouched (.inr targetless)) (still copies) free
    have agrees := u.settle_job_agrees j
    rw [job] at agrees
    refine ⟨agrees, ?_, fun c => ?_⟩
    · rw [State.Answers, State.settle_answers, answers, List.append_nil]
    · rw [State.settle_context]
      exact phases c
  · have aims : x.aimsAt p = true := Job.aimsAt_iff.mpr ⟨on, runs undone, targeted, aimed⟩
    obtain ⟨job, answers, phases⟩ := told.another aims (still copies) free (among.mp some)
    have agrees := u.settle_job_agrees j
    rw [job] at agrees
    refine ⟨agrees, ?_, publishes, fun c => ?_⟩
    · rw [State.Answers, State.settle_answers, answers, List.append_nil]
    · rw [State.settle_context]
      exact phases c
  · have aims : x.aimsAt p = true := Job.aimsAt_iff.mpr ⟨on, runs undone, targeted, aimed⟩
    obtain ⟨job, answers, waits, contexts⟩ := told.last aims (still copies) free (mt among.mpr last)
    have job := State.settled_job (P := x.LosesLast) job fun _ _ h => { h with }
    refine ⟨job.sources, job.targetless, job.state, job.drainCause, job.control, job.frontier, job.nextRow,
      job.rowsDone, ?_, ?_, fun c op held own => ?_⟩
    · rw [State.Answers, State.settle_answers, answers]
    · rwa [State.settle_rows]
    · rw [State.settle_context]
      obtain ⟨idle, busy⟩ := contexts c op held own
      exact ⟨fun mem => idle (Phase.idle_iff.mpr mem), fun out => busy (Phase.busy_of_notMem out)⟩
  · have seen := seen (untouched free) held
    have same : (u.settle.extent x.extent).condition = (u.extent x.extent).condition := by rw [State.settle_extent]
    have job : s.JobSees j (u.settle.extent x.extent).condition u.settle :=
      same ▸ (seen.jobSees only (told.sees (untouched free))).settle
    refine ⟨?_, job.same, job.exposed, fun alive => ?_, fun lost differs => ?_⟩
    · rw [same, State.conditionOf_settle]
      exact down.condition _ held serves
    · obtain ⟨state, cause, answers⟩ := job.alive alive
      exact ⟨state, cause, answers.trans (List.append_nil _).symm⟩
    · have rows := (seen.rowsLost only (same ▸ lost) (same ▸ differs)).settle
      refine ⟨fun stays => job.quiet (Bool.eq_false_iff.mpr fun drains => ?_), fun undone other =>
        job.drains lost differs ((Job.drainable_iff on).mpr ⟨runs undone, other⟩), rows.waits, fun c op held here =>
        ⟨fun mem => rows.idle c op held here (Phase.idle_iff.mpr mem), fun waits => ?_, fun mem => ?_⟩⟩
      · obtain ⟨undone, other⟩ := (Job.drainable_iff on).mp drains
        rcases stays with done | aborting
        · exact Bool.false_ne_true (undone.symm.trans (ends.mpr done))
        · exact other aborting
      · rw [rows.others c op held (by rw [waits]; rfl), waits]
      · obtain ⟨operation, pending⟩ := rows.running c op held here (Phase.running_iff.mpr mem)
        exact ⟨operation, pending⟩

end Sys2Proof.Machine
end

section
/-! O45, refuted. The clause of `SolverSteps` on what a READ_ROW tallies lets the plan list any block that `requestedAt` holds.
That goes past the last position too: R6 places the data strips modulo the number of positions, and `Extent.dataIndex` wraps
with it, so that `p` and `p + memberCount` hold the same strip. `Operation.solveTallies` counts the listed blocks as they
stand, and the statement those among the positions of the extent. -/

namespace Sys2Proof.Machine

/-- A READ_ROW whose plan lists a block at position 2 of two, the data strip's position once around. -/
def listedPastPositions : Operation :=
  { firstBlockRead with plan := { Plan.none with listed := [(2, 0)] } }

/-- The block beyond the positions is requested, as the statement asks of listed blocks. -/
theorem listedPastPositions_asked : ∀ x ∈ listedPastPositions.plan.listed,
    (listedPastPositions.requestedAt (twoMemberMirror.extent 0) x.1).contains x.2 = true := by decide +kernel

/-- The tallies count the block as lost. -/
theorem listedPastPositions_lost :
    (listedPastPositions.solveTallies (twoMemberMirror.extent 0)
      (listedPastPositions.solveRecord (twoMemberMirror.extent 0))).lost = 1 := by decide +kernel

/-- Refutes O45: the tallies of `listedPastPositions` count a block lost that lies at no position of the extent. -/
theorem not_solverSteps : ¬ Obligations.SolverSteps := by
  intro h
  obtain ⟨-, -, -, -, tallies⟩ := h
  obtain ⟨-, read, -⟩ := tallies (twoMemberMirror.extent 0) listedPastPositions 0 twoMemberMirror_legal (by decide +kernel)
    List.Pairwise.nil (fun _ none => nomatch none)
  obtain ⟨-, out⟩ := read rfl (by decide) listedPastPositions_asked
  have counted := congrArg RowTallies.lost out
  rw [listedPastPositions_lost] at counted
  exact absurd counted (by decide +kernel)

end Sys2Proof.Machine
end

section
/-! SUPPORT and O50: the field of R42 and the tables of R43. -/

namespace Sys2Proof

/-! ## Doubling -/

theorem gDouble_xor (x y : Byte) : gDouble (x ^^^ y) = gDouble x ^^^ gDouble y := by
  have reduced (z : Byte) : gDouble z = (z <<< 1) ^^^ (if z.msb then 0x1D else 0) := by
    unfold gDouble
    split <;> simp
  have carry (a b : Bool) : (if a ^^ b then 0x1D else 0 : Byte) = (if a then 0x1D else 0) ^^^ (if b then 0x1D else 0) := by
    cases a <;> cases b <;> rfl
  simp only [reduced, BitVec.msb_xor, BitVec.shiftLeft_xor_distrib, carry]
  ac_rfl

theorem gDouble_eq_zero {x : Byte} : gDouble x = 0 → x = 0 := by
  revert x
  decide +kernel

theorem iterate_gDouble_zero (i : Nat) : gDouble^[i] 0 = 0 := Function.iterate_fixed rfl i

theorem iterate_gDouble_xor (i : Nat) (x y : Byte) : gDouble^[i] (x ^^^ y) = gDouble^[i] x ^^^ gDouble^[i] y := by
  induction i generalizing x y with
  | zero => rfl
  | succ i ih => simp only [Function.iterate_succ_apply, gDouble_xor, ih]

/-! ## The powers of g -/

theorem gPow_eq_iterate (i : Nat) : gPow i = gDouble^[i] 1 := by
  induction i with
  | zero => rfl
  | succ i ih => rw [gPow, ih, Function.iterate_succ_apply']

theorem gPow_add (i j : Nat) : gPow (i + j) = gDouble^[i] (gPow j) := by
  rw [gPow_eq_iterate, gPow_eq_iterate, Function.iterate_add_apply]

theorem gPow_ne_zero (i : Nat) : gPow i ≠ 0 := by
  induction i with
  | zero => decide
  | succ i ih => exact ih ∘ gDouble_eq_zero

theorem gPow_255 : gPow 255 = 1 := by decide +kernel

theorem gPow_add_255 (i : Nat) : gPow (i + 255) = gPow i := by rw [gPow_add, gPow_255, gPow_eq_iterate]

theorem gPow_mod (i : Nat) : gPow (i % 255) = gPow i := by
  conv_rhs => rw [← Nat.mod_add_div i 255]
  generalize i / 255 = n
  induction n with
  | zero => rfl
  | succ n ih => rw [Nat.mul_succ, ← Nat.add_assoc, gPow_add_255, ih]

/-- The order of g is 255: it divides 255, and g^i is not 1 for the largest proper divisors of that (R42). -/
theorem minimalPeriod_gDouble : Function.minimalPeriod gDouble 1 = 255 := by
  have order {n : Nat} : Function.minimalPeriod gDouble 1 ∣ n ↔ gPow n = 1 := by
    rw [← Function.isPeriodicPt_iff_minimalPeriod_dvd, gPow_eq_iterate]
    rfl
  have divisors : ∀ n < 256, n ∣ 255 → n = 255 ∨ n ∣ 15 ∨ n ∣ 51 ∨ n ∣ 85 := by decide +kernel
  have divides := order.mpr gPow_255
  have proper : gPow 15 ≠ 1 ∧ gPow 51 ≠ 1 ∧ gPow 85 ≠ 1 := by decide +kernel
  rcases divisors _ (Nat.lt_succ_of_le (Nat.le_of_dvd (by decide) divides)) divides with whole | by15 | by51 | by85
  · exact whole
  · exact absurd (order.mp by15) proper.1
  · exact absurd (order.mp by51) proper.2.1
  · exact absurd (order.mp by85) proper.2.2

/-- Different exponents below 255 have different powers (R42). -/
theorem gPow_inj {i j : Nat} (hi : i < 255) (hj : j < 255) (same : gPow i = gPow j) : i = j := by
  have inj := Function.iterate_injOn_Iio_minimalPeriod (f := gDouble) (x := 1)
  rw [minimalPeriod_gDouble] at inj
  exact inj hi hj (by simpa only [gPow_eq_iterate] using same)

/-- The powers below 255 are all the bytes but 00h (R42): they are 255, and different. -/
theorem exists_gPow {v : Byte} (h : v ≠ 0) : ∃ i, i < 255 ∧ gPow i = v := by
  have powers : (Finset.range 255).image gPow = Finset.univ.erase 0 := by
    refine Finset.eq_of_subset_of_card_le (fun x mem => ?_) ?_
    · obtain ⟨i, -, rfl⟩ := Finset.mem_image.mp mem
      exact Finset.mem_erase.mpr ⟨gPow_ne_zero i, Finset.mem_univ _⟩
    · rw [Finset.card_image_of_injOn fun i hi j hj => gPow_inj (Finset.mem_range.mp hi) (Finset.mem_range.mp hj),
        Finset.card_erase_of_mem (Finset.mem_univ _), Finset.card_univ, ← FinEnum.card_eq_fintypeCard,
        FinEnum.card_bitVec, Finset.card_range]
      decide
  obtain ⟨i, lt, power⟩ := Finset.mem_image.mp (powers ▸ Finset.mem_erase.mpr ⟨h, Finset.mem_univ v⟩)
  exact ⟨i, Finset.mem_range.mp lt, power⟩

/-! ## The log table -/

/-- The walk along the powers stops at the first that is the byte. -/
theorem gLogFrom_spec {fuel i j : Nat} (low : i ≤ j) (high : j < i + fuel) :
    gLogFrom fuel i (gPow i) (gPow j) ≤ j ∧ gPow (gLogFrom fuel i (gPow i) (gPow j)) = gPow j := by
  induction fuel generalizing i with
  | zero => omega
  | succ fuel ih =>
    unfold gLogFrom
    split
    · exact ⟨low, ‹_›⟩
    · rename_i differs
      have next : i ≠ j := fun same => differs (same ▸ rfl)
      exact ih (i := i + 1) (by omega) (by omega)

theorem gLog_gPow {i : Nat} (h : i < 255) : gLog (gPow i) = i := by
  obtain ⟨le, power⟩ := gLogFrom_spec (fuel := 255) (Nat.zero_le i) (by omega)
  exact gPow_inj (Nat.lt_of_le_of_lt le h) h power

theorem gLog_spec {v : Byte} (h : v ≠ 0) : gLog v < 255 ∧ gPow (gLog v) = v := by
  obtain ⟨i, lt, rfl⟩ := exists_gPow h
  rw [gLog_gPow lt]
  exact ⟨lt, rfl⟩

/-! ## Product and quotient -/

theorem gMul_comm (x y : Byte) : gMul x y = gMul y x := by
  simp only [gMul, or_comm, Nat.add_comm]

theorem gMul_zero (x : Byte) : gMul x 0 = 0 := if_pos (.inr rfl)

/-- The product by a power of g doubles as often as the exponent says. -/
theorem gMul_gPow (i : Nat) (x : Byte) : gMul (gPow i) x = gDouble^[i] x := by
  by_cases hx : x = 0
  · rw [hx, gMul_zero, iterate_gDouble_zero]
  · have logX := (gLog_spec hx).2
    have logI := (gLog_spec (gPow_ne_zero i)).2
    calc gMul (gPow i) x
        = gPow (gLog (gPow i) + gLog x) := by rw [gMul, if_neg (not_or.mpr ⟨gPow_ne_zero i, hx⟩), gPow_mod]
      _ = gDouble^[gLog x] (gPow i) := by rw [Nat.add_comm, gPow_add, logI]
      _ = gDouble^[i] x := by rw [← gPow_add, Nat.add_comm, gPow_add, logX]

/-- The product distributes over the sum (R42). -/
theorem gMul_xor (c x y : Byte) : gMul c (x ^^^ y) = gMul c x ^^^ gMul c y := by
  by_cases hc : c = 0
  · simp [gMul, hc]
  · rw [← (gLog_spec hc).2]
    simp only [gMul_gPow, iterate_gDouble_xor]

theorem xor_gMul (x y c : Byte) : gMul (x ^^^ y) c = gMul x c ^^^ gMul y c := by
  rw [gMul_comm, gMul_xor, gMul_comm c x, gMul_comm c y]

theorem gDiv_zero (c : Byte) : gDiv 0 c = 0 := if_pos rfl

/-- The quotient undoes the product. -/
theorem gDiv_gMul {c : Byte} (hc : c ≠ 0) (x : Byte) : gDiv (gMul c x) c = x := by
  by_cases hx : x = 0
  · rw [hx, gMul_zero, gDiv_zero]
  · have logC := (gLog_spec hc).1
    obtain ⟨logX, power⟩ := gLog_spec hx
    have exponent : ((gLog c + gLog x) % 255 + 255 - gLog c) % 255 = gLog x := by omega
    rw [gMul, if_neg (not_or.mpr ⟨hc, hx⟩), gDiv, if_neg (gPow_ne_zero _), gLog_gPow (Nat.mod_lt _ (by decide)),
      exponent, power]

/-- Multiplying by a negative power is dividing by the power (R43). -/
theorem gMul_gPowNeg {i : Nat} (h : i < 255) (x : Byte) : gMul x (gPowNeg i) = gDiv x (gPow i) := by
  by_cases hx : x = 0
  · rw [hx, gMul_comm, gMul_zero, gDiv_zero]
  · have exponent : (gLog x + (255 - i) % 255) % 255 = (gLog x + 255 - i) % 255 := by omega
    rw [gMul, gPowNeg, if_neg (not_or.mpr ⟨hx, gPow_ne_zero _⟩), gDiv, if_neg hx, gLog_gPow h,
      gLog_gPow (Nat.mod_lt _ (by decide)), exponent]

theorem gPow_xor_ne_zero {i j : Nat} (hi : i < 255) (hj : j < 255) (differ : i ≠ j) : gPow i ^^^ gPow j ≠ 0 :=
  fun zero => differ (gPow_inj hi hj (BitVec.xor_eq_zero_iff.mp zero))

/-- R42's rule, the value that exceeds 255 reduced by 11Dh. -/
theorem gDouble_eq_ofNat (x : Byte) :
    gDouble x = BitVec.ofNat 8 (if 255 < 2 * x.toNat then (2 * x.toNat) ^^^ 0x11D else 2 * x.toNat) := by
  revert x
  decide +kernel

namespace Machine

/-- Settles O50: the powers are by doubling, and the tables by the order of g (`minimalPeriod_gDouble`). -/
theorem fieldTables : Obligations.FieldTables := by
  refine ⟨⟨rfl, gPow_255, fun i => gDouble_eq_ofNat (gPow i)⟩, fun i lt => gLog_gPow lt, fun v => gLog_spec, fun _ _ => rfl,
    fun x y hy => ?_, fun i lt => ⟨rfl, gMul_gPowNeg lt⟩, fun x y hx hy =>
    ⟨gPow_ne_zero x, gPow_xor_ne_zero (by omega) (by omega)⟩, by decide +kernel, gLog_gPow (i := 8) (by decide),
    gLog_gPow (i := 13) (by decide), by decide +kernel, by decide +kernel, gLog_gPow (i := 25) (by decide),
    gLog_gPow (i := 26) (by decide)⟩
  have below := (gLog_spec hy).1
  have exponent : (gLog x + 255 - gLog y) % 255 = (((gLog x : Int) - gLog y) % 255).toNat := by omega
  rw [gDiv, exponent]

end Machine

end Sys2Proof
end

section
/-! SUPPORT and O51: sums over the data strips of a row, and its parity. -/

namespace Sys2Proof

/-! ## Sums of bytes -/

/-- The sum of the bytes of some strips (R42). -/
def byteSum (l : List Nat) (f : Nat → Byte) : Byte := l.foldl (fun sum j => sum ^^^ f j) 0#8

theorem byteSum_nil (f : Nat → Byte) : byteSum [] f = 0#8 := rfl

theorem byteSum_cons (a : Nat) (l : List Nat) (f : Nat → Byte) : byteSum (a :: l) f = f a ^^^ byteSum l f := by
  have start (x : Byte) : l.foldl (fun sum j => sum ^^^ f j) x = x ^^^ byteSum l f := by
    unfold byteSum
    induction l generalizing x with
    | nil => simp
    | cons b l ih => rw [List.foldl_cons, List.foldl_cons, ih, ih (0#8 ^^^ f b), BitVec.zero_xor, BitVec.xor_assoc]
  rw [byteSum, List.foldl_cons, start, BitVec.zero_xor]

theorem byteSum_append (l m : List Nat) (f : Nat → Byte) : byteSum (l ++ m) f = byteSum l f ^^^ byteSum m f := by
  induction l with
  | nil => rw [List.nil_append, byteSum_nil, BitVec.zero_xor]
  | cons a l ih => rw [List.cons_append, byteSum_cons, byteSum_cons, ih, BitVec.xor_assoc]

theorem byteSum_perm {l m : List Nat} (h : l.Perm m) (f : Nat → Byte) : byteSum l f = byteSum m f := by
  induction h with
  | nil => rfl
  | cons a _ ih => rw [byteSum_cons, byteSum_cons, ih]
  | swap a b l =>
    simp only [byteSum_cons]
    ac_rfl
  | trans _ _ ih ih' => exact ih.trans ih'

/-! ## The bytes of a block sum -/

theorem Block.byteAt_scale {b : Block} (h : b.wf = true) (c : Byte) (i : Nat) :
    (Block.scale c b).byteAt i = gMul c (b.byteAt i) := Block.byteAt_map (gMul_zero c) h i

theorem Block.byteAt_divide {b : Block} (h : b.wf = true) (c : Byte) (i : Nat) :
    (b.divide c).byteAt i = gDiv (b.byteAt i) c :=
  Block.byteAt_map (f := fun x => gDiv x c) (gDiv_zero c) h i

/-- The sum of the blocks of some strips is taken byte by byte. -/
theorem Block.byteAt_sum_map {l : List Nat} {d : Nat → Block} (h : ∀ j ∈ l, (d j).wf = true) (i : Nat) :
    (Block.sum (l.map d)).byteAt i = byteSum l fun j => (d j).byteAt i := by
  have started (acc : Block) (wf : acc.wf = true) :
      ((l.map d).foldl Block.xor acc).byteAt i = acc.byteAt i ^^^ byteSum l fun j => (d j).byteAt i := by
    induction l generalizing acc with
    | nil => rw [byteSum_nil, BitVec.xor_zero, List.map_nil, List.foldl_nil]
    | cons a l ih =>
      have head := h a List.mem_cons_self
      rw [List.map_cons, List.foldl_cons, byteSum_cons, ih (fun j mem => h j (List.mem_cons_of_mem _ mem)) _
        (Block.xor_wf wf head), Block.byteAt_xor wf head, BitVec.xor_assoc]
  have void : Block.void.byteAt i = 0#8 := rfl
  rw [Block.sum, started _ Block.void_wf, void, BitVec.zero_xor]

namespace Machine

/-! ## Sums over the data strips -/

theorem mem_indicesExcept {k : Nat} {skip : List Nat} {j : Nat} : j ∈ indicesExcept k skip ↔ j < k ∧ j ∉ skip := by
  simp [indicesExcept]

theorem indicesExcept_nodup (k : Nat) (skip : List Nat) : (indicesExcept k skip).Nodup := List.nodup_range.filter _

theorem indicesExcept_nil (k : Nat) : indicesExcept k [] = List.range k := by simp [indicesExcept]

/-- The data indices are those skipped and the others. -/
theorem range_perm_indicesExcept {k : Nat} {skip : List Nat} (nodup : skip.Nodup) (below : ∀ x ∈ skip, x < k) :
    (List.range k).Perm (skip ++ indicesExcept k skip) := by
  refine (List.perm_ext_iff_of_nodup List.nodup_range (List.nodup_append.mpr
    ⟨nodup, indicesExcept_nodup k skip, ?_⟩)).mpr fun j => ?_
  · rintro a skipped _ kept rfl
    exact (mem_indicesExcept.mp kept).2 skipped
  · rw [List.mem_range, List.mem_append, mem_indicesExcept]
    by_cases mem : j ∈ skip
    · simp [mem, below j mem]
    · simp [mem]

/-- A sum over all strips is one over those skipped and one over the others. -/
theorem byteSum_range {k : Nat} {skip : List Nat} (nodup : skip.Nodup) (below : ∀ x ∈ skip, x < k) (f : Nat → Byte) :
    byteSum (List.range k) f = byteSum skip f ^^^ byteSum (indicesExcept k skip) f := by
  rw [byteSum_perm (range_perm_indicesExcept nodup below), byteSum_append]

theorem dataSum_congr {k : Nat} {skip : List Nat} {c d : Nat → Block} (h : ∀ j, j < k → j ∉ skip → c j = d j) :
    dataSum k skip c = dataSum k skip d := by
  unfold dataSum
  rw [List.map_congr_left fun j mem => h j (mem_indicesExcept.mp mem).1 (mem_indicesExcept.mp mem).2]

theorem weightedSum_congr {k : Nat} {skip : List Nat} {c d : Nat → Block} (h : ∀ j, j < k → j ∉ skip → c j = d j) :
    weightedSum k skip c = weightedSum k skip d := by
  unfold weightedSum
  rw [List.map_congr_left fun j mem => by rw [h j (mem_indicesExcept.mp mem).1 (mem_indicesExcept.mp mem).2]]

theorem parityP_congr {k : Nat} {c d : Nat → Block} (h : ∀ j, j < k → c j = d j) : parityP k c = parityP k d :=
  dataSum_congr fun j hj _ => h j hj

theorem parityQ_congr {k : Nat} {c d : Nat → Block} (h : ∀ j, j < k → c j = d j) : parityQ k c = parityQ k d :=
  weightedSum_congr fun j hj _ => h j hj

section

variable {k : Nat} {d : Nat → Block} (wf : ∀ j, j < k → (d j).wf = true)
include wf

theorem byteAt_dataSum (skip : List Nat) (i : Nat) :
    (dataSum k skip d).byteAt i = byteSum (indicesExcept k skip) fun j => (d j).byteAt i :=
  Block.byteAt_sum_map (fun j mem => wf j (mem_indicesExcept.mp mem).1) i

theorem byteAt_weightedSum (skip : List Nat) (i : Nat) :
    (weightedSum k skip d).byteAt i = byteSum (indicesExcept k skip) fun j => gMul (gPow j) ((d j).byteAt i) := by
  refine (Block.byteAt_sum_map (fun j mem => Block.scale_wf _ (wf j (mem_indicesExcept.mp mem).1)) i).trans ?_
  exact List.foldl_ext _ _ _ fun _ j mem => 
    congrArg _ (Block.byteAt_scale (wf j (mem_indicesExcept.mp mem).1) _ i)

theorem parityP_wf : (parityP k d).wf = true := dataSum_wf k [] wf

theorem parityQ_wf : (parityQ k d).wf = true := weightedSum_wf k [] wf

theorem byteAt_parityP (i : Nat) : (parityP k d).byteAt i = byteSum (List.range k) fun j => (d j).byteAt i := by
  rw [parityP, byteAt_dataSum wf, indicesExcept_nil]

theorem byteAt_parityQ (i : Nat) :
    (parityQ k d).byteAt i = byteSum (List.range k) fun j => gMul (gPow j) ((d j).byteAt i) := by
  rw [parityQ, byteAt_weightedSum wf, indicesExcept_nil]

end

/-- The only data strip is its own P (R44). -/
theorem parityP_one {d : Nat → Block} (wf : (d 0).wf = true) : parityP 1 d = d 0 := by
  have all : ∀ j, j < 1 → (d j).wf = true := fun j hj => Nat.lt_one_iff.mp hj ▸ wf
  refine Block.ext_byteAt (parityP_wf all) wf fun i => ?_
  rw [byteAt_parityP all, show List.range 1 = [0] from rfl, byteSum_cons, byteSum_nil, BitVec.xor_zero]

/-! ## The value of a position -/

theorem Extent.dataIndex_of_parity {e : Extent} {s p : Nat} (h : e.isParity s p = true) : e.dataIndex s p = none :=
  if_pos h

/-- P and Q lie at different positions. -/
theorem Extent.qPosition_ne {e : Extent} (h : e.legal) {s q : Nat} (hq : e.qPosition s = some q) :
    q ≠ e.pPosition s := by
  have lt := h.parityCount_lt
  have pos := e.parityCount_pos
  have place := Extent.pPosition_lt h s
  rw [e.qPosition_eq] at hq
  split at hq
  · cases hq
    rw [mod_of_lt_two_mul (by omega)]
    split <;> omega
  · cases hq

section

variable {e : Extent} (legal : e.legal) (op : Operation) (t : Nat)
include legal

theorem Operation.valueAt_dataPosition {j : Nat} (hj : j < e.dataCount) :
    op.valueAt e t (e.dataPosition (e.stripeOf op.row) j) = op.dataValue e t j := by
  simp only [Operation.valueAt, Extent.dataIndex_dataPosition legal hj]

/-- P after the solve: the parity of the data that the solve leaves, where it is recomputed or erased (R46 to R50). -/
theorem Operation.valueAt_pPosition :
    op.valueAt e t (e.pPosition (e.stripeOf op.row)) =
      if op.recomputes t || op.erased t (e.pPosition (e.stripeOf op.row)) then
        (parityP e.dataCount fun j => (op.valueAt e t (e.dataPosition (e.stripeOf op.row) j)).1, .recomputed)
      else (op.frameBlock (e.pPosition (e.stripeOf op.row)) t, .read) := by
  have parity : e.isParity (e.stripeOf op.row) (e.pPosition (e.stripeOf op.row)) = true :=
    (e.isParity_iff _ _).mpr (.inl rfl)
  rw [parityP_congr fun j hj => congrArg Prod.fst (op.valueAt_dataPosition legal t hj)]
  simp only [Operation.valueAt, Extent.dataIndex_of_parity parity, if_true]

/-- Q after the solve, likewise. -/
theorem Operation.valueAt_qPosition {q : Nat} (hq : e.qPosition (e.stripeOf op.row) = some q) :
    op.valueAt e t q =
      if op.recomputes t || op.erased t q then
        (parityQ e.dataCount fun j => (op.valueAt e t (e.dataPosition (e.stripeOf op.row) j)).1, .recomputed)
      else (op.frameBlock q t, .read) := by
  have parity : e.isParity (e.stripeOf op.row) q = true := (e.isParity_iff _ _).mpr (.inr hq)
  rw [parityQ_congr fun j hj => congrArg Prod.fst (op.valueAt_dataPosition legal t hj)]
  simp only [Operation.valueAt, Extent.dataIndex_of_parity parity, if_neg (Extent.qPosition_ne legal hq)]

/-- Where parity is recomputed, it is that of the data that the solve leaves (R49, R50). -/
theorem Operation.valueAt_parity (recomputes : op.recomputes t = true) :
    let s := e.stripeOf op.row
    let data := fun j => (op.valueAt e t (e.dataPosition s j)).1
    op.valueAt e t (e.pPosition s) = (parityP e.dataCount data, .recomputed) ∧
      ∀ q, e.qPosition s = some q → op.valueAt e t q = (parityQ e.dataCount data, .recomputed) := by
  refine ⟨?_, fun q hq => ?_⟩
  · rw [op.valueAt_pPosition legal t, recomputes, Bool.true_or, if_pos rfl]
  · rw [op.valueAt_qPosition legal t hq, recomputes, Bool.true_or, if_pos rfl]

end

/-- A MIRROR has one data strip (R1). -/
theorem Extent.dataCount_of_mirror {e : Extent} (h : e.legal) (mirror : e.kind = .mirror) : e.dataCount = 1 := by
  obtain ⟨suits, -⟩ := h
  rw [mirror] at suits
  have two : e.memberCount = 2 := by simpa [ExtentKind.suits] using suits
  rw [Extent.dataCount, e.parityCount_eq, two, mirror]
  rfl

/-- Settles O51: the block sums are taken byte by byte, and recomputed parity is that of the values after the solve. -/
theorem parityDefined : Obligations.ParityDefined := by
  refine ⟨fun k d i wf => ⟨parityP_wf wf, parityQ_wf wf, byteAt_parityP wf i, byteAt_parityQ wf i⟩,
    fun e s legal => ⟨?_, fun mirror => ?_⟩, fun e op i legal => op.valueAt_parity legal i⟩
  · rw [e.qPosition_eq]
    split <;> simp_all
  · have one := Extent.dataCount_of_mirror legal mirror
    exact ⟨one, fun d wf => by rw [one, parityP_one wf]⟩

end Machine

end Sys2Proof
end

section
/-! SUPPORT and O52: what the solve of an offset restores. -/

namespace Sys2Proof.Machine

/-! ## Restoring from parity (R46 to R48) -/

section

variable {k : Nat} {d : Nat → Block} (wf : ∀ j, j < k → (d j).wf = true)
include wf

/-- P with the data strips but some taken off leaves the sum of these. -/
theorem byteAt_parityP_rest {skip : List Nat} (nodup : skip.Nodup) (below : ∀ x ∈ skip, x < k) (i : Nat) :
    ((parityP k d).xor (dataSum k skip d)).byteAt i = byteSum skip fun j => (d j).byteAt i := by
  rw [Block.byteAt_xor (parityP_wf wf) (dataSum_wf k skip wf), byteAt_parityP wf, byteAt_dataSum wf,
    byteSum_range nodup below, BitVec.xor_assoc, BitVec.xor_self, BitVec.xor_zero]

/-- Q with the weighted data strips but some taken off leaves the weighted sum of these. -/
theorem byteAt_parityQ_rest {skip : List Nat} (nodup : skip.Nodup) (below : ∀ x ∈ skip, x < k) (i : Nat) :
    ((parityQ k d).xor (weightedSum k skip d)).byteAt i = byteSum skip fun j => gMul (gPow j) ((d j).byteAt i) := by
  rw [Block.byteAt_xor (parityQ_wf wf) (weightedSum_wf k skip wf), byteAt_parityQ wf, byteAt_weightedSum wf,
    byteSum_range nodup below, BitVec.xor_assoc, BitVec.xor_self, BitVec.xor_zero]

theorem parityP_rest_wf (skip : List Nat) : ((parityP k d).xor (dataSum k skip d)).wf = true :=
  Block.xor_wf (parityP_wf wf) (dataSum_wf k skip wf)

theorem parityQ_rest_wf (skip : List Nat) : ((parityQ k d).xor (weightedSum k skip d)).wf = true :=
  Block.xor_wf (parityQ_wf wf) (weightedSum_wf k skip wf)

/-- One data strip from P (R46, R47). -/
theorem restoreFromP_parityP {x : Nat} (hx : x < k) : restoreFromP k x (parityP k d) d = d x := by
  refine Block.ext_byteAt (parityP_rest_wf wf [x]) (wf x hx) fun i => ?_
  rw [restoreFromP, byteAt_parityP_rest wf (List.nodup_singleton x) (by simpa using hx), byteSum_cons, byteSum_nil, BitVec.xor_zero]

/-- One data strip from Q (R47): the weight is divided off. -/
theorem restoreFromQ_parityQ {x : Nat} (hx : x < k) (small : k ≤ 255) : restoreFromQ k x (parityQ k d) d = d x := by
  refine Block.ext_byteAt (Block.scale_wf _ (parityQ_rest_wf wf [x])) (wf x hx) fun i => ?_
  rw [restoreFromQ, Block.byteAt_scale (parityQ_rest_wf wf [x]),
    byteAt_parityQ_rest wf (List.nodup_singleton x) (by simpa using hx), byteSum_cons, byteSum_nil, BitVec.xor_zero, gMul_comm, gMul_gPowNeg (by omega), gDiv_gMul (gPow_ne_zero x)]

variable {x y : Nat} (hx : x < k) (hy : y < k) (differ : x ≠ y)
include hx hy differ

/-- The lower of two data strips (R48): Q less the weighted P leaves it times the divisor. -/
theorem restoreLower_parity (small : k ≤ 255) : restoreLower k x y (parityP k d) (parityQ k d) d = d x := by
  have nodup : [x, y].Nodup := by simpa using differ
  have below : ∀ z ∈ [x, y], z < k := by simp [hx, hy]
  have hP := parityP_rest_wf wf [x, y]
  have hQ := parityQ_rest_wf wf [x, y]
  have scaled := Block.scale_wf (gPow y) hP
  have cancel (a b c : Byte) : a ^^^ b ^^^ (c ^^^ b) = a ^^^ c := by
    rw [BitVec.xor_comm c b, ← BitVec.xor_assoc, BitVec.xor_assoc a b b, BitVec.xor_self, BitVec.xor_zero]
  refine Block.ext_byteAt (Block.divide_wf _ (Block.xor_wf hQ scaled)) (wf x hx) fun i => ?_
  calc (restoreLower k x y (parityP k d) (parityQ k d) d).byteAt i
      = gDiv (gMul (gPow x) ((d x).byteAt i) ^^^ gMul (gPow y) ((d y).byteAt i) ^^^
          gMul (gPow y) ((d x).byteAt i ^^^ (d y).byteAt i)) (gPow x ^^^ gPow y) := by
        rw [restoreLower, Block.byteAt_divide (Block.xor_wf hQ scaled), Block.byteAt_xor hQ scaled,
          Block.byteAt_scale hP, byteAt_parityP_rest wf nodup below, byteAt_parityQ_rest wf nodup below]
        simp only [byteSum_cons, byteSum_nil, BitVec.xor_zero]
    _ = gDiv (gMul (gPow x ^^^ gPow y) ((d x).byteAt i)) (gPow x ^^^ gPow y) := by
        rw [gMul_xor, cancel, xor_gMul]
    _ = (d x).byteAt i := gDiv_gMul (gPow_xor_ne_zero (by omega) (by omega) differ) _

/-- The upper of two data strips (R48), from the sum of both. -/
theorem restoreUpper_parity (small : k ≤ 255) : restoreUpper k x y (parityP k d) (parityQ k d) d = d y := by
  have hP := parityP_rest_wf wf [x, y]
  rw [restoreUpper, restoreLower_parity wf hx hy differ small]
  refine Block.ext_byteAt (Block.xor_wf hP (wf x hx)) (wf y hy) fun i => ?_
  rw [Block.byteAt_xor hP (wf x hx), byteAt_parityP_rest wf (by simpa using differ) (by simp [hx, hy]), byteSum_cons,
    byteSum_cons, byteSum_nil, BitVec.xor_zero, BitVec.xor_comm, ← BitVec.xor_assoc, BitVec.xor_self, BitVec.zero_xor]

end

theorem restoreData_congr {k x : Nat} {erased : List Nat} (mem : x ∈ erased) (few : erased.length ≤ 2) (noP : Bool)
    (p q : Block) {c d : Nat → Block} (h : ∀ j, j < k → j ∉ erased → c j = d j) :
    restoreData k erased noP p q c x = restoreData k erased noP p q d x := by
  match erased, mem, few with
  | [a], mem, _ =>
    obtain rfl := List.mem_singleton.mp mem
    simp only [restoreData, restoreFromQ, restoreFromP, dataSum_congr h, weightedSum_congr h]
  | [a, b], _, _ =>
    simp only [restoreData, restoreUpper, restoreLower, dataSum_congr h, weightedSum_congr h]

/-- What R46 to R48 restore of a consistent row: its own data strip. Two strips take both parities, one takes P, or Q where P
is erased as well. -/
theorem restoreData_parity {k x : Nat} {erased : List Nat} {noP : Bool} {p q : Block} {d : Nat → Block}
    (wf : ∀ j, j < k → (d j).wf = true) (small : k ≤ 255) (nodup : erased.Nodup) (below : ∀ j ∈ erased, j < k)
    (mem : x ∈ erased) (few : erased.length ≤ 2) (hasP : noP = false → p = parityP k d)
    (hasQ : noP = true ∨ erased.length = 2 → q = parityQ k d) (onlyData : erased.length = 2 → noP = false) :
    restoreData k erased noP p q d x = d x := by
  match erased, nodup, below, mem, few, hasQ, onlyData with
  | [a], _, below, mem, _, hasQ, _ =>
    obtain rfl := List.mem_singleton.mp mem
    have hx := below x mem
    cases noP with
    | false => exact hasP rfl ▸ restoreFromP_parityP wf hx
    | true => exact hasQ (.inl rfl) ▸ restoreFromQ_parityQ wf hx small
  | [a, b], nodup, below, mem, _, hasQ, onlyData =>
    have differ : a ≠ b := by simpa using nodup
    have ha := below a (by simp)
    have hb := below b (by simp)
    rw [hasP (onlyData rfl), hasQ (.inr rfl), restoreData]
    split
    · rename_i same
      rw [same, restoreLower_parity wf ha hb differ small]
    · rename_i other
      have same : x = b := by simpa [other] using mem
      rw [same, restoreUpper_parity wf ha hb differ small]

/-! ## The erasures of an offset -/

theorem Extent.legal.dataCount_le {e : Extent} (h : e.legal) : e.dataCount ≤ 255 := by
  have le := e.dataCount_le
  obtain ⟨suits, -⟩ := h
  cases hk : e.kind <;> rw [hk] at suits <;> simp [ExtentKind.suits] at suits <;> omega

theorem Extent.qPosition_lt {e : Extent} (h : e.legal) {s q : Nat} (hq : e.qPosition s = some q) : q < e.memberCount := by
  have lt := h.parityCount_lt
  rw [e.qPosition_eq] at hq
  split at hq <;> cases hq
  exact Nat.mod_lt _ (by omega)

/-- The data strips erased at an offset. -/
def Operation.erasedData (e : Extent) (op : Operation) (t : Nat) : List Nat :=
  (List.range e.dataCount).filter fun j => op.erased t (e.dataPosition (e.stripeOf op.row) j)

theorem Operation.erasedData_nodup (e : Extent) (op : Operation) (t : Nat) : (op.erasedData e t).Nodup :=
  List.nodup_range.filter _

/-- The data and parity positions of a row, each once. -/
theorem Extent.rowPositions_nodup {e : Extent} (h : e.legal) (row : Nat) :
    (e.dataPositions row ++ e.parityPositions row).Nodup := by
  refine List.nodup_append.mpr ⟨?_, ?_, ?_⟩
  · exact List.Nodup.map_on (fun i hi j hj => Extent.dataPosition_injective h (List.mem_range.mp hi)
      (List.mem_range.mp hj)) List.nodup_range
  · cases hq : e.qPosition (e.stripeOf row) with
    | none => simp [Extent.parityPositions, hq]
    | some q => simpa [Extent.parityPositions, hq] using (Extent.qPosition_ne h hq).symm
  · intro p data q parity same
    subst same
    obtain ⟨j, hj, rfl⟩ := List.mem_map.mp data
    have isData := Extent.not_isParity_dataPosition h (s := e.stripeOf row) (List.mem_range.mp hj)
    rw [← Bool.not_eq_true, e.isParity_iff] at isData
    simp only [Extent.parityPositions, List.mem_cons, Option.mem_toList] at parity
    exact isData parity

theorem Extent.rowPositions_lt {e : Extent} (h : e.legal) {row p : Nat}
    (mem : p ∈ e.dataPositions row ++ e.parityPositions row) : p < e.memberCount := by
  simp only [Extent.dataPositions, Extent.parityPositions, List.mem_append, List.mem_map, List.mem_cons,
    Option.mem_toList] at mem
  rcases mem with ⟨j, -, rfl⟩ | rfl | hq
  · exact Extent.dataPosition_lt h _ _
  · exact Extent.pPosition_lt h _
  · exact Extent.qPosition_lt h hq

/-- The erased data strips and parity strips are among the erasures (R45). -/
theorem Operation.erasedData_le {e : Extent} (h : e.legal) (op : Operation) (t : Nat) :
    (op.erasedData e t).length + ((e.parityPositions op.row).filter (op.erased t)).length ≤
      (op.erasures e t).length := by
  have count : (op.erasedData e t).length = ((e.dataPositions op.row).filter (op.erased t)).length := by
    rw [Extent.dataPositions, List.filter_map, List.length_map]
    rfl
  rw [count, ← List.length_append, ← List.filter_append]
  refine (List.subperm_of_subset ((Extent.rowPositions_nodup h op.row).filter _) fun p mem => ?_).length_le
  obtain ⟨position, erased⟩ := List.mem_filter.mp mem
  exact List.mem_filter.mpr ⟨List.mem_range.mpr (Extent.rowPositions_lt h position), erased⟩

/-- At a solvable offset with data erased at most two data strips are; where two are, or one and P, the row has a Q that is
not, and where two are P is not (R46 to R48). -/
theorem Operation.solvable_spec {e : Extent} (h : e.legal) {op : Operation} {t j : Nat}
    (few : (op.erasures e t).length ≤ e.parityCount) (mem : j ∈ op.erasedData e t) :
    (op.erasedData e t).length ≤ 2 ∧
      (op.erased t (e.pPosition (e.stripeOf op.row)) = true ∨ (op.erasedData e t).length = 2 →
        ∃ q, e.qPosition (e.stripeOf op.row) = some q ∧ op.erased t q = false) ∧
      ((op.erasedData e t).length = 2 → op.erased t (e.pPosition (e.stripeOf op.row)) = false) := by
  have present := List.length_pos_of_mem mem
  have count := (op.erasedData_le h t).trans few
  rw [e.parityCount_eq, Extent.parityPositions, e.qPosition_eq] at count
  rw [e.qPosition_eq]
  generalize (op.erasedData e t).length = n at present count ⊢
  split at count
  · rename_i double
    rw [if_pos double]
    cases hp : op.erased t (e.pPosition (e.stripeOf op.row)) <;>
      cases hq : op.erased t ((e.pPosition (e.stripeOf op.row) + 1) % e.memberCount) <;>
      simp [hp, hq] at count ⊢ <;> omega
  · cases hp : op.erased t (e.pPosition (e.stripeOf op.row)) <;> simp_all
    omega

/-! ## The value of a data strip (R46 to R50) -/

section

variable {e : Extent} {op : Operation} {t j : Nat}

theorem Operation.dataValue_of_covered (covered : op.covers e t (e.dataPosition (e.stripeOf op.row) j) = true) :
    op.dataValue e t j = (op.newBlock (e.dataPosition (e.stripeOf op.row) j) t, .new) := if_pos covered

theorem Operation.dataValue_of_present (uncovered : op.covers e t (e.dataPosition (e.stripeOf op.row) j) = false)
    (present : op.erased t (e.dataPosition (e.stripeOf op.row) j) = false) :
    op.dataValue e t j = (op.frameBlock (e.dataPosition (e.stripeOf op.row) j) t, .read) := by
  simp [Operation.dataValue, uncovered, present]

theorem Operation.dataValue_of_lost (uncovered : op.covers e t (e.dataPosition (e.stripeOf op.row) j) = false)
    (erased : op.erased t (e.dataPosition (e.stripeOf op.row) j) = true) (gone : t ∈ op.closed ∨ t ∈ op.lost) :
    op.dataValue e t j = (Block.void, .void) := by
  simp [Operation.dataValue, uncovered, erased, gone]

/-- At a closed or lost offset erased data without new contents are zeros, other data as read (R50, R76). -/
theorem Operation.dataValue_of_gone (uncovered : op.covers e t (e.dataPosition (e.stripeOf op.row) j) = false)
    (gone : t ∈ op.closed ∨ t ∈ op.lost) :
    op.dataValue e t j = if op.erased t (e.dataPosition (e.stripeOf op.row) j) then (Block.void, .void)
      else (op.frameBlock (e.dataPosition (e.stripeOf op.row) j) t, .read) := by
  split
  · exact Operation.dataValue_of_lost uncovered ‹_› gone
  · exact Operation.dataValue_of_present uncovered (Bool.not_eq_true _ ▸ ‹_›)

theorem Operation.dataValue_of_erased (uncovered : op.covers e t (e.dataPosition (e.stripeOf op.row) j) = false)
    (erased : op.erased t (e.dataPosition (e.stripeOf op.row) j) = true) (notClosed : t ∉ op.closed)
    (notLost : t ∉ op.lost) :
    op.dataValue e t j =
      (restoreData e.dataCount (op.erasedData e t) (op.erased t (e.pPosition (e.stripeOf op.row)))
        (op.frameBlock (e.pPosition (e.stripeOf op.row)) t)
        ((e.qPosition (e.stripeOf op.row)).elim Block.void fun q => op.frameBlock q t)
        (fun i => op.frameBlock (e.dataPosition (e.stripeOf op.row) i) t) j, .solved) := by
  simp [Operation.dataValue, uncovered, erased, notClosed, notLost, Operation.erasedData]
  cases e.qPosition (e.stripeOf op.row) <;> rfl

/-- A covered block takes its new contents (R49). -/
theorem Operation.newBlock_of_fetched {p : Nat} {blocks : List NewBlock} {b : NewBlock} (fetched : op.fetched = some blocks)
    (found : blocks.find? (fun y => y.position == p && y.offset == t) = some b) : op.newBlock p t = b.contents := by
  simp [Operation.newBlock, fetched, found]

end

/-! ## Consistent rows -/

/-- The blocks of the row's offset `t` that are not erased are those of the data `d` and of its parity (R44). -/
structure Operation.Consistent (e : Extent) (op : Operation) (t : Nat) (d : Nat → Block) : Prop where
  wf : ∀ j, j < e.dataCount → (d j).wf = true
  data : ∀ j, j < e.dataCount → op.erased t (e.dataPosition (e.stripeOf op.row) j) = false →
    op.frameBlock (e.dataPosition (e.stripeOf op.row) j) t = d j
  p : op.erased t (e.pPosition (e.stripeOf op.row)) = false →
    op.frameBlock (e.pPosition (e.stripeOf op.row)) t = parityP e.dataCount d
  q : ∀ q, e.qPosition (e.stripeOf op.row) = some q → op.erased t q = false →
    op.frameBlock q t = parityQ e.dataCount d

section

variable {e : Extent} {op : Operation} {t j : Nat} {d : Nat → Block} (legal : e.legal) (row : op.Consistent e t d)
include legal row

/-- Of a consistent row whose offset is solvable, an uncovered data strip comes out with its own block. -/
theorem Operation.Consistent.dataValue (few : (op.erasures e t).length ≤ e.parityCount) (notClosed : t ∉ op.closed)
    (notLost : t ∉ op.lost) (hj : j < e.dataCount)
    (uncovered : op.covers e t (e.dataPosition (e.stripeOf op.row) j) = false) :
    op.dataValue e t j = (d j, if op.erased t (e.dataPosition (e.stripeOf op.row) j) then .solved else .read) := by
  cases erased : op.erased t (e.dataPosition (e.stripeOf op.row) j) with
  | false => rw [Operation.dataValue_of_present uncovered erased, row.data j hj erased, if_neg Bool.false_ne_true]
  | true =>
    have mem : j ∈ op.erasedData e t := List.mem_filter.mpr ⟨List.mem_range.mpr hj, erased⟩
    obtain ⟨two, hasQ, onlyData⟩ := Operation.solvable_spec legal few mem
    rw [Operation.dataValue_of_erased uncovered erased notClosed notLost, if_pos rfl,
      restoreData_congr (d := d) mem two _ _ _ fun i hi present => row.data i hi ?_,
      restoreData_parity row.wf legal.dataCount_le (op.erasedData_nodup e t)
        (fun i mem => List.mem_range.mp (List.mem_filter.mp mem).1) mem two row.p (fun takesQ => ?_) onlyData]
    · obtain ⟨q, place, read⟩ := hasQ takesQ
      rw [place]
      exact row.q q place read
    · exact Bool.eq_false_iff.mpr fun gone => present (List.mem_filter.mpr ⟨List.mem_range.mpr hi, gone⟩)

/-- Of a consistent row whose offset is solvable, with nothing covered, data and parity come out as the row has them. -/
theorem Operation.Consistent.valueAt (few : (op.erasures e t).length ≤ e.parityCount) (notClosed : t ∉ op.closed)
    (notLost : t ∉ op.lost) (uncovered : ∀ p, op.covers e t p = false) :
    (∀ j, j < e.dataCount → op.valueAt e t (e.dataPosition (e.stripeOf op.row) j) =
      (d j, if op.erased t (e.dataPosition (e.stripeOf op.row) j) then .solved else .read)) ∧
    (op.valueAt e t (e.pPosition (e.stripeOf op.row))).1 = parityP e.dataCount d ∧
    ∀ q, e.qPosition (e.stripeOf op.row) = some q → (op.valueAt e t q).1 = parityQ e.dataCount d := by
  have data (j : Nat) (hj : j < e.dataCount) :=
    (op.valueAt_dataPosition legal t hj).trans (row.dataValue legal few notClosed notLost hj (uncovered _))
  have same (j : Nat) (hj : j < e.dataCount) := congrArg Prod.fst (data j hj)
  have read {p : Nat} (h : ¬ (op.recomputes t || op.erased t p) = true) : op.erased t p = false := by simp_all
  refine ⟨data, ?_, fun q hq => ?_⟩
  · rw [op.valueAt_pPosition legal t]
    split
    · exact parityP_congr same
    · exact row.p (read ‹_›)
  · rw [op.valueAt_qPosition legal t hq]
    split
    · exact parityQ_congr same
    · exact row.q q hq (read ‹_›)

end

/-- Settles O52: a data strip by the ways its value is obtained, an erased one by `Operation.Consistent.dataValue`, and
parity by `Operation.valueAt_parity`. -/
theorem solverRestores : Obligations.SolverRestores := by
  intro e op i legal s k position value consistent renews recomputes
  have row {d : Nat → Block} (h : consistent d) : op.Consistent e i d := by
    obtain ⟨wf, data, p, q⟩ := h
    exact ⟨wf, data, p, q⟩
  have strip {j : Nat} (hj : j < k) : op.valueAt e i (position j) = op.dataValue e i j :=
    op.valueAt_dataPosition legal i hj
  have renewed : renews := fun j blocks b hj covered fetched found => by
    rw [strip hj, Operation.dataValue_of_covered covered, Operation.newBlock_of_fetched fetched found]
  have fresh : op.recomputes i = true → recomputes := op.valueAt_parity legal i
  refine ⟨fun d h uncovered notClosed notLost few => (row h).valueAt legal few notClosed notLost uncovered,
    fun d write notClosed notLost given => ⟨renewed, fresh (by simp [Operation.recomputes, write]),
      fun j hj uncovered => ?_⟩,
    fun closed => ⟨renewed, fresh (by simp [Operation.recomputes, closed]), fun j hj uncovered =>
      (strip hj).trans (Operation.dataValue_of_gone uncovered (.inl closed))⟩,
    fun lost read j hj => (strip hj).trans
      (Operation.dataValue_of_gone (by simp [Operation.covers, read]) (.inr lost))⟩
  rw [strip hj]
  rcases given with ⟨h, few⟩ | unread
  · exact (row h).dataValue legal few notClosed notLost hj uncovered
  · obtain ⟨present, block⟩ := unread j hj uncovered
    rw [Operation.dataValue_of_present uncovered present, block, present, if_neg Bool.false_ne_true]

end Sys2Proof.Machine
end

section
/-! O46: the outcome of a row operation, what a request takes of its end, and what a job does with one that failed. -/

namespace Sys2Proof.Machine

/-! ## What the kind makes of the tallies -/

theorem Operation.outcome_rebuildRow {op : Operation} (kind : op.kind = .rebuildRow) :
    op.outcome = if op.tallies.lost = 0 then .done else .doneWithLoss := by
  simp only [Operation.outcome, kind, Nat.pos_iff_ne_zero, ite_not]

theorem Operation.outcome_readRow {op : Operation} (kind : op.kind = .readRow) :
    op.outcome =
      if op.tallies.lost ≠ 0 then .doneWithLoss else if op.tallies.reconstructed ≠ 0 then .recovered else .done := by
  simp only [Operation.outcome, kind, Nat.pos_iff_ne_zero]

theorem Operation.outcome_writeRow {op : Operation} (kind : op.kind = .writeRow) :
    op.outcome =
      if op.closed ≠ [] then .doneWithLoss else if op.tallies.reconstructed ≠ 0 then .recovered else .done := by
  simp only [Operation.outcome, kind, Nat.pos_iff_ne_zero]

/-! ## What a request takes of a row -/

/-- A list without a value, in the two spellings of the model and the statements. -/
theorem filter_bne {α : Type} [BEq α] [LawfulBEq α] [DecidableEq α] (l : List α) (a : α) :
    (l.filter fun x => x != a) = l.filter fun x => x ≠ a :=
  List.filter_congr fun x _ => by by_cases h : x = a <;> simp [h]

/-- The lower of two numbers that may be absent. -/
theorem lowerOf_spec (a b : Option Nat) :
    (lowerOf a b = none ↔ a = none ∧ b = none) ∧ (lowerOf a b = none ∨ lowerOf a b = a ∨ lowerOf a b = b) ∧
      ∀ n, lowerOf a b = some n → (∀ m, a = some m → n ≤ m) ∧ ∀ m, b = some m → n ≤ m := by
  cases a with
  | none => simp +contextual [lowerOf]
  | some a =>
    cases b with
    | none => simp +contextual [lowerOf]
    | some b => simp +contextual [lowerOf]; omega

/-- The ranking of R121, as a place in the list of the row statuses. -/
theorem Status.rank_eq_idxOf {x : Status} (h : x ∈ [Status.good, .recovered, .lossKept, .lostData, .failed]) :
    [Status.good, .recovered, .lossKept, .lostData, .failed].idxOf x = x.rank := by
  revert x
  decide

/-- The worse of two statuses is one of them, and no better than either. -/
theorem Status.worse_spec (a b : Status) :
    (a.worse b = a ∨ a.worse b = b) ∧ a.rank ≤ (a.worse b).rank ∧ b.rank ≤ (a.worse b).rank := by
  unfold Status.worse
  split
  · exact ⟨.inr rfl, by omega, le_rfl⟩
  · exact ⟨.inl rfl, le_rfl, by omega⟩

theorem rowStatus_mem (kept : Bool) (outcome : RowOutcome) :
    rowStatus kept outcome ∈ [Status.good, .recovered, .lossKept, .lostData, .failed] := by
  cases kept <;> cases outcome <;> decide

theorem RowOutcome.completed_iff {outcome : RowOutcome} :
    outcome.completed = true ↔ outcome = .done ∨ outcome = .recovered ∨ outcome = .doneWithLoss := by
  cases outcome <;> simp [RowOutcome.completed]

/-- What a READ's or WRITE's tallies take of a row (R120). -/
theorem RequestTallies.addRow_spec (isWrite : Bool) (outcome : RowOutcome) (kept : Bool) (t : RowTallies)
    (r : RequestTallies) :
    r.addRow isWrite outcome kept t = { r with
      served := if outcome.completed then r.served + t.served else r.served
      reconstructed := if outcome.completed then r.reconstructed + t.reconstructed else r.reconstructed
      lost := if outcome.completed then r.lost + t.lost else r.lost
      completed := if outcome.completed then r.completed + 1 else r.completed
      sideLosses := r.sideLosses + t.sideLosses
      firstLost := if outcome.completed || isWrite then lowerOf r.firstLost t.firstLost else r.firstLost
      kept := if outcome.completed then r.kept || kept else r.kept } := by
  unfold RequestTallies.addRow
  cases outcome.completed <;> rfl

/-- A request that takes a row changes its rows in flight, its tallies, its worst status and its stop cause. -/
theorem ForegroundRequest.takeRow_eq (r : ForegroundRequest) (row : Nat) (outcome : RowOutcome) (t : RowTallies)
    (kept settled : Bool) :
    r.takeRow row outcome t kept settled = { r with
      inFlight := r.inFlight.filter (fun x => x ≠ row), tallies := (r.takeRow row outcome t kept settled).tallies
      worst := (r.takeRow row outcome t kept settled).worst, stop := (r.takeRow row outcome t kept settled).stop } := by
  rw [← filter_bne]
  rfl

/-- The tallies of a READ or WRITE once it has taken a row. -/
theorem ForegroundRequest.tallies_takeRow {r : ForegroundRequest} (kind : r.kind ≠ .resync) (row : Nat)
    (outcome : RowOutcome) (t : RowTallies) (kept settled : Bool) :
    (r.takeRow row outcome t kept settled).tallies =
      r.tallies.addRow (decide (r.kind = .write)) outcome (decide (r.kind = .write) && kept) t := by
  unfold ForegroundRequest.takeRow
  cases same : r.kind with
  | read | write => rfl
  | resync => exact absurd same kind

/-- The tallies of a RESYNC once it has taken a row. -/
theorem ForegroundRequest.tallies_takeRow_resync {r : ForegroundRequest} (kind : r.kind = .resync) (row : Nat)
    (outcome : RowOutcome) (t : RowTallies) (kept settled : Bool) :
    (r.takeRow row outcome t kept settled).tallies = r.tallies.addResync outcome row settled := by
  simp only [ForegroundRequest.takeRow, kind]

/-- The stop cause of a request stands, or is that of the row's outcome. -/
theorem ForegroundRequest.stop_takeRow (r : ForegroundRequest) (row : Nat) (outcome : RowOutcome) (t : RowTallies)
    (kept settled : Bool) : (r.takeRow row outcome t kept settled).stop = r.stop.or outcome.stopCause := rfl

theorem ForegroundRequest.worst_takeRow (r : ForegroundRequest) (row : Nat) (outcome : RowOutcome) (t : RowTallies)
    (kept settled : Bool) :
    (r.takeRow row outcome t kept settled).worst = r.worst.worse (rowStatus kept outcome) := rfl

/-- Settles O46: the outcome by kind, and what a request takes by its kind of tallies and the ranking. -/
theorem rowEndsTaken : Obligations.RowEndsTaken := by
  refine ⟨fun op => ⟨Operation.outcome_rebuildRow, Operation.outcome_readRow, Operation.outcome_writeRow, fun kind => ?_⟩,
    ?_, ?_⟩
  · simp only [Operation.outcome, kind]
  · intro r row outcome t kept settled after completed ranking status lower adds
    have isStatus : status = rowStatus kept outcome := by cases outcome <;> rfl
    have isAdds : ∀ n m, adds n m = if outcome.completed then n + m else n := fun n m => by
      simp only [adds, RowOutcome.completed_iff]
    refine ⟨r.takeRow_eq row outcome t kept settled, fun stopped => ?_, fun free => ?_, fun ranked => ?_, fun kind => ?_,
      fun kind => ?_⟩
    · obtain ⟨cause, stopped⟩ := Option.ne_none_iff_exists'.mp stopped
      simp only [after, ForegroundRequest.stop_takeRow, stopped, Option.some_or]
    · simp only [after, ForegroundRequest.stop_takeRow, free, Option.none_or]
      cases outcome <;> rfl
    · have row := rowStatus_mem kept outcome
      obtain ⟨either, above, below⟩ := r.worst.worse_spec (rowStatus kept outcome)
      have worst : after.worst ∈ ranking := by
        rcases either with same | same
        · exact (r.worst_takeRow _ _ _ _ _).trans same ▸ ranked
        · exact (r.worst_takeRow _ _ _ _ _).trans same ▸ row
      rw [Status.rank_eq_idxOf ranked, Status.rank_eq_idxOf worst, isStatus, Status.rank_eq_idxOf row]
      exact ⟨either, above, below⟩
    · have tallies := ForegroundRequest.tallies_takeRow kind row outcome t kept settled
      rw [RequestTallies.addRow_spec] at tallies
      refine ⟨?_, fun counted => ?_, fun failed read => ?_, ?_⟩
      · simp only [after, tallies, isAdds]
      · have counted : (outcome.completed || decide (r.kind = .write)) = true := by
          simpa [RowOutcome.completed_iff, completed] using counted
        have first : after.tallies.firstLost = lowerOf r.tallies.firstLost t.firstLost := by
          simp only [after, tallies, counted, if_true]
        rw [first]
        exact lowerOf_spec _ _
      · have failed : outcome.completed = false :=
          Bool.eq_false_iff.mpr (mt RowOutcome.completed_iff.mp failed)
        simp [after, tallies, failed, read]
      · have isCompleted : completed ↔ outcome.completed = true := RowOutcome.completed_iff.symm
        rw [isCompleted]
        simp only [after, tallies]
        cases outcome.completed <;> simp
    · have tallies := ForegroundRequest.tallies_takeRow_resync kind row outcome t kept settled
      refine ⟨fun done => ?_, fun skipped => ?_, fun notDone notSkipped => ?_⟩
      · rw [done] at tallies
        simp only [after, done, tallies, RequestTallies.addResync, flagCode]
      · rw [skipped] at tallies
        simp only [after, skipped, tallies, RequestTallies.addResync, true_and]
        exact lowerOf_spec _ _
      · simp only [after, tallies]
        cases outcome with
        | done => exact absurd rfl notDone
        | skipped => exact absurd rfl notSkipped
        | recovered | doneWithLoss | extentLost | targetLost | bufferFault => rfl
  · intro j row t inFlight
    have left : (j.inFlight.filter fun x => x != row) = inFlight := filter_bne _ _
    simp only [Job.takeFailure, Job.rowLeaves, left]

end Sys2Proof.Machine
end

section
/-! SUPPORT. The boundary tests of a row operation and its end (R63, R71), in the terms of Safety: what its owner takes of
it, and what its context gives back. -/

namespace Sys2Proof.Machine

/-! ## The boundary tests (R63) -/

theorem State.drainsWithoutTarget_iff {s : State} {j : JobId} :
    s.drainsWithoutTarget j = true ↔ (s.job j).state = .aborting ∧ (s.job j).targetless = true := by
  rw [State.drainsWithoutTarget, Bool.and_eq_true, beq_iff_eq]

theorem State.boundary_of_losesRow {s : State} {op : Operation} (h : s.LosesRow op) : s.boundary op = some .extentLost :=
  if_pos h

theorem State.boundary_of_losesTarget {s : State} {op : Operation} (h : ¬ s.LosesRow op) (lost : s.LosesTarget op) :
    s.boundary op = some .targetLost := by
  obtain ⟨j, owner, drains⟩ := lost
  refine (if_neg h).trans ?_
  rw [owner]
  exact if_pos (State.drainsWithoutTarget_iff.mpr drains)

theorem State.boundary_of_passes {s : State} {op : Operation} (h : s.Passes op) : s.boundary op = none := by
  obtain ⟨kept, goes⟩ := h
  refine (if_neg kept).trans ?_
  cases owner : op.owner with
  | job j => exact if_neg fun drains => goes ⟨j, owner, State.drainsWithoutTarget_iff.mp drains⟩
  | slip i piece => rfl

/-! ## Requests open -/

theorem slotOwnedBy_iff {c : ContextId} {x : Option Outstanding} :
    slotOwnedBy c x = true ↔ ∃ o, x = some o ∧ o.request.owner = some c := by
  cases x <;> simp [slotOwnedBy]

theorem Port.hasOutstanding_iff {x : Port} {c : ContextId} : x.hasOutstanding c = true ↔
    ∃ (i : Tag) (o : Outstanding), x.slots[i.val] = some o ∧ o.request.owner = some c := by
  simp only [Port.hasOutstanding, List.any_eq_true, slotOwnedBy_iff]
  constructor
  · rintro ⟨y, mem, o, rfl, owner⟩
    obtain ⟨i, lt, slot⟩ := List.getElem_of_mem mem
    have lt : i < 8 := by simpa using lt
    exact ⟨⟨i, lt⟩, o, by simpa using slot, owner⟩
  · rintro ⟨i, o, slot, owner⟩
    exact ⟨some o, by rw [← slot]; simp, o, rfl, owner⟩

/-- The model's test of open requests is the statement's. -/
theorem State.requestsOpen_eq_false {s : State} {c : ContextId} : s.requestsOpen c = false ↔ s.NothingOpen c := by
  rw [← Bool.not_eq_true, State.requestsOpen, List.any_eq_true]
  constructor
  · intro closed p
    have closed : ¬ ((s.port p).waitsFor c || (s.port p).hasOutstanding c) = true := fun opened =>
      closed ⟨s.port p, by simp [State.port], opened⟩
    simp only [Bool.or_eq_true, not_or, Port.waitsFor, List.any_eq_true, beq_iff_eq, not_exists, not_and] at closed
    obtain ⟨waits, slots⟩ := closed
    exact ⟨waits, fun i o slot owner => slots (Port.hasOutstanding_iff.mpr ⟨i, o, slot, owner⟩)⟩
  · rintro nothing ⟨x, mem, opened⟩
    obtain ⟨i, lt, rfl⟩ := List.getElem_of_mem mem
    have lt : i < 16 := by simpa using lt
    obtain ⟨waits, slots⟩ := nothing ⟨i, lt⟩
    rcases Bool.or_eq_true_iff.mp opened with waiting | outstanding
    · obtain ⟨r, mem, owner⟩ := List.any_eq_true.mp waiting
      exact waits r mem (by simpa using owner)
    · obtain ⟨j, o, slot, owner⟩ := Port.hasOutstanding_iff.mp outstanding
      exact slots j o slot owner

/-! ## The owner told -/

/-- The owner of `op` takes its outcome, and the job that counts the operation counts it no more (R71, R90). -/
def State.ownerTold (s : State) (op : Operation) (outcome : RowOutcome) (kept settled : Bool) : State :=
  (s.drainCounted op.countedBy op.extent).handOver op.owner op.row outcome op.plan.copy op.tallies kept settled

/-- From `s` to `t` nothing has changed but the jobs, the requests and the mark of a publish asked for. -/
def State.MovesOwners (s t : State) : Prop :=
  t = { s with
    jobs := t.jobs, requests := t.requests, board := { s.board with publishAsked := t.board.publishAsked } }

theorem State.MovesOwners.trans {s t u : State} (a : s.MovesOwners t) (b : t.MovesOwners u) : s.MovesOwners u := by
  unfold State.MovesOwners at *
  rw [a] at b
  exact b

namespace State.MovesOwners

variable {s t : State} (h : s.MovesOwners t)
include h

theorem ports : t.ports = s.ports := by rw [h]
theorem extents : t.extents = s.extents := by rw [h]
theorem rows : t.rows = s.rows := by rw [h]
theorem solver : t.solver = s.solver := by rw [h]
theorem holds : t.holds = s.holds := by rw [h]
theorem losses : t.losses = s.losses := by rw [h]
theorem settings : t.settings = s.settings := by rw [h]
theorem time : t.time = s.time := by rw [h]
theorem guard : t.guard = s.guard := by rw [h]
theorem pending : t.pending = s.pending := by rw [h]
theorem board : t.board = { s.board with publishAsked := t.board.publishAsked } := congrArg State.board h
theorem context (c : ContextId) : t.context c = s.context c := by rw [State.context, h.rows, State.context]

end State.MovesOwners

theorem State.movesOwners_askPublishIf (s : State) (b : Bool) : s.MovesOwners (s.askPublishIf b) := by
  cases b <;> rfl

theorem State.movesOwners_drainCounted (s : State) (counted : Option JobId) (e : ExtentId) :
    s.MovesOwners (s.drainCounted counted e) := by
  unfold State.drainCounted
  split
  · rfl
  · split <;> rfl

theorem State.movesOwners_jobTakesRow (s : State) (j : JobId) (row : Nat) (outcome : RowOutcome) (copied : Bool)
    (t : RowTallies) : s.MovesOwners (s.jobTakesRow j row outcome copied t) := by
  have taken (f : Job → Job) : s.MovesOwners (s.withJob j f) := rfl
  unfold State.jobTakesRow
  split
  · cases outcome with
    | done | doneWithLoss | recovered => exact (taken _).trans (State.movesOwners_askPublishIf _ _)
    | extentLost | targetLost | bufferFault | skipped => exact taken _
  · rfl

theorem State.movesOwners_ownerTold (s : State) (op : Operation) (outcome : RowOutcome) (kept settled : Bool) :
    s.MovesOwners (s.ownerTold op outcome kept settled) := by
  refine (s.movesOwners_drainCounted op.countedBy op.extent).trans ?_
  unfold State.ownerTold
  cases op.owner with
  | job j => exact State.movesOwners_jobTakesRow _ _ _ _ _ _
  | slip i piece => rfl

theorem State.job_drainCounted (s : State) (counted : Option JobId) (e : ExtentId) (k : JobId) :
    (s.drainCounted counted e).job k =
      if counted = some k ∧ (s.job k).state = .starting ∧ (s.job k).extent = e then
        { s.job k with drainCount := (s.job k).drainCount - 1 }
      else s.job k := by
  unfold State.drainCounted
  cases counted with
  | none => simp
  | some j =>
    by_cases same : j = k
    · subst same
      by_cases drains : (s.job j).state = .starting ∧ (s.job j).extent = e <;> simp [drains]
    · rw [if_neg (by simp [same])]
      dsimp only
      split
      · rw [State.job_withJob, if_neg same]
      · rfl

theorem State.askPublishIf_job (s : State) (b : Bool) (k : JobId) : (s.askPublishIf b).job k = s.job k := by
  cases b <;> rfl

/-- A job takes a row that it has in flight, and no other. -/
theorem State.job_jobTakesRow (s : State) (j : JobId) (row : Nat) (outcome : RowOutcome) (copied : Bool)
    (t : RowTallies) (k : JobId) :
    (s.jobTakesRow j row outcome copied t).job k =
      if j = k ∧ row ∈ (s.job k).inFlight then
        if outcome.completed then (s.job k).takeCompletion row copied t else (s.job k).takeFailure row t
      else s.job k := by
  unfold State.jobTakesRow
  by_cases flies : row ∈ (s.job j).inFlight
  · rw [if_pos (by simpa using flies)]
    by_cases same : j = k
    · subst same
      rw [if_pos ⟨rfl, flies⟩]
      cases outcome with
      | done | doneWithLoss | recovered => exact (State.askPublishIf_job _ _ _).trans (s.job_withJob_self _ _)
      | extentLost | targetLost | bufferFault | skipped => exact s.job_withJob_self _ _
    · have other (f : Job → Job) : (s.withJob j f).job k = s.job k := by rw [State.job_withJob, if_neg same]
      rw [if_neg (by simp [same])]
      cases outcome with
      | done | doneWithLoss | recovered => exact (State.askPublishIf_job _ _ _).trans (other _)
      | extentLost | targetLost | bufferFault | skipped => exact other _
  · rw [if_neg (by simpa using flies), if_neg]
    rintro ⟨rfl, mem⟩
    exact flies mem

/-- Every job record once the owner has been told. -/
theorem State.job_ownerTold (s : State) (op : Operation) (outcome : RowOutcome) (kept settled : Bool) (k : JobId) :
    (s.ownerTold op outcome kept settled).job k = s.jobAfter k op outcome := by
  unfold State.ownerTold State.handOver State.jobAfter
  cases op.owner with
  | job j => simp only [State.job_jobTakesRow, State.job_drainCounted, RowOwner.job.injEq]
  | slip i piece =>
    simp only [reduceCtorEq, false_and, if_false]
    exact s.job_drainCounted _ _ k

theorem State.requests_jobTakesRow (s : State) (j : JobId) (row : Nat) (outcome : RowOutcome) (copied : Bool)
    (t : RowTallies) : (s.jobTakesRow j row outcome copied t).requests = s.requests := by
  unfold State.jobTakesRow
  split
  · cases outcome with
    | done | doneWithLoss | recovered => dsimp only; cases Job.wantsCheckpoint _ <;> rfl
    | extentLost | targetLost | bufferFault | skipped => rfl
  · rfl

theorem State.requests_drainCounted (s : State) (counted : Option JobId) (e : ExtentId) :
    (s.drainCounted counted e).requests = s.requests := by
  unfold State.drainCounted
  split
  · rfl
  · split <;> rfl

theorem State.requests_ownerTold_of_job (s : State) {op : Operation} (outcome : RowOutcome) (kept settled : Bool) {j : JobId}
    (owner : op.owner = .job j) : (s.ownerTold op outcome kept settled).requests = s.requests := by
  rw [State.ownerTold, owner]
  exact (State.requests_jobTakesRow _ _ _ _ _ _).trans (s.requests_drainCounted _ _)

theorem State.requests_ownerTold_of_slip (s : State) {op : Operation} (outcome : RowOutcome) (kept settled : Bool)
    {i : SlipId} {piece : Nat} (owner : op.owner = .slip i piece) :
    (s.ownerTold op outcome kept settled).requests = s.requests.map fun r =>
      if r.slip = i then (r.takeRow op.row outcome op.tallies kept settled).testPieces s.board.engine else r := by
  rw [State.ownerTold, owner]
  show List.map _ (s.drainCounted _ _).requests = _
  rw [s.movesOwners_drainCounted op.countedBy op.extent, State.requests_drainCounted]

/-- A state whose requests and jobs are those of the owner told, the published frontiers apart, is one in which the owner
has taken the outcome. -/
theorem State.ownerTakes_of {s t : State} {op : Operation} {outcome : RowOutcome} {kept settled : Bool}
    (requests : t.requests = (s.ownerTold op outcome kept settled).requests)
    (jobs : ∀ k, (t.job k).agrees ((s.ownerTold op outcome kept settled).job k)) :
    s.OwnerTakes t op outcome kept settled := by
  refine ⟨fun i piece owner => ?_, fun j owner => ?_, fun k => ?_⟩
  · rw [requests, s.requests_ownerTold_of_slip outcome kept settled owner]
  · rw [requests, s.requests_ownerTold_of_job outcome kept settled owner]
  · rw [← s.job_ownerTold op outcome kept settled k]
    exact jobs k

/-! ## The publish of an end -/

theorem Job.publishedFrontier_takeCompletion (row : Nat) (copied : Bool) (t : RowTallies) (j : Job) :
    (j.takeCompletion row copied t).publishedFrontier = j.publishedFrontier := by
  unfold Job.takeCompletion
  dsimp only
  split
  · rfl
  · split <;> rfl

theorem State.published_ownerTold (s : State) (op : Operation) (outcome : RowOutcome) (kept settled : Bool) (k : JobId) :
    ((s.ownerTold op outcome kept settled).job k).publishedFrontier = (s.job k).publishedFrontier := by
  have counted : ((s.drainCounted op.countedBy op.extent).job k).publishedFrontier = (s.job k).publishedFrontier := by
    rw [State.job_drainCounted]
    split <;> rfl
  refine Eq.trans ?_ counted
  unfold State.ownerTold
  cases op.owner with
  | slip i piece => rfl
  | job j =>
    rw [State.handOver, State.job_jobTakesRow]
    split
    · split
      · exact Job.publishedFrontier_takeCompletion _ _ _ _
      · rfl
    · rfl

theorem State.board_drainCounted (s : State) (counted : Option JobId) (e : ExtentId) :
    (s.drainCounted counted e).board = s.board := by
  unfold State.drainCounted
  split
  · rfl
  · split <;> rfl

/-- An operation that did not complete, or that a request owns, asks for no publish. -/
theorem State.board_ownerTold (s : State) {op : Operation} {outcome : RowOutcome} (kept settled : Bool)
    (quiet : outcome.completed = false ∨ ∃ i piece, op.owner = .slip i piece) :
    (s.ownerTold op outcome kept settled).board = s.board := by
  unfold State.ownerTold
  refine Eq.trans ?_ (s.board_drainCounted op.countedBy op.extent)
  cases owner : op.owner with
  | slip i piece => rfl
  | job j =>
    rcases quiet with failure | ⟨i, piece, slip⟩
    · refine (congrArg State.board (State.jobTakesRow_of_failure _ j op.row failure _ _)).trans ?_
      split <;> rfl
    · rw [owner] at slip
      cases slip

/-! ## The end of an operation -/

/-- What the end of an operation in context `c` does not look at apart, `u` may differ from `s` in: the operation itself,
the grants that its leaving takes back, and the lists and the publish of its last step. -/
structure State.EndsAlike (s u : State) (c : ContextId) : Prop where
  jobs : u.jobs = s.jobs
  requests : u.requests = s.requests
  contexts : ∀ d, d ≠ c → u.context d = s.context d
  waits : u.rows.contextWait = s.rows.contextWait
  frames : u.rows.frameWait = s.rows.frameWait
  holds : u.holds.leave c = s.holds.leave c
  solver : u.solver = s.solver
  ports : u.ports = s.ports
  extents : u.extents = s.extents
  settings : u.settings = s.settings
  time : u.time = s.time
  guard : u.guard = s.guard
  pending : u.pending = s.pending
  board : u.board = { s.board with publishAsked := u.board.publishAsked }

theorem State.EndsAlike.refl (s : State) (c : ContextId) : s.EndsAlike s c :=
  ⟨rfl, rfl, fun _ _ => rfl, rfl, rfl, rfl, rfl, rfl, rfl, rfl, rfl, rfl, rfl, rfl⟩

theorem State.endOperationWith_eq {s : State} {c : ContextId} {op : Operation} (held : s.context c = some op)
    (outcome : RowOutcome) (kept settled : Bool) :
    s.endOperationWith c outcome kept settled = (s.ownerTold op outcome kept settled).freeContext c := by
  unfold State.endOperationWith
  rw [held]
  rfl

/-- How the owner is told depends on the jobs, the requests and the engine state alone. -/
theorem State.EndsAlike.ownerTold {s u : State} {c : ContextId} (h : s.EndsAlike u c) (op : Operation)
    (outcome : RowOutcome) (kept settled : Bool) :
    (u.ownerTold op outcome kept settled).requests = (s.ownerTold op outcome kept settled).requests ∧
      ∀ k, (u.ownerTold op outcome kept settled).job k = (s.ownerTold op outcome kept settled).job k := by
  constructor
  · cases owner : op.owner with
    | job j => rw [u.requests_ownerTold_of_job _ _ _ owner, s.requests_ownerTold_of_job _ _ _ owner, h.requests]
    | slip i piece =>
      rw [u.requests_ownerTold_of_slip _ _ _ owner, s.requests_ownerTold_of_slip _ _ _ owner, h.requests, h.board]
  · intro k
    rw [State.job_ownerTold, State.job_ownerTold, State.jobAfter, State.jobAfter, State.job, State.job, h.jobs]

theorem State.operationEnded {s u : State} {c : ContextId} {op : Operation} (held : u.context c = some op)
    (h : s.EndsAlike u c) (outcome : RowOutcome) (kept settled : Bool) :
    s.OperationEnded (u.endOperationWith c outcome kept settled).settle c op outcome kept settled := by
  obtain ⟨requests, jobs⟩ := h.ownerTold op outcome kept settled
  have told := u.movesOwners_ownerTold op outcome kept settled
  rw [State.endOperationWith_eq held]
  generalize u.ownerTold op outcome kept settled = v at *
  have board : v.board = { s.board with publishAsked := v.board.publishAsked } := by
    have := told.board
    rwa [h.board] at this
  have rest : ({ s with losses := v.losses } : State).RestKept (v.freeContext c) := by
    refine ⟨rfl, told.settings.trans h.settings, told.time.trans h.time, told.guard.trans h.guard,
      told.pending.trans h.pending, ?_⟩
    show v.board = { s.board with answers := v.board.answers, publishAsked := v.board.publishAsked }
    rw [board]
  obtain ⟨-, pacing, pending, registers, sweep⟩ := rest.settle
  have writing : v.board.writing = s.board.writing := by rw [board]
  have answers : v.board.answers = s.board.answers := by rw [board]
  have context (d : ContextId) : (v.freeContext c).context d = if c = d then none else u.context d := by
    rw [State.context_freeContext, told.context]
  refine ⟨State.ownerTakes_of ?_ fun k => ?_, ?_, fun d other => ?_, ?_, ?_, ?_, ?_, ?_, ?_, pacing, pending, registers,
    sweep, ?_, State.answerBegins_settle writing⟩
  · exact (State.settle_requests _).trans requests
  · rw [← jobs k]
    exact State.settle_job_agrees _ k
  · rw [State.settle_context, context, if_pos rfl]
  · rw [State.settle_context, context, if_neg (Ne.symm other), h.contexts d other]
  · rw [State.settle_rows]
    exact (congrArg RowEngine.contextWait told.rows).trans h.waits
  · rw [State.settle_rows, ← filter_bne, ← h.frames, ← told.rows]
    rfl
  · rw [State.settle_holds, ← h.holds, ← told.holds]
    rfl
  · rw [State.settle_solver, ← filter_bne, ← h.solver, ← told.solver]
    rfl
  · exact (State.settle_ports _).trans (told.ports.trans h.ports)
  · exact (State.settle_extents _).trans (told.extents.trans h.extents)
  · rw [State.Answers, State.settle_answers, List.append_nil]
    exact answers

theorem State.losses_endOperationWith (s : State) (c : ContextId) (outcome : RowOutcome) (kept settled : Bool) :
    (s.endOperationWith c outcome kept settled).losses = s.losses :=
  (s.restKept_endOperationWith c outcome kept settled).losses

theorem State.unsettled_endOperationWith (s : State) (c : ContextId) (outcome : RowOutcome) (kept settled : Bool) :
    (s.endOperationWith c outcome kept settled).rows.unsettled = s.rows.unsettled := by
  cases held : s.context c with
  | none => simp only [State.endOperationWith, held]
  | some op =>
    rw [State.endOperationWith_eq held]
    show (s.ownerTold op outcome kept settled).rows.unsettled = _
    rw [(s.movesOwners_ownerTold op outcome kept settled).rows]

/-- An operation that ends without completing. -/
theorem State.operationFails {s u : State} {c : ContextId} {op : Operation} (rest : s.AtRest)
    (held : u.context c = some op) (h : s.EndsAlike u c) {outcome : RowOutcome} (failure : outcome.completed = false)
    (losses : u.losses = s.losses) (unsettled : u.rows.unsettled = s.rows.unsettled)
    (asked : u.board.publishAsked = s.board.publishAsked) :
    s.OperationFails (u.endOperation c outcome).settle c op outcome := by
  have board : (u.endOperation c outcome).board = s.board := by
    rw [State.endOperation, State.endOperationWith_eq held]
    refine (u.board_ownerTold false false (.inl failure)).trans ?_
    rw [h.board, asked]
  refine ⟨State.operationEnded held h outcome false false, ?_, ?_, State.silent_settle ?_ ?_ ?_ fun j => ?_⟩
  · exact ((State.settle_losses _).trans (u.losses_endOperationWith c outcome false false)).trans losses
  · rw [State.settle_rows]
    exact (u.unsettled_endOperationWith c outcome false false).trans unsettled
  · rw [board]
    exact rest
  · rw [board]
  · rw [board]
  · rw [State.endOperation, State.endOperationWith_eq held]
    refine (u.published_ownerTold op outcome false false j).trans ?_
    rw [State.job, h.jobs, State.job]

/-- An operation ends where it stands without completing. -/
theorem State.operationFails_here {s : State} {c : ContextId} {op : Operation} (rest : s.AtRest)
    (held : s.context c = some op) {outcome : RowOutcome} (failure : outcome.completed = false) :
    s.OperationFails (s.endOperation c outcome).settle c op outcome :=
  State.operationFails rest held (.refl s c) failure rfl rfl rfl

end Sys2Proof.Machine
end

section
/-! SUPPORT. The reads and writes that a row operation submits, its entry into PLACE and the plan it takes (R64 to R66, R69,
R70), in the terms of Safety. -/

namespace Sys2Proof.Machine

/-! ## What an update leaves -/

@[simp] theorem State.port_withOperation (s : State) (c : ContextId) (f : Operation → Operation) (p : PortId) :
    (s.withOperation c f).port p = s.port p := rfl
@[simp] theorem State.extent_withOperation (s : State) (c : ContextId) (f : Operation → Operation) (x : ExtentId) :
    (s.withOperation c f).extent x = s.extent x := rfl
@[simp] theorem State.writeRequest_withOperation (s : State) (c : ContextId) (f : Operation → Operation) :
    (s.withOperation c f).writeRequest = s.writeRequest := rfl

/-! ## Reads submitted (R65) -/

/-- What the submission of some reads changes: the ports' pending lists, and in the operation the reads that fail at
once. -/
structure State.ReadsPending (s : State) (c : ContextId) (op x : Operation) (reads : List PlanRead) (t : State) :
    Prop where
  moves : s.MovesPorts t
  board : t.board = s.board
  submitted : s.ReadsSubmitted t c op reads
  owner : t.context c = some { x with results := x.results ++ s.readFailures reads }
  contexts : ∀ d, d ≠ c → t.context d = s.context d

theorem MemberState.not_carries_iff {m : MemberState} : m.carries = false ↔ ¬ (m = .online ∨ m = .target) := by
  rw [← MemberState.carries_iff, Bool.not_eq_true]

theorem RowKind.requestClass_eq (k : RowKind) :
    k.requestClass = if k = .rebuildRow then .rebuild else .foreground := by cases k <;> rfl

theorem State.readsPending_nil {s : State} {c : ContextId} (op : Operation) {x : Operation}
    (held : s.context c = some x) : s.ReadsPending c op x [] s :=
  ⟨.refl s, rfl, fun p => by simp, by simpa [State.readFailures] using held, fun _ _ => rfl⟩

/-- One read submitted. -/
theorem State.readsPending_submit {s : State} {c : ContextId} (op : Operation) {x : Operation}
    (held : s.context c = some x) (r : PlanRead) :
    s.ReadsPending c op x [r] (s.submit r.port (s.readRequest c op r)) := by
  by_cases serves : (s.port r.port).memberState = .online ∨ (s.port r.port).memberState = .target
  · have carries := MemberState.carries_iff.mpr serves
    rw [State.submit_of_serves _ serves]
    refine ⟨rfl, rfl, fun p => ?_, ?_, fun _ _ => rfl⟩
    · rw [State.port_withPort]
      by_cases same : r.port = p
      · subst same
        simp [carries, State.readRequest, RowKind.requestClass_eq]
      · simp [same]
    · have failures : s.readFailures [r] = [] := by simp [State.readFailures, carries]
      rw [failures, List.append_nil]
      exact held
  · have bare := MemberState.not_carries_iff.mpr serves
    rw [State.submit_of_bare _ serves]
    refine ⟨State.movesPorts_deliverFailure _ _ _ _, State.deliverFailure_board _ _ _ _, fun p => ?_, ?_, fun d other => ?_⟩
    · rw [State.port, State.deliverFailure_ports, ← State.port]
      by_cases same : r.port = p
      · subst same
        simp [bare]
      · simp [same]
    · rw [State.context_deliverFailure, held]
      simp [Operation.failedRequest, State.readRequest, State.readFailures, bare]
    · have owner : (s.readRequest c op r).owner ≠ some d := fun h => other (Option.some.inj h).symm
      rw [State.context_deliverFailure, Operation.failedRequest_of_owner_ne owner, Option.map_id_fun, id]

/-- Reads submitted one after another. -/
theorem State.ReadsPending.append {s t u : State} {c : ContextId} {op x : Operation} {reads more : List PlanRead}
    (a : s.ReadsPending c op x reads t)
    (b : t.ReadsPending c op { x with results := x.results ++ s.readFailures reads } more u) :
    s.ReadsPending c op x (reads ++ more) u := by
  have member (p : PortId) : (t.port p).memberState = (s.port p).memberState := by rw [a.submitted p]
  have failures : t.readFailures more = s.readFailures more := by simp only [State.readFailures, member]
  refine ⟨a.moves.trans b.moves, b.board.trans a.board, fun p => ?_, ?_, fun d other =>
    (b.contexts d other).trans (a.contexts d other)⟩
  · rw [b.submitted p, a.submitted p, a.moves.extent]
    simp only [List.filter_append, List.map_append, List.append_assoc]
  · rw [b.owner, failures]
    simp only [State.readFailures, List.filter_append, List.map_append, List.append_assoc]

theorem State.readsPending {s : State} {c : ContextId} (op : Operation) (reads : List PlanRead) {x : Operation}
    (held : s.context c = some x) : s.ReadsPending c op x reads (s.submitReads c op reads) := by
  induction reads generalizing s x with
  | nil => exact State.readsPending_nil op held
  | cons r rest ih =>
    have first := State.readsPending_submit op held r
    exact first.append (ih first.owner)

/-! ## Where writes go (R64, R70) -/

theorem State.onlinePort_eq_some {s : State} {op : Operation} {p : Nat} {q : PortId} :
    s.onlinePort op p = some q ↔ (s.extent op.extent).targets[p]? = some q ∧ (s.port q).memberState = .online := by
  unfold State.onlinePort State.listedPort
  cases (s.extent op.extent).targets[p]? with
  | none => simp
  | some x =>
    simp only [Option.some.injEq]
    constructor
    · intro h
      split at h
      · cases h
        exact ⟨rfl, ‹_›⟩
      · cases h
    · rintro ⟨rfl, online⟩
      exact if_pos online

/-- The members of a list that is an option's. -/
theorem mem_map_toList {α β : Type} {o : Option α} {f : α → β} {y : β} : y ∈ o.toList.map f ↔ ∃ x, o = some x ∧ y = f x := by
  cases o <;> simp

/-- Where an operation's writes go. -/
theorem State.mem_destinations {s : State} {op : Operation} {d : PortId × Nat × List Nat} :
    d ∈ s.destinations op ↔ d.2.1 < (s.extent op.extent).memberCount ∧ d.2.2 ≠ [] ∧
      ((s.onlinePort op d.2.1 = some d.1 ∧ d.2.2 = op.listedOffsets (s.extent op.extent) d.1 d.2.1) ∨
        (s.targetPort op d.2.1 = some d.1 ∧ d.2.2 = op.targetOffsets (s.extent op.extent) d.2.1)) := by
  obtain ⟨q, p, offsets⟩ := d
  simp only [State.destinations, List.mem_filter, List.mem_flatMap, Extent.positions, List.mem_range, List.mem_append,
    mem_map_toList, Prod.mk.injEq, Bool.not_eq_true', List.isEmpty_eq_false_iff]
  constructor
  · rintro ⟨⟨p', lt, ⟨q', held, rfl, rfl, rfl⟩ | ⟨q', held, rfl, rfl, rfl⟩⟩, filled⟩
    · exact ⟨lt, filled, .inl ⟨held, rfl⟩⟩
    · exact ⟨lt, filled, .inr ⟨held, rfl⟩⟩
  · rintro ⟨lt, filled, ⟨held, rfl⟩ | ⟨held, rfl⟩⟩
    · exact ⟨⟨p, lt, .inl ⟨q, held, rfl, rfl, rfl⟩⟩, filled⟩
    · exact ⟨⟨p, lt, .inr ⟨q, held, rfl, rfl, rfl⟩⟩, filled⟩

theorem State.ownTarget_eq_some {s : State} {op : Operation} {p : Nat} {q : PortId} : s.ownTarget op p = some q ↔
    (s.port q).memberState = .target ∧ ∃ j, op.owner = .job j ∧ (s.job j).targetOf p = some q := by
  unfold State.ownTarget Operation.ownJob
  cases op.owner with
  | slip i piece => simp
  | job j =>
    simp only [RowOwner.job.injEq, exists_eq_left']
    cases (s.job j).targetOf p with
    | none => simp
    | some x =>
      by_cases target : (s.port x).memberState = .target
      · simp only [target, if_true, Option.some.injEq]
        exact ⟨fun same => ⟨same ▸ target, same⟩, fun h => h.2⟩
      · simp only [target, if_false, Option.some.injEq, reduceCtorEq, false_iff]
        rintro ⟨held, rfl⟩
        exact target held

theorem State.decidedTarget_eq_some {s : State} {op : Operation} {p : Nat} {q : PortId} : s.decidedTarget op p = some q ↔
    (s.port q).memberState = .target ∧ op.decided p = some q ∧
      ∃ j, s.jobOn op.extent = some j ∧ (s.job j).targetOf p = some q := by
  unfold State.decidedTarget
  cases op.decided p with
  | none => simp
  | some x =>
    cases s.jobOn op.extent with
    | none => simp
    | some j =>
      simp only [Option.some.injEq, exists_eq_left']
      split
      · rename_i held
        obtain ⟨target, has⟩ := held
        simp only [Option.some.injEq]
        exact ⟨fun same => ⟨same ▸ target, same, same ▸ has⟩, fun h => h.2.1⟩
      · rename_i not
        simp only [reduceCtorEq, false_iff]
        rintro ⟨target, rfl, has⟩
        exact not ⟨target, has⟩

/-- The job's target that receives a position is a TARGET. -/
theorem State.target_of_targetPort {s : State} {op : Operation} {p : Nat} {q : PortId} (h : s.targetPort op p = some q) :
    (s.port q).memberState = .target := by
  unfold State.targetPort at h
  cases kind : op.kind <;> rw [kind] at h
  · exact (State.ownTarget_eq_some.mp h).1
  · cases h
  · exact (State.decidedTarget_eq_some.mp h).1
  · exact (State.decidedTarget_eq_some.mp h).1

/-- Writes go to ONLINE and TARGET ports. -/
theorem State.serves_of_mem_destinations {s : State} {op : Operation} {d : PortId × Nat × List Nat}
    (h : d ∈ s.destinations op) : (s.port d.1).memberState = .online ∨ (s.port d.1).memberState = .target := by
  obtain ⟨-, -, ⟨held, -⟩ | ⟨held, -⟩⟩ := State.mem_destinations.mp h
  · exact .inl (State.onlinePort_eq_some.mp held).2
  · exact .inr (State.target_of_targetPort held)

/-! ## Writes submitted (R70) -/

theorem runsByMark_ne_nil (repairs : List Nat) {l : List Nat} (h : l ≠ []) : runsByMark repairs l ≠ [] := by
  cases l with
  | nil => exact absurd rfl h
  | cons t rest =>
    unfold runsByMark
    cases runsByMark repairs rest with
    | nil => exact List.cons_ne_nil _ _
    | cons r more =>
      dsimp only
      split <;> exact List.cons_ne_nil _ _

/-- A destination with the runs that are written to it. -/
def Operation.runsTo (op : Operation) (d : PortId × Nat × List Nat) : PortId × Nat × List WriteRun :=
  (d.1, d.2.1, op.runsFor d.1 d.2.1 d.2.2)

/-- What the writes to some ports change once they have begun: the ports' pending lists, and in the operation the runs left
and the written mark. -/
structure State.WritesPending (s : State) (c : ContextId) (op x : Operation) (writes : List (PortId × Nat × List WriteRun))
    (t : State) : Prop where
  moves : s.MovesPorts t
  board : t.board = s.board
  ports : ∀ p, t.port p = { s.port p with waiting := (s.port p).waiting ++
    (writes.filter fun d => d.1 == p).flatMap fun d => d.2.2.head?.toList.map (s.writeRequest c op) }
  owner : t.context c = some { x with
    writesLeft := x.writesLeft ++ writes.map fun d => { port := d.1, runs := d.2.2.tail }
    written := x.written || writes.any fun d => s.listedPort op.extent d.2.1 == some d.1 }
  contexts : ∀ d, d ≠ c → t.context d = s.context d

/-- The writes to one port begun. -/
theorem State.writesPending_beginWrites {s : State} {c : ContextId} (op : Operation) {x : Operation}
    (held : s.context c = some x) {d : PortId × Nat × List Nat} (filled : d.2.2 ≠ [])
    (serves : (s.port d.1).memberState = .online ∨ (s.port d.1).memberState = .target) :
    s.WritesPending c op x [op.runsTo d] (s.beginWrites c op d) := by
  unfold State.beginWrites Operation.runsTo
  cases runs : op.runsFor d.1 d.2.1 d.2.2 with
  | nil => exact absurd (List.map_eq_nil_iff.mp runs) (runsByMark_ne_nil _ filled)
  | cons run rest =>
    dsimp only
    rw [State.submit_of_serves (s := s.withOperation c _) _ serves]
    refine ⟨rfl, rfl, fun p => ?_, ?_, fun e other => ?_⟩
    · rw [State.port_withPort]
      by_cases same : d.1 = p
      · subst same
        simp
      · simp [same]
    · refine (s.context_withOperation_self c _).trans ?_
      rw [held]
      simp [beq_eq_decide]
    · exact (s.context_withOperation c e _).trans (if_neg (Ne.symm other))

theorem State.writesPending_nil {s : State} {c : ContextId} (op : Operation) {x : Operation}
    (held : s.context c = some x) : s.WritesPending c op x [] s :=
  ⟨.refl s, rfl, fun p => by simp, by simpa using held, fun _ _ => rfl⟩

theorem State.MovesPorts.listedPort {s t : State} (h : s.MovesPorts t) : t.listedPort = s.listedPort := by
  funext e p
  simp only [State.listedPort, h.extent]

theorem State.MovesPorts.writeRequest {s t : State} (h : s.MovesPorts t) : t.writeRequest = s.writeRequest := by
  funext c op w
  simp only [State.writeRequest, h.extent]

/-- Writes begun one after another. -/
theorem State.WritesPending.append {s t u : State} {c : ContextId} {op x : Operation}
    {writes more : List (PortId × Nat × List WriteRun)} (a : s.WritesPending c op x writes t) {y : Operation}
    (after : t.context c = some y) (b : t.WritesPending c op y more u) : s.WritesPending c op x (writes ++ more) u := by
  have same : y = _ := Option.some.inj (after.symm.trans a.owner)
  refine ⟨a.moves.trans b.moves, b.board.trans a.board, fun p => ?_, ?_, fun d other =>
    (b.contexts d other).trans (a.contexts d other)⟩
  · rw [b.ports p, a.ports p, a.moves.writeRequest]
    simp only [List.filter_append, List.flatMap_append, List.append_assoc]
  · rw [b.owner, same, a.moves.listedPort]
    simp only [List.map_append, List.any_append, List.append_assoc, Bool.or_assoc]

theorem State.writesPending {c : ContextId} (op : Operation) (l : List (PortId × Nat × List Nat)) {s : State}
    {x : Operation} (held : s.context c = some x) (filled : ∀ d ∈ l, d.2.2 ≠ [])
    (serves : ∀ d ∈ l, (s.port d.1).memberState = .online ∨ (s.port d.1).memberState = .target) :
    s.WritesPending c op x (l.map op.runsTo) (l.foldl (fun s d => s.beginWrites c op d) s) := by
  induction l generalizing s x with
  | nil => exact State.writesPending_nil op held
  | cons d rest ih =>
    have first := State.writesPending_beginWrites op held (filled d List.mem_cons_self) (serves d List.mem_cons_self)
    refine first.append first.owner (ih first.owner (fun d mem => filled d (List.mem_cons_of_mem _ mem)) fun d mem => ?_)
    rw [first.ports d.1]
    exact serves d (List.mem_cons_of_mem _ mem)

/-- The writes of PLACE submitted. -/
theorem State.writesPending_submitWrites {s : State} {c : ContextId} {op : Operation} (held : s.context c = some op) :
    s.WritesPending c op op (s.writeRuns op) (s.submitWrites c) := by
  unfold State.submitWrites
  rw [held]
  exact State.writesPending op _ held (fun d mem => (State.mem_destinations.mp (List.mem_of_mem_filter mem)).2.1)
    fun d mem => State.serves_of_mem_destinations (List.mem_of_mem_filter mem)

theorem State.WritesPending.submitted {s t : State} {c : ContextId} {op : Operation}
    (h : s.WritesPending c op op (s.writeRuns op) t) :
    ∃ op', t.context c = some op' ∧ s.WritesSubmitted t c op op' := ⟨_, h.owner, rfl, h.ports⟩

end Sys2Proof.Machine
end

section
/-! SUPPORT. The entry into PLACE and the plan that a row operation takes (R64, R66, R69, R70), in the terms of Safety. -/

namespace Sys2Proof.Machine

/-! ## PLACE entered (R69, R70, R76) -/

/-- What the entry into PLACE of the operation `x` of context `c` changes. -/
structure State.Placed (s : State) (c : ContextId) (x : Operation) (t : State) : Prop where
  moves : s.MovesPorts t
  board : t.board = s.board
  entered : ∃ op', t.context c = some op' ∧ s.PlaceEntered t c x op'
  contexts : ∀ d, d ≠ c → t.context d = s.context d

theorem State.context_withOperation_of_held {s : State} {c : ContextId} {op : Operation} (held : s.context c = some op)
    (f : Operation → Operation) : (s.withOperation c f).context c = some (f op) := by
  rw [State.context_withOperation_self, held]
  rfl

theorem State.context_withOperation_other {s : State} {c d : ContextId} (other : d ≠ c) (f : Operation → Operation) :
    (s.withOperation c f).context d = s.context d := by
  rw [State.context_withOperation, if_neg (Ne.symm other)]

theorem State.placed {s : State} {c : ContextId} {x : Operation} (held : s.context c = some x) :
    s.Placed c x (s.enterPlace c) := by
  have inPlace := State.context_withOperation_of_held held fun x => { x with phase := .place }
  unfold State.enterPlace
  rw [held]
  dsimp only
  by_cases kind : x.kind = .readRow
  · rw [if_pos kind]
    refine ⟨rfl, rfl, ⟨_, State.context_withOperation_of_held inPlace _, fun _ => ⟨rfl, rfl⟩, fun h => absurd kind h⟩,
      fun d other => ?_⟩
    rw [State.context_withOperation_other other, State.context_withOperation_other other]
  · rw [if_neg kind]
    have writes := State.writesPending_submitWrites inPlace
    obtain ⟨op', after, submitted⟩ := writes.submitted
    refine ⟨(s.movesPorts_withOperation c _).trans writes.moves, writes.board,
      ⟨op', after, fun h => absurd h kind, fun _ => submitted⟩, fun d other => ?_⟩
    rw [writes.contexts d other, State.context_withOperation_other other]

/-- The end of the step changes nothing of the entry into PLACE. -/
theorem State.PlaceEntered.settle {s t : State} {c : ContextId} {x op' : Operation} (h : s.PlaceEntered t c x op') :
    s.PlaceEntered t.settle c x op' := by
  obtain ⟨reads, writes⟩ := h
  refine ⟨fun kind => ?_, fun kind => ?_⟩
  · obtain ⟨same, ports⟩ := reads kind
    exact ⟨same, t.settle_ports.trans ports⟩
  · obtain ⟨same, ports⟩ := writes kind
    exact ⟨same, fun p => (t.settle_port p).trans (ports p)⟩

/-! ## What planning looks at -/

/-- From `s` to `u` nothing has changed but the operation of context `c` and the grants that its leaving takes back. -/
structure State.PlansAlike (s u : State) (c : ContextId) : Prop where
  same : u = { s with holds := u.holds, rows := { s.rows with contexts := u.rows.contexts } }
  contexts : ∀ d, d ≠ c → u.context d = s.context d
  leave : u.holds.leave c = s.holds.leave c

theorem State.PlansAlike.refl (s : State) (c : ContextId) : s.PlansAlike s c := ⟨rfl, fun _ _ => rfl, rfl⟩

theorem State.plansAlike_withOperation (s : State) (c : ContextId) (f : Operation → Operation) :
    s.PlansAlike (s.withOperation c f) c := ⟨rfl, fun _ other => State.context_withOperation_other other f, rfl⟩

section
variable {s u : State} {c : ContextId} (h : s.PlansAlike u c)
include h

theorem State.PlansAlike.endsAlike : s.EndsAlike u c where
  jobs := by rw [h.same]
  requests := by rw [h.same]
  contexts := h.contexts
  waits := by rw [h.same]
  frames := by rw [h.same]
  holds := h.leave
  solver := by rw [h.same]
  ports := by rw [h.same]
  extents := by rw [h.same]
  settings := by rw [h.same]
  time := by rw [h.same]
  guard := by rw [h.same]
  pending := by rw [h.same]
  board := by rw [h.same]

theorem State.PlansAlike.makePlan : u.makePlan = s.makePlan := by
  rw [h.same]
  rfl

theorem State.PlansAlike.bufferPlaces : u.bufferPlaces = s.bufferPlaces := by
  rw [h.same]
  rfl

theorem State.PlansAlike.extent : u.extent = s.extent := by
  rw [h.same]
  rfl

theorem State.PlansAlike.readFailures : u.readFailures = s.readFailures := by
  rw [h.same]
  rfl

theorem State.PlansAlike.readsSubmitted : u.ReadsSubmitted = s.ReadsSubmitted := by
  rw [h.same]
  rfl

theorem State.PlansAlike.placeEntered : u.PlaceEntered = s.PlaceEntered := by
  rw [h.same]
  rfl

end

/-! ## The plan taken (R64, R66) -/

/-- What a step that neither ends an operation nor publishes keeps of the world outside the row engine. -/
structure State.QuietStep (s t : State) : Prop where
  extents : t.extents = s.extents
  losses : t.losses = s.losses
  pacing : s.SamePacing t
  pending : t.pending = s.pending
  registers : s.SameRegisters t
  sweep : s.SameSweep t
  answers : s.Answers t []
  silent : s.Silent t
  begins : s.AnswerBegins t

theorem State.quietStep_settle {s u : State} (rest : s.AtRest) (kept : s.RestKept u) (extents : u.extents = s.extents)
    (jobs : u.jobs = s.jobs) (board : u.board = s.board) : s.QuietStep u.settle := by
  obtain ⟨losses, pacing, pending, registers, sweep⟩ := kept.settle
  refine ⟨(State.settle_extents u).trans extents, losses, pacing, pending, registers, sweep, ?_, ?_, kept.answerBegins⟩
  · rw [State.Answers, State.settle_answers, board, List.append_nil]
  · refine kept.silent (board ▸ rest) fun j => ?_
    rw [State.job, State.job, jobs]

/-- The operation of context `c` waits for frames with a plan. -/
def State.waitForFrames (s : State) (c : ContextId) (plan : Plan) : State :=
  (s.withOperation c (Operation.waitFrames plan)).withRows fun r => { r with frameWait := r.frameWait ++ [c] }

/-- An operation that has taken its plan over the frames that it holds. -/
def Operation.overFrames (plan : Plan) (places : List BufferPlace) (op : Operation) : Operation :=
  if op.fetched = none then (op.keepPlan plan).beginFetch places else op.keepPlan plan

theorem Operation.results_overFrames (plan : Plan) (places : List BufferPlace) (op : Operation) :
    (op.overFrames plan places).results = op.keptResults plan := by
  unfold Operation.overFrames Operation.beginFetch
  split
  · split <;> rfl
  · rfl

/-- The reads of a plan that the operation still is to make. -/
def Operation.readsLeft (plan : Plan) (op : Operation) : List PlanRead :=
  plan.reads.filter fun r => !(op.keptResults plan).any fun x => x.position == r.position

section
variable {s : State} {c : ContextId} {op : Operation} (held : s.context c = some op)
include held

theorem State.takePlan_of_ended {outcome : RowOutcome} (plan : s.makePlan op = .ended outcome) :
    s.takePlan c = s.endOperation c outcome := by
  simp only [State.takePlan, held, plan]

theorem State.takePlan_of_await {ports : List PortId} (plan : s.makePlan op = .await ports) :
    s.takePlan c = s.withOperation c (Operation.await ports) := by
  simp only [State.takePlan, held, plan]

theorem State.takePlan_of_places {plan : Plan} (ready : s.makePlan op = .ready plan)
    (places : op.kind = .readRow ∧ plan.frameNeed = 0) :
    s.takePlan c = (s.withOperation c (Operation.waitFrames plan)).placeAsRead c := by
  simp only [State.takePlan, held, ready]
  exact if_pos places.symm

theorem State.takePlan_of_keeps {plan : Plan} (ready : s.makePlan op = .ready plan)
    (not : ¬ (op.kind = .readRow ∧ plan.frameNeed = 0)) (keeps : op.frames ≠ [] ∧ plan.frameNeed ≤ op.frames.length) :
    s.takePlan c = (s.withOperation c (Operation.overFrames plan (s.bufferPlaces op))).submitReads c op
      (op.readsLeft plan) := by
  have same : (fun x : Operation => if (x.keepPlan plan).fetched.isNone then
        (x.keepPlan plan).beginFetch (s.bufferPlaces op) else x.keepPlan plan) =
      Operation.overFrames plan (s.bufferPlaces op) := by
    funext x
    simp only [Operation.overFrames, Option.isNone_iff_eq_none]
    rfl
  rw [← same]
  simp only [State.takePlan, held, ready]
  rw [if_neg fun h => not h.symm, if_pos keeps]
  rfl

theorem State.takePlan_of_waits {plan : Plan} (ready : s.makePlan op = .ready plan)
    (not : ¬ (op.kind = .readRow ∧ plan.frameNeed = 0)) (lacks : ¬ (op.frames ≠ [] ∧ plan.frameNeed ≤ op.frames.length)) :
    s.takePlan c = s.waitForFrames c plan := by
  simp only [State.takePlan, held, ready]
  rw [if_neg fun h => not h.symm, if_neg lacks]
  rfl

/-- The entry into PLACE with what was read. -/
theorem State.placed_placeAsRead : (s.withOperation c (Operation.solved (s.extent op.extent))).Placed c
    (op.solved (s.extent op.extent)) (s.placeAsRead c) := by
  have same : s.withOperation c (fun op => op.solved (s.extent op.extent)) =
      s.withOperation c (Operation.solved (s.extent op.extent)) := by
    have bank : bankModify s.rows.contexts c (fun x => x.map fun op => op.solved (s.extent op.extent)) =
        bankModify s.rows.contexts c (fun x => x.map (Operation.solved (s.extent op.extent))) := by
      have was : s.rows.contexts[c.val] = some op := held
      simp only [bankModify, was, Option.map_some]
    exact congrArg (fun v => s.withRows fun r => { r with contexts := v }) bank
  rw [State.placeAsRead, same]
  exact State.placed (State.context_withOperation_of_held held _)

end

/-- What planning changes where it does not end the operation: the ports, the operation and the frame wait list. -/
structure State.Planned (s : State) (c : ContextId) (t : State) : Prop where
  kept : s.RestKept t
  board : t.board = s.board
  jobs : t.jobs = s.jobs
  extents : t.extents = s.extents
  requests : t.requests = s.requests
  solver : t.solver = s.solver
  holds : t.holds = s.holds
  waits : t.rows.contextWait = s.rows.contextWait
  unsettled : t.rows.unsettled = s.rows.unsettled
  contexts : ∀ d, d ≠ c → t.context d = s.context d

theorem State.MovesPorts.planned {s t : State} (h : s.MovesPorts t) (board : t.board = s.board) {c : ContextId}
    (contexts : ∀ d, d ≠ c → t.context d = s.context d) : s.Planned c t :=
  ⟨h.restKept, board, h.jobs, h.extents, h.requests, h.solver, h.holds, by rw [h], h.unsettled, contexts⟩

theorem State.planned_takePlan {s : State} {c : ContextId} {op : Operation} (held : s.context c = some op)
    (goes : ∀ o, s.makePlan op ≠ .ended o) : s.Planned c (s.takePlan c) := by
  have others (f : Operation → Operation) (d : ContextId) (other : d ≠ c) :
      (s.withOperation c f).context d = s.context d := State.context_withOperation_other other f
  cases plan : s.makePlan op with
  | ended outcome => exact absurd plan (goes outcome)
  | await ports =>
    rw [State.takePlan_of_await held plan]
    exact (s.movesPorts_withOperation c _).planned rfl (others _)
  | ready ready =>
    by_cases places : op.kind = .readRow ∧ ready.frameNeed = 0
    · rw [State.takePlan_of_places held plan places]
      have placed := State.placed_placeAsRead (State.context_withOperation_of_held held (Operation.waitFrames ready))
      refine State.MovesPorts.planned (((s.movesPorts_withOperation c _).trans
        (State.movesPorts_withOperation _ c _)).trans placed.moves) placed.board fun d other => ?_
      rw [placed.contexts d other, State.context_withOperation_other other, others _ d other]
    · by_cases keeps : op.frames ≠ [] ∧ ready.frameNeed ≤ op.frames.length
      · rw [State.takePlan_of_keeps held plan places keeps]
        have reads := State.readsPending op (op.readsLeft ready)
          (State.context_withOperation_of_held held (Operation.overFrames ready (s.bufferPlaces op)))
        exact ((s.movesPorts_withOperation c _).trans reads.moves).planned reads.board fun d other =>
          (reads.contexts d other).trans (others _ d other)
      · rw [State.takePlan_of_waits held plan places keeps]
        exact ⟨⟨rfl, rfl, rfl, rfl, rfl, rfl⟩, rfl, rfl, rfl, rfl, rfl, rfl, rfl, rfl, others _⟩

theorem State.Planned.quietStep {s u t : State} {c : ContextId} (rest : s.AtRest) (h : s.PlansAlike u c)
    (planned : u.Planned c t) : s.QuietStep t.settle := by
  have kept : s.RestKept u := by
    rw [h.same]
    exact ⟨rfl, rfl, rfl, rfl, rfl, rfl⟩
  refine State.quietStep_settle rest (kept.trans planned.kept) ?_ ?_ ?_
  · rw [planned.extents, h.same]
  · rw [planned.jobs, h.same]
  · rw [planned.board, h.same]

theorem RowOutcome.ne_completed_of_boundary {s : State} {op : Operation} {outcome : RowOutcome}
    (h : s.boundary op = some outcome) : outcome.completed = false := by
  unfold State.boundary at h
  split at h
  · cases h
    rfl
  · split at h
    · split at h
      · cases h
        rfl
      · cases h
    · cases h

/-- Planning ends an operation only without its completing. -/
theorem State.failure_of_makePlan {s : State} {op : Operation} {outcome : RowOutcome}
    (h : s.makePlan op = .ended outcome) : outcome.completed = false := by
  unfold State.makePlan at h
  cases boundary : s.boundary op with
  | some o =>
    rw [boundary] at h
    cases h
    exact RowOutcome.ne_completed_of_boundary boundary
  | none =>
    rw [boundary] at h
    dsimp only at h
    split at h
    · cases h
      rfl
    · split at h <;> cases h

/-- The operation `op` of context `c` of `u` takes its plan, said of the state `s` in which the step began. -/
theorem State.planTaken {s u : State} {c : ContextId} {op : Operation} (rest : s.AtRest) (held : u.context c = some op)
    (h : s.PlansAlike u c) : s.PlanTaken (u.takePlan c).settle c op := by
  have frames : u.rows.frameWait = s.rows.frameWait := by rw [h.same]
  have ports : u.ports = s.ports := by rw [h.same]
  by_cases ends : ∃ o, s.makePlan op = .ended o
  · obtain ⟨outcome, ended⟩ := ends
    have fails : s.OperationFails (u.takePlan c).settle c op outcome := by
      rw [State.takePlan_of_ended held (h.makePlan ▸ ended)]
      exact State.operationFails rest held h.endsAlike (State.failure_of_makePlan ended) (by rw [h.same])
        (by rw [h.same]) (by rw [h.same])
    obtain ⟨⟨-, -, contexts, waits, -, -, -, -, extents, pacing, pending, registers, sweep, answers, begins⟩, losses,
      unsettled, silent⟩ := id fails
    refine ⟨fun o again => ?_, fun ports await => ?_, fun plan ready => ?_, contexts, waits, unsettled, extents, losses,
      pacing, pending, registers, sweep, answers, silent, begins⟩
    · cases ended.symm.trans again
      exact fails
    · cases ended.symm.trans await
    · cases ended.symm.trans ready
  · have goes : ∀ o, u.makePlan op ≠ .ended o := fun o ended => ends ⟨o, h.makePlan ▸ ended⟩
    have planned := State.planned_takePlan held goes
    have quiet := planned.quietStep rest h
    refine ⟨fun o ended => absurd ⟨o, ended⟩ ends, fun asked await => ?_, fun plan ready => ?_, fun d other => ?_, ?_, ?_,
      quiet.extents, quiet.losses, quiet.pacing, quiet.pending, quiet.registers, quiet.sweep, quiet.answers, quiet.silent,
      quiet.begins⟩
    · rw [State.takePlan_of_await held (h.makePlan ▸ await), State.settle_context, State.settle_rows, State.settle_ports,
        State.context_withOperation_of_held held]
      exact ⟨rfl, frames, ports⟩
    · have ready : u.makePlan op = .ready plan := h.makePlan ▸ ready
      refine ⟨fun places => ?_, fun not keeps => ?_, fun not lacks => ?_⟩
      · have waits := State.context_withOperation_of_held held (Operation.waitFrames plan)
        obtain ⟨moves, -, ⟨op', after, entered⟩, -⟩ := State.placed_placeAsRead waits
        rw [State.takePlan_of_places held ready places]
        refine ⟨op', (State.settle_context _ c).trans after, ?_, ?_⟩
        · rw [← h.placeEntered, ← h.extent]
          exact entered.settle
        · rw [State.settle_rows, moves, ← frames]
          rfl
      · rw [State.takePlan_of_keeps held ready not keeps]
        have reads := State.readsPending op (op.readsLeft plan)
          (State.context_withOperation_of_held held (Operation.overFrames plan (u.bufferPlaces op)))
        refine ⟨(State.settle_context _ c).trans (reads.owner.trans ?_), ?_, ?_⟩
        · rw [Operation.results_overFrames, ← h.bufferPlaces, ← h.readFailures]
          rfl
        · rw [← h.readsSubmitted]
          exact fun p => (State.settle_port _ p).trans (reads.submitted p)
        · rw [State.settle_rows, reads.moves, ← frames]
          rfl
      · rw [State.takePlan_of_waits held ready not lacks, State.settle_context, State.settle_rows, State.settle_ports]
        exact ⟨State.context_withOperation_of_held held _, congrArg (· ++ [c]) frames, ports⟩
    · rw [State.settle_context, planned.contexts d other, h.contexts d other]
    · rw [State.settle_rows, planned.waits, h.same]
    · rw [State.settle_rows, planned.unsettled, h.same]

/-- A plan that does not end its operation leaves the hold table, the jobs, the requests and the solver. -/
theorem State.planTaken_goes {s u : State} {c : ContextId} {op : Operation} (held : u.context c = some op)
    (h : s.PlansAlike u c) (goes : ∀ o, s.makePlan op ≠ .ended o) :
    (u.takePlan c).settle.holds = u.holds ∧ s.SameJobs (u.takePlan c).settle ∧
      (u.takePlan c).settle.requests = s.requests ∧ (u.takePlan c).settle.solver = s.solver := by
  have planned := State.planned_takePlan held (h.makePlan ▸ goes)
  refine ⟨(State.settle_holds _).trans planned.holds, State.sameJobs_settle (.of_eq ?_), ?_, ?_⟩
  · rw [planned.jobs, h.same]
  · rw [State.settle_requests, planned.requests, h.same]
  · rw [State.settle_solver, planned.solver, h.same]

end Sys2Proof.Machine
end

section
/-! O39 and O42: contexts, holds and frames granted, and the end of a fetch. -/

namespace Sys2Proof.Machine

/-! ## CONTEXT_GRANT (R60) -/

theorem State.grantable_iff {s : State} {r : RowRequest} :
    s.grantable r = true ↔ r.kind ≠ .rebuildRow ∨ s.rebuildContextCount < 12 := by
  rw [State.grantable, Bool.or_eq_true, decide_eq_true_iff, RowKind.isForeground, bne_iff_ne]
  rfl

/-- The request granted is the first that may be. -/
theorem State.find_grantable {s : State} {before after : List RowRequest} {r : RowRequest}
    (waits : s.rows.contextWait = before ++ r :: after) (may : r.kind ≠ .rebuildRow ∨ s.rebuildContextCount < 12)
    (passed : ∀ q ∈ before, q.kind = .rebuildRow ∧ 12 ≤ s.rebuildContextCount) :
    s.rows.contextWait.find? s.grantable = some r ∧ s.rows.contextWait.erase r = before ++ after := by
  have refused : ∀ q ∈ before, s.grantable q = false := fun q mem => by
    obtain ⟨kind, full⟩ := passed q mem
    rw [← Bool.not_eq_true, State.grantable_iff]
    exact not_or.mpr ⟨not_not.mpr kind, Nat.not_lt.mpr full⟩
  have granted := State.grantable_iff.mpr may
  rw [waits]
  refine ⟨List.find?_eq_some_iff_append.mpr ⟨granted, before, after, rfl, fun q mem => by simp [refused q mem]⟩, ?_⟩
  rw [List.erase_append_right _ fun mem => by simp [refused r mem] at granted, List.erase_cons_head]

theorem State.freeContextOf_eq_some {s : State} {c : ContextId} (free : s.context c = none)
    (lower : ∀ d, d < c → s.context d ≠ none) : s.freeContextOf = some c := by
  refine find?_bankIndices_eq_some.mpr ⟨by simp [free], fun d lt => ?_⟩
  simpa [Option.isSome_iff_ne_none] using lower d lt

theorem execContextGrant_of_ended {s : State} {c : ContextId} {r : RowRequest} {outcome : RowOutcome}
    (free : s.freeContextOf = some c) (first : s.rows.contextWait.find? s.grantable = some r)
    (ends : s.boundary r.operation = some outcome) :
    exec .contextGrant s = .next (s.endWaiting r outcome).settle := by
  show execContextGrant s = _
  simp only [execContextGrant, free, first, ends]
  rfl

theorem execContextGrant_of_passes {s : State} {c : ContextId} {r : RowRequest}
    (free : s.freeContextOf = some c) (first : s.rows.contextWait.find? s.grantable = some r)
    (passes : s.boundary r.operation = none) : exec .contextGrant s = .next (s.grantContext c r).settle := by
  show execContextGrant s = _
  simp only [execContextGrant, free, first, passes]
  rfl

/-- No context is free, or no request may be granted one. -/
theorem execContextGrant_of_idle {s : State} (h : (∀ c, s.context c ≠ none) ∨
    ∀ r ∈ s.rows.contextWait, r.kind = .rebuildRow ∧ 12 ≤ s.rebuildContextCount) : exec .contextGrant s = .next s := by
  show execContextGrant s = _
  rcases h with full | refused
  · have none : s.freeContextOf = none := List.find?_eq_none.mpr fun c _ => by
      simpa [Option.isNone_iff_eq_none] using full c
    simp only [execContextGrant, none]
  · have none : s.rows.contextWait.find? s.grantable = none := List.find?_eq_none.mpr fun r mem => by
      obtain ⟨kind, many⟩ := refused r mem
      rw [State.grantable_iff]
      exact not_or.mpr ⟨not_not.mpr kind, Nat.not_lt.mpr many⟩
    rw [execContextGrant, none]
    cases s.freeContextOf <;> rfl

/-- What the ending of a request on the context wait list is: its owner takes the outcome, and it leaves the list. -/
structure State.WaitingEnded (s : State) (r : RowRequest) (outcome : RowOutcome) (t : State) : Prop where
  owner : s.OwnerTakes t r.operation outcome false false
  contexts : ∀ d, t.context d = s.context d
  waits : t.rows.contextWait = s.rows.contextWait.filter (fun x => x ≠ r)
  frames : t.rows.frameWait = s.rows.frameWait
  unsettled : t.rows.unsettled = s.rows.unsettled
  array : s.SameArray t
  holds : t.holds = s.holds
  solver : t.solver = s.solver
  pacing : s.SamePacing t
  pending : t.pending = s.pending
  registers : s.SameRegisters t
  sweep : s.SameSweep t
  answers : s.Answers t []
  silent : s.Silent t
  begins : s.AnswerBegins t

theorem State.waitingEnded {s : State} (rest : s.AtRest) (r : RowRequest) {outcome : RowOutcome}
    (failure : outcome.completed = false) : s.WaitingEnded r outcome (s.endWaiting r outcome).settle := by
  have told := s.movesOwners_ownerTold r.operation outcome false false
  have board := s.board_ownerTold (op := r.operation) false false (.inl failure)
  have published := s.published_ownerTold r.operation outcome false false
  have ends : s.endWaiting r outcome = (s.ownerTold r.operation outcome false false).withRows
      fun x => { x with contextWait := x.contextWait.filter (· != r) } := rfl
  have kept := s.restKept_endWaiting r outcome
  obtain ⟨losses, pacing, pending, registers, sweep⟩ := kept.settle
  rw [ends] at *
  refine ⟨State.ownerTakes_of (State.settle_requests _) fun k => State.settle_job_agrees _ k, fun d => ?_, ?_, ?_, ?_,
    ⟨?_, ?_, losses⟩, ?_, ?_, pacing, pending, registers, sweep, ?_, kept.silent ?_ published, kept.answerBegins⟩
  · rw [State.settle_context]
    exact told.context d
  · rw [State.settle_rows, ← filter_bne, ← told.rows]
    rfl
  · rw [State.settle_rows, ← told.rows]
    rfl
  · rw [State.settle_rows, ← told.rows]
    rfl
  · exact (State.settle_ports _).trans told.ports
  · exact (State.settle_extents _).trans told.extents
  · exact (State.settle_holds _).trans told.holds
  · exact (State.settle_solver _).trans told.solver
  · rw [State.Answers, State.settle_answers, List.append_nil]
    exact congrArg Board.answers board
  · exact (congrArg Board.publishAsked board).trans rest

/-- A request granted its context: its operation asks for the hold of its row. -/
structure State.ContextGranted (s : State) (c : ContextId) (r : RowRequest) (t : State) : Prop where
  owner : t.context c = some r.operation
  contexts : ∀ d, d ≠ c → t.context d = s.context d
  rows : t.rows = { s.rows with contexts := t.rows.contexts, contextWait := s.rows.contextWait.erase r }
  holds : t.holds = s.holds.request r.extent r.row c (if r.kind = .readRow then .shared else .sole)
  ports : t.ports = s.ports
  solver : t.solver = s.solver
  requests : t.requests = s.requests
  jobs : s.SameJobs t
  quiet : s.QuietStep t

theorem State.contextGranted {s : State} (rest : s.AtRest) (c : ContextId) (r : RowRequest) :
    s.ContextGranted c r (s.grantContext c r).settle where
  owner := by
    rw [State.settle_context]
    exact State.context_setContext_self _ c _
  contexts d other := by
    rw [State.settle_context]
    exact (State.context_setContext _ c d _).trans (if_neg (Ne.symm other))
  rows := by
    rw [State.settle_rows]
    rfl
  holds := by
    rw [State.settle_holds]
    rfl
  ports := State.settle_ports _
  solver := State.settle_solver _
  requests := State.settle_requests _
  jobs := State.sameJobs_settle (.of_eq rfl)
  quiet := State.quietStep_settle rest ⟨rfl, rfl, rfl, rfl, rfl, rfl⟩ rfl rfl rfl

/-! ## HOLD_GRANT (R111, R113) -/

/-- The target decision that a grant fixes: of a WRITE_ROW and a RESYNC_ROW that of R64, of the others none. -/
def State.decisionOf (s : State) (op : Operation) : Option (List (Nat × PortId)) :=
  if op.kind = .writeRow ∨ op.kind = .resyncRow then some (s.targetDecision op.extent op.row) else op.decision

theorem Job.isRebuilt_iff {x : Job} {row : Nat} : x.isRebuilt row = true ↔ row < x.frontier ∨ row ∈ x.window := by
  simp [Job.isRebuilt]

theorem State.targetDecision_eq (s : State) (e : ExtentId) (row : Nat) : s.targetDecision e row =
    match s.jobOn e with
    | none => []
    | some j =>
      if row < (s.job j).frontier ∨ row ∈ (s.job j).window then
        (s.job j).sources.map fun x => (x.position, x.target)
      else [] := by
  unfold State.targetDecision
  cases s.jobOn e with
  | none => rfl
  | some j => simp only [Job.isRebuilt_iff]

/-- The first of the grants taken, and the decision fixed. -/
def State.holdTaken (s : State) (c : ContextId) (rest : List ContextId) : State :=
  (s.withHolds fun t => { t with granted := rest }).decideTargets c

theorem execHoldGrant_of_granted {s : State} {c : ContextId} {rest : List ContextId}
    (granted : s.holds.granted = c :: rest) : exec .holdGrant s = .next ((s.holdTaken c rest).takePlan c).settle := by
  show execHoldGrant s = _
  simp only [execHoldGrant, granted]
  rfl

theorem State.holdTaken_of_held {s : State} {c : ContextId} {op : Operation} (held : s.context c = some op)
    (rest : List ContextId) : (s.holdTaken c rest).context c = some { op with decision := s.decisionOf op } ∧
      (s.holdTaken c rest).holds = { s.holds with granted := rest } := by
  have granted : (s.withHolds fun t => { t with granted := rest }).context c = some op := held
  unfold State.holdTaken State.decideTargets
  rw [granted]
  dsimp only
  by_cases decides : op.kind = .writeRow ∨ op.kind = .resyncRow
  · rw [if_pos decides, State.context_withOperation_of_held granted, State.decisionOf, if_pos decides]
    exact ⟨rfl, rfl⟩
  · rw [if_neg decides, granted, State.decisionOf, if_neg decides]
    exact ⟨rfl, rfl⟩

/-- Taking the grant off the list leaves to the hold table what leaving it gives. -/
theorem State.plansAlike_holdTaken {s : State} {c : ContextId} {rest : List ContextId}
    (granted : s.holds.granted = c :: rest) : s.PlansAlike (s.holdTaken c rest) c := by
  have leave : ({ s.holds with granted := rest } : HoldTable).leave c = s.holds.leave c := by
    simp [HoldTable.leave, granted]
  unfold State.holdTaken State.decideTargets
  split
  · exact ⟨rfl, fun _ _ => rfl, leave⟩
  · dsimp only
    split
    · exact ⟨rfl, fun _ other => State.context_withOperation_other other _, leave⟩
    · exact ⟨rfl, fun _ _ => rfl, leave⟩

/-- Settles O39: a context by the first request that may be granted, a hold by the plan that follows. -/
theorem contextsAndHoldsGranted : Obligations.ContextsAndHoldsGranted := by
  refine ⟨fun s c before after r rest free lower waits may passed => ?_, fun s => execContextGrant_of_idle,
    ?_, fun s none => ?_⟩
  · have lowest := State.freeContextOf_eq_some free lower
    obtain ⟨first, erased⟩ := State.find_grantable waits may passed
    refine ⟨fun passes => ?_, ?_⟩
    · have got := State.contextGranted rest c r
      have quiet := got.quiet
      refine ⟨_, r.operation, execContextGrant_of_passes lowest first (State.boundary_of_passes passes), got.owner, rfl,
        rfl, rfl, rfl, rfl, rfl, rfl, rfl, rfl, rfl, rfl, rfl, rfl, got.contexts, ?_, ?_, ?_, got.holds,
        ⟨got.ports, quiet.extents, quiet.losses⟩, got.solver, got.requests, got.jobs, quiet.pacing, quiet.pending,
        quiet.registers, quiet.sweep, quiet.answers, quiet.silent, quiet.begins⟩
      · rw [got.rows, erased]
      · rw [got.rows]
      · rw [got.rows]
    · have ends : ∀ outcome, s.boundary r.operation = some outcome → ∃ t : State, exec .contextGrant s = .next t ∧
          s.WaitingEnded r outcome t := fun outcome boundary =>
        ⟨_, execContextGrant_of_ended lowest first boundary,
          State.waitingEnded rest r (RowOutcome.ne_completed_of_boundary boundary)⟩
      refine ⟨fun lost => ?_, fun kept lost => ?_⟩
      · obtain ⟨t, step, h⟩ := ends _ (State.boundary_of_losesRow lost)
        exact ⟨t, step, h.owner, h.contexts, h.waits, h.frames, h.unsettled, h.array, h.holds, h.solver, h.pacing,
          h.pending, h.registers, h.sweep, h.answers, h.silent, h.begins⟩
      · obtain ⟨t, step, h⟩ := ends _ (State.boundary_of_losesTarget kept lost)
        exact ⟨t, step, h.owner, h.contexts, h.waits, h.frames, h.unsettled, h.array, h.holds, h.solver, h.pacing,
          h.pending, h.registers, h.sweep, h.answers, h.silent, h.begins⟩
  · intro s c more op rest granted held decision
    have fixes : s.decisionOf op = decision := by
      rewrite [State.decisionOf, State.targetDecision_eq]
      rfl
    obtain ⟨held, holds⟩ := State.holdTaken_of_held held more
    have alike := State.plansAlike_holdTaken granted
    rw [fixes] at held
    refine ⟨_, execHoldGrant_of_granted granted, State.planTaken rest held alike, fun goes => ?_⟩
    obtain ⟨same, jobs, requests, solver⟩ := State.planTaken_goes held alike goes
    exact ⟨same.trans holds, jobs, requests, solver⟩
  · show execHoldGrant s = _
    simp only [execHoldGrant, none]

end Sys2Proof.Machine
end

section
/-! O42: frames granted, and the end of a fetch. -/

namespace Sys2Proof.Machine

/-! ## FRAME_GRANT (R61, R62, R65) -/

/-- An operation that has its frames: it enters GATHER, and a WRITE_ROW begins its fetch. -/
def Operation.gathers (places : List BufferPlace) (positions : List Nat) (op : Operation) : Operation :=
  Operation.beginFetch places
    { op with phase := .gather, frames := positions.map Frame.fresh, results := [], fetched := none }

theorem Operation.gathers_eq (places : List BufferPlace) (positions : List Nat) (op : Operation) :
    op.gathers places positions = { op with
      phase := .gather, frames := positions.map Frame.fresh, results := [], fetched := none
      fetching := op.fetching || op.kind == .writeRow
      fetch := if op.kind = .writeRow then places else op.fetch } := by
  unfold Operation.gathers Operation.beginFetch
  by_cases write : op.kind = .writeRow <;> simp [write]

section
variable {s : State} {c : ContextId} {rest : List ContextId} {op : Operation}
  (waits : s.rows.frameWait = c :: rest) (held : s.context c = some op)
include waits held

theorem execFrameGrant_of_ended {outcome : RowOutcome} (ends : s.boundary op = some outcome) :
    exec .frameGrant s = .next (s.endOperation c outcome).settle := by
  show execFrameGrant s = _
  simp only [execFrameGrant, waits, held, ends]
  rfl

theorem execFrameGrant_of_lacking (passes : s.boundary op = none) (lacking : s.framesFree < op.plan.frameNeed) :
    exec .frameGrant s = .next s := by
  show execFrameGrant s = _
  simp only [execFrameGrant, waits, held, passes]
  exact if_neg (Nat.not_le.mpr lacking)

theorem execFrameGrant_of_free (passes : s.boundary op = none) (free : op.plan.frameNeed ≤ s.framesFree) :
    exec .frameGrant s = .next ((s.withRows fun r => { r with frameWait := rest }).grantFrames c op).settle := by
  show execFrameGrant s = _
  simp only [execFrameGrant, waits, held, passes]
  exact if_pos free

end

/-- What the grant of its frames is to the operation of context `c`. -/
structure State.FramesGiven (s : State) (c : ContextId) (op : Operation) (t : State) : Prop where
  owner : t.context c = some { op.gathers (s.bufferPlaces op) op.plan.framePositions with
    results := s.readFailures op.plan.reads }
  moves : s.MovesPorts t
  board : t.board = s.board
  submitted : s.ReadsSubmitted t c op op.plan.reads
  contexts : ∀ d, d ≠ c → t.context d = s.context d

theorem State.framesGiven {s : State} {c : ContextId} {op : Operation} (held : s.context c = some op) :
    s.FramesGiven c op (s.grantFrames c op) := by
  have reads := State.readsPending op op.plan.reads (State.context_withOperation_of_held held
    (Operation.gathers (s.bufferPlaces op) op.plan.framePositions))
  have none : (op.gathers (s.bufferPlaces op) op.plan.framePositions).results = [] := by rw [Operation.gathers_eq]
  refine ⟨reads.owner.trans ?_, (s.movesPorts_withOperation c _).trans reads.moves, reads.board, reads.submitted,
    fun d other => (reads.contexts d other).trans (State.context_withOperation_other other _)⟩
  rw [none]
  rfl

/-! ## BUFFER_FETCH_END (R80) -/

/-- An operation whose fetch has ended, with contents or with a fault. -/
def Operation.fetchEnded (fetched : Option (List Block)) (op : Operation) : Operation :=
  { op with
    fetching := false, fetched := fetched.elim op.fetched fun contents => some (op.newBlocks contents)
    bufferFault := op.bufferFault || fetched.isNone }

theorem execBufferFetchEnd_of_fetching {s : State} {c : ContextId} {op : Operation} (held : s.context c = some op)
    (fetching : op.fetching = true) (fetched : Option (List Block)) :
    ∃ u : State, exec (.bufferFetchEnd c fetched) s = .next u.settle ∧ s.MovesPorts u ∧ u.board = s.board ∧
      u.ports = s.ports ∧ u.context c = some (op.fetchEnded fetched) ∧ ∀ d, d ≠ c → u.context d = s.context d := by
  have step : exec (.bufferFetchEnd c fetched) s = execBufferFetchEnd c fetched s := rfl
  rw [step]
  cases fetched with
  | some contents =>
    refine ⟨s.withOperation c fun x => { x with fetching := false, fetched := some (op.newBlocks contents) }, ?_, rfl, rfl,
      rfl, ?_, fun d other => State.context_withOperation_other other _⟩
    · simp only [execBufferFetchEnd, held, fetching, if_true]
      rfl
    · rw [State.context_withOperation_of_held held]
      simp [Operation.fetchEnded]
  | none =>
    refine ⟨s.withOperation c fun x => { x with fetching := false, bufferFault := true }, ?_, rfl, rfl, rfl, ?_,
      fun d other => State.context_withOperation_other other _⟩
    · simp only [execBufferFetchEnd, held, fetching, if_true]
      rfl
    · rw [State.context_withOperation_of_held held]
      simp [Operation.fetchEnded]

theorem execBufferFetchEnd_of_idle {s : State} {c : ContextId} (fetched : Option (List Block))
    (idle : ∀ op, s.context c = some op → op.fetching = false) : exec (.bufferFetchEnd c fetched) s = .next s := by
  show execBufferFetchEnd c fetched s = _
  unfold execBufferFetchEnd
  cases held : s.context c with
  | none => rfl
  | some op =>
    dsimp only
    rw [if_neg (by simp [idle op held])]

/-- Settles O42: the head of the frame wait list by its boundary and its need, and a fetch by what it brought. -/
theorem framesGranted : Obligations.FramesGranted := by
  refine ⟨fun s c rest op atRest waits held => ⟨fun passes => ⟨fun lacking => ?_, fun free => ?_⟩, fun lost => ?_,
    fun kept lost => ?_⟩, fun s none => ?_, fun s c op fetched rest held fetching => ?_,
    fun s c fetched idle => execBufferFetchEnd_of_idle fetched idle⟩
  · exact execFrameGrant_of_lacking waits held (State.boundary_of_passes passes) lacking
  · have given := State.framesGiven (s := s.withRows fun r => { r with frameWait := rest }) held
    have quiet : s.QuietStep ((s.withRows fun r => { r with frameWait := rest }).grantFrames c op).settle :=
      State.quietStep_settle atRest ((s.restKept_withRows _).trans given.moves.restKept) given.moves.extents
        given.moves.jobs given.board
    refine ⟨_, _, execFrameGrant_of_free waits held (State.boundary_of_passes passes) free,
      (State.settle_context _ c).trans given.owner, ?_, ?_, fun p => (State.settle_port _ p).trans (given.submitted p),
      fun d other => (State.settle_context _ d).trans (given.contexts d other), ?_, ?_, ?_, quiet.extents, quiet.losses,
      (State.settle_solver _).trans given.moves.solver, (State.settle_holds _).trans given.moves.holds,
      (State.settle_requests _).trans given.moves.requests, State.sameJobs_settle (.of_eq given.moves.jobs), quiet.pacing,
      quiet.pending, quiet.registers, quiet.sweep, quiet.answers, quiet.silent, quiet.begins⟩
    · rw [Operation.gathers_eq]
      rfl
    · rw [Operation.gathers_eq]
      simp [Frame.fresh, Function.comp_def]
    · rw [State.settle_rows, given.moves]
      rfl
    · rw [State.settle_rows, given.moves]
      rfl
    · rw [State.settle_rows, given.moves]
      rfl
  · exact ⟨_, execFrameGrant_of_ended waits held (State.boundary_of_losesRow lost),
      State.operationFails_here atRest held rfl⟩
  · exact ⟨_, execFrameGrant_of_ended waits held (State.boundary_of_losesTarget kept lost),
      State.operationFails_here atRest held rfl⟩
  · show execFrameGrant s = _
    simp only [execFrameGrant, none]
  · intro blocks
    obtain ⟨u, step, moves, board, ports, owner, contexts⟩ := execBufferFetchEnd_of_fetching held fetching fetched
    have port := moves.portStep
    exact ⟨u.settle, step, (State.settle_context u c).trans owner,
      fun d other => (State.settle_context u d).trans (contexts d other), port.rows,
      ⟨(State.settle_ports u).trans ports, port.extents, port.losses⟩, port.solver, port.holds, port.requests, port.jobs,
      port.pacing, port.pending, port.registers, port.sweep, port.answers, moves.silent (board ▸ rest), port.begins⟩

end Sys2Proof.Machine
end

section
/-! O44: the end of reads, and the wake of an operation that waits for a member. -/

namespace Sys2Proof.Machine

/-! ## The commands -/

section
variable {s : State} {c : ContextId} {op : Operation} (held : s.context c = some op)
include held

theorem execGatherEnd_of_due (phase : op.phase = .gather) (fetched : op.fetching = false) (closed : s.NothingOpen c) :
    exec (.gatherEnd c) s = .next (s.endReads c).settle := by
  show execGatherEnd c s = _
  simp only [execGatherEnd, held]
  exact if_pos ⟨phase, fetched, State.requestsOpen_eq_false.mpr closed⟩

theorem execGatherEnd_of_idle (h : op.phase ≠ .gather ∨ op.fetching = true ∨ ¬ s.NothingOpen c) :
    exec (.gatherEnd c) s = .next s := by
  show execGatherEnd c s = _
  simp only [execGatherEnd, held]
  refine if_neg ?_
  rintro ⟨phase, fetched, closed⟩
  rcases h with other | fetching | opened
  · exact other phase
  · rw [fetched] at fetching
    cases fetching
  · exact opened (State.requestsOpen_eq_false.mp closed)

theorem execSupplementEnd_of_due (phase : op.phase = .supplement) (closed : s.NothingOpen c) :
    exec (.supplementEnd c) s = .next (s.endReads c).settle := by
  show execSupplementEnd c s = _
  simp only [execSupplementEnd, held]
  exact if_pos ⟨phase, State.requestsOpen_eq_false.mpr closed⟩

theorem execSupplementEnd_of_idle (h : op.phase ≠ .supplement ∨ ¬ s.NothingOpen c) :
    exec (.supplementEnd c) s = .next s := by
  show execSupplementEnd c s = _
  simp only [execSupplementEnd, held]
  refine if_neg ?_
  rintro ⟨phase, closed⟩
  rcases h with other | opened
  · exact other phase
  · exact opened (State.requestsOpen_eq_false.mp closed)

theorem execAwaitMemberWake_of_due (phase : op.phase = .awaitMember) (woken : op.woken = true) :
    exec (.awaitMemberWake c) s = .next (s.takePlan c).settle := by
  show execAwaitMemberWake c s = _
  simp only [execAwaitMemberWake, held]
  exact if_pos ⟨phase, woken⟩

theorem execAwaitMemberWake_of_idle (h : op.phase ≠ .awaitMember ∨ op.woken = false) :
    exec (.awaitMemberWake c) s = .next s := by
  show execAwaitMemberWake c s = _
  simp only [execAwaitMemberWake, held]
  refine if_neg ?_
  rintro ⟨phase, woken⟩
  rcases h with other | asleep
  · exact other phase
  · rw [woken] at asleep
    cases asleep

/-! ## The end of the reads (R65) -/

theorem State.endReads_of_ended {outcome : RowOutcome} (ends : s.boundary op = some outcome) :
    s.endReads c = s.endOperation c outcome := by
  simp only [State.endReads, held, ends]

theorem State.endReads_of_fault (passes : s.boundary op = none) (fault : op.bufferFault = true) :
    s.endReads c = s.endOperation c .bufferFault := by
  simp only [State.endReads, held, passes]
  exact if_pos fault

theorem State.endReads_of_passes (passes : s.boundary op = none) (sound : op.bufferFault = false) :
    s.endReads c = s.evaluate c := by
  simp only [State.endReads, held, passes]
  exact if_neg (by simp [sound])

end

/-! ## Evaluation (R66, R67, R69, R79) -/

theorem Operation.dataErased_iff {e : Extent} {op : Operation} :
    op.dataErased e = true ↔ ∃ p ∈ e.dataPositions op.row, ∃ i, i < 16 ∧ op.erased i p = true := by
  simp [Operation.dataErased, rowOffsets]

/-- Some failed position is available again. -/
theorem State.anyBack_iff {s : State} {op : Operation} :
    (s.extent op.extent).positions.any (fun p => op.failedAt p && s.available op.extent p op.row) = true ↔
      ∃ p, p < (s.extent op.extent).memberCount ∧ op.failedAt p = true ∧ s.available op.extent p op.row = true := by
  simp [Extent.positions]

/-- What evaluation names for a re-plan, or finds available again. -/
def State.PlansAgain (s : State) (op : Operation) : Prop :=
  s.namedForPlan op (s.countedStalls op).isEmpty ≠ [] ∨
    ∃ p, p < (s.extent op.extent).memberCount ∧ op.failedAt p = true ∧ s.available op.extent p op.row = true

/-- The further reads of an operation (R66 step 2; log 36). -/
def State.furtherReads (s : State) (op : Operation) (missing : List ReadWant) : List PlanRead :=
  missing.filterMap fun w =>
    ((s.servingPort op.extent w.position op.row).or (s.listedPort op.extent w.position)).map fun q =>
      ({ position := w.position, port := q, first := w.first, count := w.count } : PlanRead)

/-- SUPPLEMENT entered with some further reads in the plan. -/
def Operation.supplemented (reads : List PlanRead) (op : Operation) : Operation :=
  { op with
    phase := .supplement, plan := { op.plan with reads := reads.foldl (fun l r => addRead r l) op.plan.reads } }

theorem State.supplement_eq (s : State) (c : ContextId) (op : Operation) (missing : List ReadWant) :
    s.supplement c op missing = (s.withOperation c (Operation.supplemented (s.furtherReads op missing))).submitReads c op
      (s.furtherReads op missing) := rfl

section
variable {s : State} {c : ContextId} {op : Operation} (held : s.context c = some op)
include held

theorem State.evaluate_resyncRow (kind : op.kind = .resyncRow) : s.evaluate c =
    if op.dataErased (s.extent op.extent) then s.endOperation c .skipped else s.joinSolver c := by
  simp only [State.evaluate, held]
  exact if_pos kind

/-- Evaluation of the kinds other than RESYNC_ROW, in the order of R66. -/
theorem State.evaluate_eq [Decidable (s.PlansAgain op)] (kind : op.kind ≠ .resyncRow) : s.evaluate c =
    if s.PlansAgain op then
      (s.withOperation c (Operation.widen (s.namedForPlan op (s.countedStalls op).isEmpty))).takePlan c
    else if op.missing (s.extent op.extent) (s.countedStalls op).isEmpty ≠ [] then
      s.supplement c op (op.missing (s.extent op.extent) (s.countedStalls op).isEmpty)
    else if op.unsolvables (s.extent op.extent) ≠ [] then
      if s.countedStalls op ≠ [] then s.withOperation c (Operation.await (s.countedStalls op))
      else (s.withOperation c (Operation.settleOffsets (op.unsolvables (s.extent op.extent)))).joinSolver c
    else if op.isAsRead (s.extent op.extent) then s.placeAsRead c
    else s.joinSolver c := by
  have again : (!(s.namedForPlan op (s.countedStalls op).isEmpty).isEmpty ||
      (s.extent op.extent).positions.any fun p => op.failedAt p && s.available op.extent p op.row) = true ↔
      s.PlansAgain op := by
    rw [Bool.or_eq_true, State.anyBack_iff, Bool.not_eq_true', List.isEmpty_eq_false_iff]
    rfl
  simp only [State.evaluate, held, if_neg kind, again]

/-! ## What each outcome of evaluation is -/

end

/-- What joining the solve queue is to the operation `x` of context `c`, said of the state in which the step began. -/
structure State.Joined (s : State) (c : ContextId) (x : Operation) (t : State) : Prop where
  owner : t.context c = some { x with phase := .solveWait }
  solver : t.solver = { s.solver with queue := s.solver.queue ++ [c] }
  ports : t.ports = s.ports
  contexts : ∀ d, d ≠ c → t.context d = s.context d
  rows : t.rows = { s.rows with contexts := t.rows.contexts }
  holds : t.holds = s.holds
  requests : t.requests = s.requests
  jobs : s.SameJobs t
  quiet : s.QuietStep t

/-- An operation changed by `f` joins the solve queue. -/
theorem State.joined {s : State} {c : ContextId} {op : Operation} (rest : s.AtRest) (held : s.context c = some op)
    (f : Operation → Operation) : s.Joined c (f op) ((s.withOperation c f).joinSolver c).settle where
  owner := by
    rw [State.settle_context]
    exact State.context_withOperation_of_held (State.context_withOperation_of_held held f) _
  solver := State.settle_solver _
  ports := State.settle_ports _
  contexts d other := by
    rw [State.settle_context]
    exact (State.context_withOperation_other other _).trans (State.context_withOperation_other other f)
  rows := by
    rw [State.settle_rows]
    rfl
  holds := State.settle_holds _
  requests := State.settle_requests _
  jobs := State.sameJobs_settle (.of_eq rfl)
  quiet := State.quietStep_settle rest ((s.restKept_withOperation c f).trans (State.restKept_joinSolver _ c)) rfl rfl rfl

/-- An operation changed by nothing. -/
theorem State.withOperation_id (s : State) (c : ContextId) : s.withOperation c id = s := by
  simp [State.withOperation, State.withRows, bankModify]

/-- What the submission of further reads is to the operation of context `c`. -/
theorem State.supplement_spec {s : State} {c : ContextId} {op : Operation} (held : s.context c = some op)
    (missing : List ReadWant) : s.ReadsPending c op (op.supplemented (s.furtherReads op missing))
      (s.furtherReads op missing) (s.supplement c op missing) := by
  have reads := State.readsPending op (s.furtherReads op missing)
    (State.context_withOperation_of_held held (Operation.supplemented (s.furtherReads op missing)))
  exact ⟨(s.movesPorts_withOperation c _).trans reads.moves, reads.board, reads.submitted, reads.owner,
    fun d other => (reads.contexts d other).trans (State.context_withOperation_other other _)⟩

/-- The entry into PLACE with what was read, said of the state before. -/
theorem State.placedAsRead {s : State} {c : ContextId} {op : Operation} (held : s.context c = some op) :
    s.Placed c (op.solved (s.extent op.extent)) (s.placeAsRead c) := by
  have placed := State.placed_placeAsRead held
  have entered := placed.entered
  rw [(s.plansAlike_withOperation c _).placeEntered] at entered
  exact ⟨(s.movesPorts_withOperation c _).trans placed.moves, placed.board, entered,
    fun d other => (placed.contexts d other).trans (State.context_withOperation_other other _)⟩

/-- Settles O44: the end of GATHER and SUPPLEMENT by the boundary, the fetch and the branches of evaluation, in the order of
R66, and the wake by the plan that follows. -/
theorem readsEnd : Obligations.ReadsEnd := by
  refine ⟨?_, fun s c op held => ⟨execGatherEnd_of_idle held, execSupplementEnd_of_idle held,
    execAwaitMemberWake_of_idle held⟩, fun s c op rest held phase woken => ?_⟩
  · intro s c op cmd rest held due closed e stays joins ends
    have step : exec cmd s = .next (s.endReads c).settle := by
      rcases due with ⟨rfl, phase, fetched⟩ | ⟨rfl, phase⟩
      · exact execGatherEnd_of_due held phase fetched closed
      · exact execSupplementEnd_of_due held phase closed
    have fails {outcome : RowOutcome} (failure : outcome.completed = false)
        (same : s.endReads c = s.endOperation c outcome) : ends outcome :=
      ⟨_, same ▸ step, State.operationFails_here rest held failure⟩
    have stays_of {u : State} (moves : s.MovesPorts u) (board : u.board = s.board)
        (contexts : ∀ d, d ≠ c → u.context d = s.context d) : u.settle.solver = s.solver ∧ stays u.settle :=
      have port := moves.portStep
      ⟨port.solver, fun d other => (State.settle_context u d).trans (contexts d other), port.rows, port.extents, port.losses,
        port.holds, port.requests, port.jobs, port.pacing, port.pending, port.registers, port.sweep, port.answers,
        moves.silent (board ▸ rest), port.begins⟩
    refine ⟨fun lost => fails rfl (State.endReads_of_ended held (State.boundary_of_losesRow lost)),
      fun kept lost => fails rfl (State.endReads_of_ended held (State.boundary_of_losesTarget kept lost)),
      fun passes => ?_⟩
    have passes := State.boundary_of_passes passes
    refine ⟨fun fault => fails rfl (State.endReads_of_fault held passes fault), fun sound => ?_⟩
    rw [State.endReads_of_passes held passes sound] at step fails
    have joined {f : Operation → Operation} (same : s.evaluate c = (s.withOperation c f).joinSolver c) : joins (f op) :=
      have queued := State.joined rest held f
      have quiet := queued.quiet
      ⟨_, same ▸ step, queued.owner, queued.solver, queued.ports, queued.contexts, queued.rows, quiet.extents,
        quiet.losses, queued.holds, queued.requests, queued.jobs, quiet.pacing, quiet.pending, quiet.registers,
        quiet.sweep, quiet.answers, quiet.silent, quiet.begins⟩
    refine ⟨fun kind erased => fails rfl ?_, fun kind present => joined (f := id) ?_, fun kind => ?_⟩
    · rw [State.evaluate_resyncRow held kind, if_pos (Operation.dataErased_iff.mpr erased)]
    · rw [State.evaluate_resyncRow held kind, State.withOperation_id, if_neg]
      intro erased
      obtain ⟨p, mem, i, lt, erased⟩ := Operation.dataErased_iff.mp erased
      exact Bool.noConfusion ((present p mem i lt).symm.trans erased)
    · classical
      have eval := State.evaluate_eq held kind
      refine ⟨fun (plans : s.PlansAgain op) => ?_, fun (goes : ¬ s.PlansAgain op) reads => ?_,
        fun (goes : ¬ s.PlansAgain op) read bad stalled => ?_, fun (goes : ¬ s.PlansAgain op) read bad free => ?_,
        fun (goes : ¬ s.PlansAgain op) read sound erased => joined (f := id) ?_,
        fun (goes : ¬ s.PlansAgain op) read sound asRead => ?_⟩
      · have widened := State.context_withOperation_of_held held
          (Operation.widen (s.namedForPlan op (s.countedStalls op).isEmpty))
        have alike := s.plansAlike_withOperation c (Operation.widen (s.namedForPlan op (s.countedStalls op).isEmpty))
        rw [if_pos plans] at eval
        exact ⟨_, eval ▸ step, State.planTaken rest widened alike, State.planTaken_goes widened alike⟩
      · rw [if_neg goes, if_pos reads] at eval
        have further := State.supplement_spec held (op.missing (s.extent op.extent) (s.countedStalls op).isEmpty)
        obtain ⟨solver, stays⟩ := stays_of further.moves further.board further.contexts
        exact ⟨_, eval ▸ step, (State.settle_context _ c).trans further.owner,
          fun p => (State.settle_port _ p).trans (further.submitted p), solver, stays⟩
      · rw [if_neg goes, if_neg (not_not.mpr read), if_pos bad, if_pos stalled] at eval
        obtain ⟨solver, stays⟩ := stays_of (s.movesPorts_withOperation c (Operation.await (s.countedStalls op))) rfl
          fun d other => State.context_withOperation_other other _
        exact ⟨_, eval ▸ step, (State.settle_context _ c).trans (State.context_withOperation_of_held held _),
          State.settle_ports _, solver, stays⟩
      · rw [if_neg goes, if_neg (not_not.mpr read), if_pos bad, if_neg (not_not.mpr free)] at eval
        exact joined eval
      · rw [eval, if_neg goes, if_neg (not_not.mpr read), if_neg (not_not.mpr sound), if_neg fun read => Bool.noConfusion (erased.symm.trans read),
          State.withOperation_id]
      · rw [if_neg goes, if_neg (not_not.mpr read), if_neg (not_not.mpr sound), if_pos asRead] at eval
        have placed := State.placedAsRead held
        obtain ⟨op', after, entered⟩ := placed.entered
        obtain ⟨solver, stays⟩ := stays_of placed.moves placed.board placed.contexts
        exact ⟨_, op', eval ▸ step, (State.settle_context _ c).trans after, entered.settle, solver, stays⟩
  · exact ⟨_, execAwaitMemberWake_of_due held phase woken, State.planTaken rest held (.refl s c),
      State.planTaken_goes held (.refl s c)⟩

end Sys2Proof.Machine
end

section
/-! O47: BUFFER_DELIVERY_END and PLACE_END, and a completed row taken by its job. -/

namespace Sys2Proof.Machine

/-! ## A completed row and the frontier (R92) -/

/-- The frontier stops at a row that is not rebuilt, and the rebuilt rows stay the same. -/
theorem advanceFrontier_spec {fuel : Nat} (f : Nat) {window : List Nat} (enough : window.length ≤ fuel) :
    (advanceFrontier fuel f window).1 ∉ (advanceFrontier fuel f window).2 ∧
      ∀ r, (r < (advanceFrontier fuel f window).1 ∨ r ∈ (advanceFrontier fuel f window).2) ↔ (r < f ∨ r ∈ window) := by
  induction fuel generalizing f window with
  | zero =>
    obtain rfl := List.length_eq_zero_iff.mp (Nat.le_zero.mp enough)
    simp [advanceFrontier]
  | succ n ih =>
    unfold advanceFrontier
    by_cases next : f ∈ window
    · rw [if_pos (by simpa using next)]
      have shorter : (window.filter (· != f)).length < window.length :=
        List.length_filter_lt_length_iff_exists.mpr ⟨f, next, by simp⟩
      obtain ⟨stops, same⟩ := ih (f + 1) (by omega : (window.filter (· != f)).length ≤ n)
      refine ⟨stops, fun r => (same r).trans ?_⟩
      by_cases at_f : r = f
      · simp [at_f, next]
      · have lt_succ : r < f + 1 ↔ r < f := by omega
        simp [lt_succ, at_f]
    · rw [if_neg (by simpa using next)]
      exact ⟨next, fun r => .rfl⟩

/-- The frontier and the window of a job that takes the completed `row`. -/
def Job.advanced (row : Nat) (j : Job) : Nat × List Nat :=
  if row = j.frontier then advanceFrontier j.window.length (row + 1) j.window
  else if j.frontier < row ∧ !j.window.contains row then (j.frontier, j.window ++ [row])
  else (j.frontier, j.window)

/-- A completed row changes these fields of its job, and no other. -/
theorem Job.takeCompletion_eq (row : Nat) (copied : Bool) (t : RowTallies) (j : Job) :
    j.takeCompletion row copied t = { j with
      inFlight := j.inFlight.filter (fun r => r ≠ row)
      laneCount := max j.lanesWanted (j.inFlight.filter (fun r => r ≠ row)).length
      rowsDone := j.rowsDone + 1
      rowsCopied := j.rowsCopied + (if copied then 1 else 0)
      rowsReconstructed := j.rowsReconstructed + (if copied then 0 else 1)
      blocksReconstructed := j.blocksReconstructed + BitVec.ofNat 64 t.reconstructed
      blocksLost := j.blocksLost + BitVec.ofNat 64 t.lost
      repairs := j.repairs + BitVec.ofNat 64 t.repairs
      frontier := (j.advanced row).1
      window := (j.advanced row).2 } := by
  have copies : (if copied then j.rowsCopied + 1 else j.rowsCopied) = j.rowsCopied + (if copied then 1 else 0) := by
    cases copied <;> simp
  have reconstructs : (if copied then j.rowsReconstructed else j.rowsReconstructed + 1) =
      j.rowsReconstructed + (if copied then 0 else 1) := by
    cases copied <;> simp
  unfold Job.takeCompletion Job.rowLeaves Job.advanced
  simp only [filter_bne, copies, reconstructs]
  split
  · rfl
  · split <;> rfl

/-- Of a legal job, exactly the rows rebuilt before and the row that completes are rebuilt. -/
theorem Job.advanced_spec {j : Job} {row : Nat} (legal : j.legal) (on : j.isOn = true) (flies : row ∈ j.inFlight) :
    (j.advanced row).1 ∉ (j.advanced row).2 ∧ ∀ r, (r < (j.advanced row).1 ∨ r ∈ (j.advanced row).2) ↔
      (r < j.frontier ∨ r ∈ j.window ∨ r = row) := by
  obtain ⟨-, -, -, -, -, window, -, flying, apart, -⟩ := legal on
  have ahead := (flying row flies).1
  have fresh := apart row flies
  unfold Job.advanced
  by_cases first : row = j.frontier
  · rw [if_pos first]
    obtain ⟨stops, same⟩ := advanceFrontier_spec (row + 1) (le_refl j.window.length)
    refine ⟨stops, fun r => (same r).trans ?_⟩
    have lt_succ : r < row + 1 ↔ r < j.frontier ∨ r = row := by omega
    rw [lt_succ, or_assoc, or_comm (a := r = row)]
  · rw [if_neg first, if_pos ⟨by omega, by simpa using fresh⟩]
    refine ⟨fun mem => ?_, fun r => by simp⟩
    rcases List.mem_append.mp mem with mem | mem
    · exact absurd (window _ mem).1 (lt_irrefl _)
    · exact first (List.mem_singleton.mp mem).symm

/-- The checkpoint of R94, asked for by the record of a job. -/
theorem Job.wantsCheckpoint_iff {j : Job} : j.wantsCheckpoint = true ↔
    (j.frontier ≠ j.endRow ∨ j.state = .aborting) ∧ 256 ≤ j.frontier - j.publishedFrontier := by
  simp only [Job.wantsCheckpoint, Bool.and_eq_true, Bool.or_eq_true, bne_iff_ne, beq_iff_eq, decide_eq_true_eq]
  rfl

/-- A completed row of job `j` asks for a publish where the record then calls for a checkpoint. -/
theorem State.board_jobTakesRow_of_completed (s : State) {j : JobId} {row : Nat} (flies : row ∈ (s.job j).inFlight)
    {outcome : RowOutcome} (completed : outcome.completed = true) (copied : Bool) (t : RowTallies) :
    (s.jobTakesRow j row outcome copied t).board = { s.board with publishAsked :=
      s.board.publishAsked || ((s.job j).takeCompletion row copied t).wantsCheckpoint } := by
  have asks : ((s.withJob j (Job.takeCompletion row copied t)).askPublishIf
      ((s.withJob j (Job.takeCompletion row copied t)).job j).wantsCheckpoint).board = { s.board with publishAsked :=
        s.board.publishAsked || ((s.job j).takeCompletion row copied t).wantsCheckpoint } := by
    rw [State.job_withJob_self]
    cases ((s.job j).takeCompletion row copied t).wantsCheckpoint
    · rw [Bool.or_false]
      rfl
    · rw [Bool.or_true]
      rfl
  unfold State.jobTakesRow
  rw [if_pos (by simpa using flies)]
  cases outcome with
  | done | doneWithLoss | recovered => exact asks
  | extentLost | targetLost | bufferFault | skipped => exact absurd completed Bool.false_ne_true

/-! ## The delivery ends (R80) -/

section
variable {s : State} {c : ContextId} {op : Operation} (held : s.context c = some op)
include held

theorem execBufferDeliveryEnd_of_idle (h : op.phase ≠ .place ∨ op.delivering = false) (fault : Bool) :
    exec (.bufferDeliveryEnd c fault) s = .next s := by
  show execBufferDeliveryEnd c fault s = _
  unfold execBufferDeliveryEnd
  rw [held]
  exact if_neg fun ⟨place, delivers⟩ => h.elim (· place) fun still => Bool.noConfusion (still.symm.trans delivers)

theorem execBufferDeliveryEnd_of_due (place : op.phase = .place) (delivers : op.delivering = true) :
    exec (.bufferDeliveryEnd c false) s = .next (s.endDelivery c op).settle := by
  show execBufferDeliveryEnd c false s = _
  unfold execBufferDeliveryEnd
  rw [held]
  exact if_pos ⟨place, delivers⟩

/-- A delivery that faults ends its operation, with the outcome of the boundary tests before its own. -/
theorem execBufferDeliveryEnd_of_fault (place : op.phase = .place) (delivers : op.delivering = true) :
    exec (.bufferDeliveryEnd c true) s =
      .next (s.endOperation c ((s.boundary op).getD .bufferFault)).settle := by
  show execBufferDeliveryEnd c true s = _
  unfold execBufferDeliveryEnd
  rw [held]
  refine (if_pos ⟨place, delivers⟩).trans ?_
  cases s.boundary op <;> rfl

theorem execPlaceEnd_of_idle (h : op.phase ≠ .place ∨ op.delivering = true ∨ ¬ s.NothingOpen c) :
    exec (.placeEnd c) s = .next s := by
  show execPlaceEnd c s = _
  unfold execPlaceEnd
  rw [held]
  refine if_neg fun ⟨place, delivered, closed⟩ => ?_
  rcases h with elsewhere | delivers | opened
  · exact elsewhere place
  · exact Bool.noConfusion (delivered.symm.trans delivers)
  · exact opened (State.requestsOpen_eq_false.mp closed)

theorem execPlaceEnd_of_due (place : op.phase = .place) (delivered : op.delivering = false) (closed : s.NothingOpen c) :
    exec (.placeEnd c) s = .next (s.endPlace c).settle := by
  show execPlaceEnd c s = _
  unfold execPlaceEnd
  rw [held]
  exact if_pos ⟨place, delivered, State.requestsOpen_eq_false.mpr closed⟩

end

/-- The operation once its delivery is over. -/
def Operation.delivered (op : Operation) : Operation := { op with delivering := false }

theorem State.endDelivery_of_losesRow {s : State} {op : Operation} (c : ContextId) (lost : s.LosesRow op) :
    s.endDelivery c op = s.withOperation c Operation.delivered := if_pos lost

theorem State.endDelivery_of_kept {s : State} {op : Operation} (c : ContextId) (kept : ¬ s.LosesRow op) :
    s.endDelivery c op = (s.withOperation c Operation.delivered).submitWrites c := if_neg kept

/-- What the end of a delivery changes: the ports and the operation. -/
structure State.DeliveryEnded (s : State) (c : ContextId) (op : Operation) (t : State) : Prop where
  moves : s.MovesPorts t
  board : t.board = s.board
  owner : ∃ op', t.context c = some op' ∧ (s.LosesRow op → op' = op.delivered ∧ t.ports = s.ports) ∧
    (¬ s.LosesRow op → s.WritesSubmitted t c op.delivered op')
  contexts : ∀ d, d ≠ c → t.context d = s.context d

theorem State.deliveryEnded {s : State} {c : ContextId} {op : Operation} (held : s.context c = some op) :
    s.DeliveryEnded c op (s.endDelivery c op) := by
  have after := State.context_withOperation_of_held held Operation.delivered
  by_cases lost : s.LosesRow op
  · rw [State.endDelivery_of_losesRow c lost]
    exact ⟨s.movesPorts_withOperation c _, rfl, ⟨_, after, fun _ => ⟨rfl, rfl⟩, fun kept => absurd lost kept⟩,
      fun d other => State.context_withOperation_other other _⟩
  · rw [State.endDelivery_of_kept c lost]
    have writes := State.writesPending_submitWrites after
    obtain ⟨op', now, submitted⟩ := writes.submitted
    exact ⟨(s.movesPorts_withOperation c _).trans writes.moves, writes.board,
      ⟨op', now, fun loses => absurd loses lost, fun _ => submitted⟩, fun d other =>
      (writes.contexts d other).trans (State.context_withOperation_other other _)⟩

theorem State.WritesSubmitted.settle {s t : State} {c : ContextId} {op op' : Operation} (h : s.WritesSubmitted t c op op') :
    s.WritesSubmitted t.settle c op op' := ⟨h.1, fun p => (State.settle_port t p).trans (h.2 p)⟩

/-! ## The lists at PLACE_END (R83, R133) -/

/-- The loss list with `entries` left, `kept` more parts kept, and a publish asked for where the removals touched it. -/
def State.lossesTaken (s : State) (removed : List LossEntry × Nat × Nat) : State :=
  { s with
    losses := { s.losses with entries := removed.1, kept := s.losses.kept + BitVec.ofNat 32 removed.2.1 }
    board := { s.board with publishAsked := s.board.publishAsked || decide (0 < removed.2.2) } }

/-- The removal of one covered range from the entries left, with the parts kept and the entries touched so far. -/
def Operation.removeRange (e : Extent) (op : Operation) (acc : List LossEntry × Nat × Nat) (r : RequestedRun) :
    List LossEntry × Nat × Nat :=
  let first := e.arrayBlock op.row r.strip r.first
  let out := removeLosses e.arrayLimit op.extent first (first + r.count - 1) acc.1.length acc.1
  (out.entries, acc.2.1 + out.kept, acc.2.2 + (out.deleted + out.shortened + out.split + out.kept))

theorem Bool.or_decide_pos (a b : Nat) : (decide (0 < a) || decide (0 < b)) = decide (0 < a + b) := by
  rw [← Bool.decide_or]
  exact decide_eq_decide.mpr (by omega)

theorem State.askPublishIf_eq (s : State) (b : Bool) :
    s.askPublishIf b = { s with board := { s.board with publishAsked := s.board.publishAsked || b } } := by
  cases b
  · simp [State.askPublishIf]
  · simp [State.askPublishIf, State.askPublish, State.withBoard]

/-- What a removal did, after others. -/
theorem State.lossesTaken_lossesTaken (s : State) (acc : List LossEntry × Nat × Nat) (out : LossRemoval) :
    (((s.lossesTaken acc).withLosses fun l =>
      { l with entries := out.entries, kept := l.kept + BitVec.ofNat 32 out.kept }).askPublishIf
        (decide (0 < out.deleted + out.shortened + out.split + out.kept))) =
      s.lossesTaken (out.entries, acc.2.1 + out.kept,
        acc.2.2 + (out.deleted + out.shortened + out.split + out.kept)) := by
  rw [State.askPublishIf_eq]
  simp only [State.lossesTaken, State.withLosses, Bool.or_assoc, Bool.or_decide_pos, BitVec.add_assoc,
    ← BitVec.ofNat_add]

/-- The covered ranges of a WRITE_ROW removed one after another. -/
theorem State.removeCovered_eq (s : State) (op : Operation) :
    let removed := op.requested.foldl (op.removeRange (s.extent op.extent)) (s.losses.entries, 0, 0)
    s.removeCovered op = (s.lossesTaken removed, decide (0 < removed.2.1)) := by
  have fold (l : List RequestedRun) : ∀ acc : List LossEntry × Nat × Nat,
      l.foldl (fun (x : State × Bool) r =>
        let first := (s.extent op.extent).arrayBlock op.row r.strip r.first
        let out := x.1.removeLossRange op.extent first (first + r.count - 1)
        (out.1, x.2 || decide (0 < out.2.kept))) (s.lossesTaken acc, decide (0 < acc.2.1)) =
      (s.lossesTaken (l.foldl (op.removeRange (s.extent op.extent)) acc),
        decide (0 < (l.foldl (op.removeRange (s.extent op.extent)) acc).2.1)) := by
    induction l with
    | nil => exact fun acc => rfl
    | cons r rest ih =>
      intro acc
      rw [List.foldl_cons, List.foldl_cons, ← ih]
      refine congrArg (fun x => List.foldl _ x rest) (Prod.ext ?_ ?_)
      · exact s.lossesTaken_lossesTaken acc _
      · exact Bool.or_decide_pos _ _
  have start : s.lossesTaken (s.losses.entries, 0, 0) = s := by
    simp [State.lossesTaken]
  have all := fold op.requested (s.losses.entries, 0, 0)
  rw [start] at all
  exact all

/-! ## PLACE ended (R71) -/

section
variable {s : State} {c : ContextId} {op : Operation} (held : s.context c = some op)
include held

theorem State.endPlace_of_ended {outcome : RowOutcome} (ends : s.boundary op = some outcome) :
    s.endPlace c = s.endOperation c outcome := by
  simp only [State.endPlace, held, ends]

end

/-- The loss list with the covered ranges of a WRITE_ROW removed, the parts kept whole, and the entries touched. -/
def State.removedFor (s : State) (op : Operation) : List LossEntry × Nat × Nat :=
  op.requested.foldl (op.removeRange (s.extent op.extent)) (s.losses.entries, 0, 0)

/-- The unsettled-row list that a RESYNC_ROW leaves, if its row leaves it (R83). -/
def State.settledFor (s : State) (op : Operation) : Option (List UnsettledEntry) :=
  removeUnsettled (s.lastRows op.extent) (decide (64 ≤ s.rows.unsettled.length)) op.extent op.row s.rows.unsettled

/-- The end of PLACE takes something off a list. -/
def State.Touches (s : State) (op : Operation) : Prop :=
  (op.kind = .writeRow ∧ 0 < (s.removedFor op).2.2) ∨ (op.kind = .resyncRow ∧ s.settledFor op ≠ none)

/-- The loss list once an operation of its kind has completed. -/
def State.lossesLeft (s : State) (op : Operation) : LossList :=
  if op.kind = .writeRow then
    { s.losses with
      entries := (s.removedFor op).1, kept := s.losses.kept + BitVec.ofNat 32 (s.removedFor op).2.1 }
  else s.losses

/-- The unsettled-row list once an operation of its kind has completed. -/
def State.unsettledLeft (s : State) (op : Operation) : List UnsettledEntry :=
  if op.kind = .resyncRow then (s.settledFor op).getD s.rows.unsettled else s.rows.unsettled

/-- The state with other loss and unsettled-row lists, and a publish asked for or not. -/
def State.withLists (s : State) (losses : LossList) (unsettled : List UnsettledEntry) (asked : Bool) : State :=
  { s with
    losses := losses, rows := { s.rows with unsettled := unsettled }, board := { s.board with publishAsked := asked } }

theorem State.withLists_self {s : State} (rest : s.AtRest) : s.withLists s.losses s.rows.unsettled false = s := by
  rw [← show s.board.publishAsked = false from rest]
  rfl

theorem State.endsAlike_withLists (s : State) (c : ContextId) (losses : LossList) (unsettled : List UnsettledEntry)
    (asked : Bool) : s.EndsAlike (s.withLists losses unsettled asked) c :=
  ⟨rfl, rfl, fun _ _ => rfl, rfl, rfl, rfl, rfl, rfl, rfl, rfl, rfl, rfl, rfl, rfl⟩

theorem State.settleRow_eq {s : State} (rest : s.AtRest) (op : Operation) : s.settleRow op.extent op.row =
    (s.withLists s.losses ((s.settledFor op).getD s.rows.unsettled) (s.settledFor op).isSome,
      (s.settledFor op).isSome) := by
  have same : s.settleRow op.extent op.row = match s.settledFor op with
      | some l => ((s.withRows fun r => { r with unsettled := l }).askPublish, true)
      | none => (s, false) := rfl
  rw [same]
  cases s.settledFor op with
  | none => exact Prod.ext (State.withLists_self rest).symm rfl
  | some l => rfl

open Classical in
/-- The end of PLACE where the boundary tests pass: what the kind does with the lists, and the operation's end. -/
theorem State.endPlace_eq {s : State} {c : ContextId} {op : Operation} (rest : s.AtRest) (held : s.context c = some op)
    (passes : s.boundary op = none) : s.endPlace c =
      (s.withLists (s.lossesLeft op) (s.unsettledLeft op) (decide (s.Touches op))).endOperationWith c op.outcome
        (op.kind == .writeRow && decide (0 < (s.removedFor op).2.1))
        (op.kind == .resyncRow && (s.settledFor op).isSome) := by
  cases kind : op.kind with
  | writeRow =>
    have covered : s.removeCovered op = (s.lossesTaken (s.removedFor op), decide (0 < (s.removedFor op).2.1)) :=
      s.removeCovered_eq op
    have asked : s.board.publishAsked = false := rest
    have lists : s.lossesTaken (s.removedFor op) =
        s.withLists (s.lossesLeft op) (s.unsettledLeft op) (decide (s.Touches op)) := by
      simp [State.lossesTaken, State.withLists, State.lossesLeft, State.unsettledLeft, State.Touches, kind, asked]
    simp only [State.endPlace, held, passes, kind, covered, lists]
    rfl
  | resyncRow =>
    have lists : s.withLists s.losses ((s.settledFor op).getD s.rows.unsettled) (s.settledFor op).isSome =
        s.withLists (s.lossesLeft op) (s.unsettledLeft op) (decide (s.Touches op)) := by
      have touched : decide (s.Touches op) = (s.settledFor op).isSome := by
        cases left : s.settledFor op <;> simp [State.Touches, kind, left]
      simp [State.lossesLeft, State.unsettledLeft, kind, touched]
    simp only [State.endPlace, held, passes, kind, State.settleRow_eq rest op, lists]
    rfl
  | rebuildRow | readRow =>
    have none : s.withLists (s.lossesLeft op) (s.unsettledLeft op) (decide (s.Touches op)) = s := by
      simpa [State.lossesLeft, State.unsettledLeft, State.Touches, kind] using State.withLists_self rest
    simp only [State.endPlace, held, passes, kind, none]
    rfl

/-! ## What the owner of an operation takes at PLACE_END -/

theorem RowOutcome.completed_outcome (op : Operation) : op.outcome.completed = true := by
  cases kind : op.kind with
  | rebuildRow => rw [Operation.outcome_rebuildRow kind]; split <;> rfl
  | readRow => 
    rw [Operation.outcome_readRow kind]
    split
    · rfl
    · split <;> rfl
  | writeRow => 
    rw [Operation.outcome_writeRow kind]
    split
    · rfl
    · split <;> rfl
  | resyncRow => rw [Operation.outcome, kind]; rfl

section
variable {s u : State} {c : ContextId} {op : Operation} (held : u.context c = some op)
include held

/-- The board after an operation's end, with the publish that its owner asks for. -/
theorem State.board_endOperationWith (outcome : RowOutcome) (kept settled : Bool) :
    (u.endOperationWith c outcome kept settled).board = (u.ownerTold op outcome kept settled).board := by
  rw [State.endOperationWith_eq held]
  rfl

theorem State.published_endOperationWith (outcome : RowOutcome) (kept settled : Bool) (j : JobId) :
    ((u.endOperationWith c outcome kept settled).job j).publishedFrontier = (u.job j).publishedFrontier := by
  rw [State.endOperationWith_eq held]
  exact u.published_ownerTold op outcome kept settled j

/-- A publish follows the end of an operation where one was asked for on the way, and no other. -/
theorem State.publish_of_ended (alike : s.EndsAlike u c) {outcome : RowOutcome} {kept settled : Bool} {v : State}
    (ended : u.endOperationWith c outcome kept settled = v) :
    (v.board.publishAsked = true → s.Publishes v.settle) ∧ (v.board.publishAsked = false → s.Silent v.settle) := by
  subst ended
  have board := State.board_endOperationWith held outcome kept settled
  rw [(u.movesOwners_ownerTold op outcome kept settled).board, alike.board] at board
  have fronts (j : JobId) : ((u.endOperationWith c outcome kept settled).job j).publishedFrontier =
      (s.job j).publishedFrontier := by
    rw [State.published_endOperationWith held, State.job, alike.jobs, State.job]
  exact ⟨fun asked => State.publishes_settle asked (by rw [board]) (by rw [board]) fronts,
    fun quiet => State.silent_settle quiet (by rw [board]) (by rw [board]) fronts⟩

end

/-- A record that agrees with another is that one, its published frontier apart. -/
theorem State.job_eq_of_agrees {t : State} {j : JobId} {x : Job} (h : (t.job j).agrees x) :
    t.job j = { x with publishedFrontier := (t.job j).publishedFrontier } :=
  congrArg (fun y : Job => { y with publishedFrontier := (t.job j).publishedFrontier }) h

/-- A job takes a completed row of its own, and asks for the publish of its checkpoint. -/
theorem State.job_of_completed {u : State} {c : ContextId} {op : Operation} (held : u.context c = some op) {j : JobId}
    (owner : op.owner = .job j) (flies : op.row ∈ (u.job j).inFlight) {outcome : RowOutcome}
    (completed : outcome.completed = true) {kept settled : Bool} {v : State}
    (ended : u.endOperationWith c outcome kept settled = v) :
    (∃ count, v.job j = Job.takeCompletion op.row op.plan.copy op.tallies { u.job j with drainCount := count }) ∧
      v.board.publishAsked = (u.board.publishAsked || (v.job j).wantsCheckpoint) := by
  obtain ⟨count, drained⟩ : ∃ count,
      (u.drainCounted op.countedBy op.extent).job j = { u.job j with drainCount := count } := by
    rw [State.job_drainCounted]
    split
    · exact ⟨_, rfl⟩
    · exact ⟨_, rfl⟩
  have flying : op.row ∈ ((u.drainCounted op.countedBy op.extent).job j).inFlight := drained ▸ flies
  have told : u.ownerTold op outcome kept settled =
      (u.drainCounted op.countedBy op.extent).jobTakesRow j op.row outcome op.plan.copy op.tallies := by
    rw [State.ownerTold, owner]
    rfl
  have job : v.job j = Job.takeCompletion op.row op.plan.copy op.tallies { u.job j with drainCount := count } := by
    have record : v.job j = (u.ownerTold op outcome kept settled).job j := by
      rw [← ended, State.endOperationWith_eq held]
      rfl
    rw [record, told, State.job_jobTakesRow, if_pos ⟨rfl, flying⟩, if_pos completed, drained]
  refine ⟨⟨count, job⟩, ?_⟩
  rw [job, ← ended, State.board_endOperationWith held, told, State.board_jobTakesRow_of_completed _ flying completed,
    State.board_drainCounted, drained]

/-- Settles O47: the boundary tests by the lemmas of Ends, the lists by what each kind takes off them, and the job's part
by the fields that a completed row changes. -/
theorem placeEnds : Obligations.PlaceEnds := by
  refine ⟨fun s c op rest held place delivers => ?_, fun s c op held =>
    ⟨execBufferDeliveryEnd_of_idle held, execPlaceEnd_of_idle held⟩, fun s c op rest held place delivered closed => ?_⟩
  · intro ends
    have faults {outcome : RowOutcome} (ended : (s.boundary op).getD .bufferFault = outcome)
        (failure : outcome.completed = false) : ends outcome :=
      ⟨_, ended ▸ execBufferDeliveryEnd_of_fault held place delivers, State.operationFails_here rest held failure⟩
    refine ⟨fun lost => faults (by rw [State.boundary_of_losesRow lost]; rfl) rfl,
      fun kept lost => faults (by rw [State.boundary_of_losesTarget kept lost]; rfl) rfl,
      fun passes => faults (by rw [State.boundary_of_passes passes]; rfl) rfl, ?_⟩
    obtain ⟨moves, board, ⟨op', after, lost, kept⟩, contexts⟩ := State.deliveryEnded held
    have port := moves.portStep
    exact ⟨_, op', execBufferDeliveryEnd_of_due held place delivers, (State.settle_context _ c).trans after,
      fun loses => ⟨(lost loses).1, (State.settle_ports _).trans (lost loses).2⟩, fun keeps => (kept keeps).settle,
      fun d other => (State.settle_context _ d).trans (contexts d other), port.rows, port.extents, port.losses,
      port.solver, port.holds, port.requests, port.jobs, port.pacing, port.pending, port.registers, port.sweep,
      port.answers, moves.silent (board ▸ rest), port.begins⟩
  · intro e
    have step := execPlaceEnd_of_due held place delivered closed
    have fails {outcome : RowOutcome} (ended : s.boundary op = some outcome) (failure : outcome.completed = false) :
        ∃ t : State, exec (.placeEnd c) s = .next t ∧ s.OperationFails t c op outcome :=
      ⟨_, State.endPlace_of_ended held ended ▸ step, State.operationFails_here rest held failure⟩
    refine ⟨fun lost => fails (State.boundary_of_losesRow lost) rfl,
      fun kept lost => fails (State.boundary_of_losesTarget kept lost) rfl, fun passes => ?_⟩
    classical
    rw [State.endPlace_eq rest held (State.boundary_of_passes passes)] at step
    have alike := s.endsAlike_withLists c (s.lossesLeft op) (s.unsettledLeft op) (decide (s.Touches op))
    generalize lists : s.withLists (s.lossesLeft op) (s.unsettledLeft op) (decide (s.Touches op)) = u at *
    have asked : u.board.publishAsked = decide (s.Touches op) := lists ▸ rfl
    have present : u.context c = some op := lists ▸ held
    have jobs (j : JobId) : u.job j = s.job j := lists ▸ rfl
    have ends := State.operationEnded present alike op.outcome
      (op.kind == .writeRow && decide (0 < (s.removedFor op).2.1))
      (op.kind == .resyncRow && (s.settledFor op).isSome)
    have losses := u.losses_endOperationWith c op.outcome
      (op.kind == .writeRow && decide (0 < (s.removedFor op).2.1))
      (op.kind == .resyncRow && (s.settledFor op).isSome)
    have unsettled := u.unsettled_endOperationWith c op.outcome
      (op.kind == .writeRow && decide (0 < (s.removedFor op).2.1))
      (op.kind == .resyncRow && (s.settledFor op).isSome)
    generalize ended : u.endOperationWith c op.outcome (op.kind == .writeRow && decide (0 < (s.removedFor op).2.1))
      (op.kind == .resyncRow && (s.settledFor op).isSome) = v at *
    obtain ⟨publishes, silent⟩ := State.publish_of_ended present alike ended
    refine ⟨_, step, ends, ?_, ?_, fun i piece owner => ?_, fun j owner kind on legal flies => ?_⟩
    · rw [State.settle_losses, losses, ← lists]
      rfl
    · rw [State.settle_rows, unsettled, ← lists]
      rfl
    · have board : v.board = u.board := by
        rw [← ended, State.board_endOperationWith present, u.board_ownerTold _ _ (.inr ⟨i, piece, owner⟩)]
      rw [board, asked] at publishes silent
      exact ⟨fun touches => publishes (decide_eq_true touches), fun still => silent (decide_eq_false still)⟩
    · have untouched : ¬ s.Touches op := by simp [State.Touches, kind]
      obtain ⟨⟨count, job⟩, checkpoint⟩ := State.job_of_completed present owner (jobs j ▸ flies)
        (RowOutcome.completed_outcome op) ended
      rw [asked, decide_eq_false untouched, Bool.false_or] at checkpoint
      rw [jobs, Job.takeCompletion_eq] at job
      have after := State.job_eq_of_agrees (v.settle_job_agrees j)
      rw [job] at after checkpoint
      obtain ⟨stops, same⟩ := Job.advanced_spec legal on flies
      have due : v.board.publishAsked = true ↔ _ := checkpoint ▸ Job.wantsCheckpoint_iff
      rw [after]
      exact ⟨rfl, rfl, rfl, rfl, rfl, rfl, rfl, rfl, stops, same, rfl, rfl, rfl, rfl,
        fun asks => publishes (due.mpr asks), fun still => silent (Bool.eq_false_iff.mpr (mt due.mp still))⟩

end Sys2Proof.Machine
end

section
/-! SUPPORT. What an operation asks of its row, in the terms of Safety (R6, R58, R75): the requested blocks, those on the
loss list, and those it serves. -/

namespace Sys2Proof.Machine

theorem mem_rowOffsets {i : Nat} : i ∈ rowOffsets ↔ i < 16 := List.mem_range

theorem Extent.mem_dataPositions {e : Extent} {row p : Nat} :
    p ∈ e.dataPositions row ↔ ∃ j, j < e.dataCount ∧ e.dataPosition (e.stripeOf row) j = p := by
  simp [Extent.dataPositions]

/-- The position holds parity in stripe `t`. -/
def Extent.Parity (e : Extent) (t p : Nat) : Prop := e.pPosition t = p ∨ e.qPosition t = some p

theorem Extent.isParity_iff_parity {e : Extent} {t p : Nat} : e.isParity t p = true ↔ e.Parity t p :=
  (e.isParity_iff t p).trans (or_congr_left eq_comm)

theorem Ending.mem_unreadable {ending : Ending} {i : Nat} :
    i ∈ ending.unreadable? ↔ ∃ l, ending = .unreadable l ∧ i ∈ l := by
  cases ending <;> simp [Ending.unreadable?]

/-- A read of the port itself reported the block unreadable (R70). -/
def Operation.Unread (op : Operation) (q : PortId) (p i : Nat) : Prop :=
  ∃ r ∈ op.results, r.position = p ∧ r.port = q ∧ ∃ l, r.ending = .unreadable l ∧ i ∈ l

theorem Operation.mem_repairAt {op : Operation} {q : PortId} {p i : Nat} :
    i ∈ op.repairAt q p ↔ i < 16 ∧ op.Unread q p i := by
  simp only [Operation.Unread, Operation.repairAt, List.mem_filter, mem_rowOffsets, List.any_eq_true, Bool.and_eq_true, beq_iff_eq,
    List.contains_iff_mem, Ending.mem_unreadable, and_assoc]

section
variable {s : State} {op : Operation} (legal : (s.extent op.extent).legal)
include legal

/-- The requested offsets of a position are those asked for there (R58). -/
theorem State.mem_requestedAt {p i : Nat} (lt : p < (s.extent op.extent).memberCount) :
    i ∈ op.requestedAt (s.extent op.extent) p ↔ s.Asked op p i := by
  unfold State.Asked
  cases parity : (s.extent op.extent).isParity ((s.extent op.extent).stripeOf op.row) p with
  | true =>
    rw [Operation.requestedAt, Extent.dataIndex_of_parity parity]
    refine iff_of_false List.not_mem_nil ?_
    rintro ⟨-, r, -, strip, -, -, rfl⟩
    exact Bool.noConfusion ((Extent.not_isParity_dataPosition legal strip).symm.trans parity)
  | false =>
    obtain ⟨j, hj, index, position⟩ := Extent.dataIndex_of_data legal lt parity
    rw [Operation.requestedAt, index]
    simp only [List.mem_filter, mem_rowOffsets, List.any_eq_true, Bool.and_eq_true, beq_iff_eq, decide_eq_true_eq]
    refine and_congr_right fun _ => exists_congr fun r => and_congr_right fun _ => ?_
    constructor
    · rintro ⟨⟨rfl, low⟩, high⟩
      exact ⟨hj, low, high, position⟩
    · rintro ⟨strip, low, high, same⟩
      exact ⟨⟨Extent.dataPosition_injective legal strip hj (same.trans position.symm), low⟩, high⟩

omit legal in
theorem State.Asked.mem_dataPositions {p i : Nat} (h : s.Asked op p i) :
    p ∈ (s.extent op.extent).dataPositions op.row := by
  obtain ⟨-, r, -, strip, -, -, position⟩ := h
  exact Extent.mem_dataPositions.mpr ⟨_, strip, position⟩

theorem State.lt_of_mem_dataPositions {p : Nat} (h : p ∈ (s.extent op.extent).dataPositions op.row) :
    p < (s.extent op.extent).memberCount :=
  Extent.rowPositions_lt legal (List.mem_append_left _ h)

/-- The listed blocks of a READ_ROW (R75, R129). -/
theorem State.mem_listedBlocks {p i : Nat} : (p, i) ∈ s.listedBlocks op ↔ s.AskedListed op p i := by
  have block {j : Nat} (hj : j < (s.extent op.extent).dataCount) (t : Nat) :
      (s.extent op.extent).arrayBlockAt op.row ((s.extent op.extent).dataPosition
        ((s.extent op.extent).stripeOf op.row) j) t = some ((s.extent op.extent).arrayBlock op.row j t) := by
    rw [Extent.arrayBlockAt, Extent.dataIndex_dataPosition legal hj]
    rfl
  simp only [State.listedBlocks, List.mem_flatMap, List.mem_filterMap]
  constructor
  · rintro ⟨q, data, t, requested, found⟩
    have asked := (State.mem_requestedAt legal (State.lt_of_mem_dataPositions legal data)).mp requested
    obtain ⟨j, hj, rfl⟩ := Extent.mem_dataPositions.mp data
    rw [block hj] at found
    dsimp only at found
    split at found
    · rename_i listed
      cases found
      exact ⟨asked, j, hj, rfl, listed⟩
    · cases found
  · rintro ⟨asked, j, hj, rfl, listed⟩
    have data := asked.mem_dataPositions
    refine ⟨_, data, i, (State.mem_requestedAt legal (State.lt_of_mem_dataPositions legal data)).mpr asked, ?_⟩
    rw [block hj]
    exact if_pos listed

/-- The unlisted requested offsets of a position are those served there (R75). -/
theorem State.mem_unlistedAt {p i : Nat} (lt : p < (s.extent op.extent).memberCount) :
    i ∈ unlistedAt (s.extent op.extent) op (s.listedBlocks op) p ↔ s.Serves op p i := by
  rw [unlistedAt, List.mem_filter, State.mem_requestedAt legal lt, Bool.not_eq_true', ← Bool.not_eq_true,
    List.contains_iff_mem, State.mem_listedBlocks legal]
  rfl

end

end Sys2Proof.Machine
end

section
/-! O40, part 2: where the writes of an operation go, and the runs in which they go there (R64, R70). -/

namespace Sys2Proof.Machine

/-! ## Runs by repair mark -/

/-- What `runsByMark` makes of ascending offsets: the runs cover exactly them, each has one mark, and no two touch with the
same mark. -/
structure RunsCover (repairs offsets : List Nat) (runs : List (Nat × Nat × Bool)) : Prop where
  cover : ∀ i, i ∈ offsets ↔ ∃ r ∈ runs, r.1 ≤ i ∧ i < r.1 + r.2.1
  marks : ∀ r ∈ runs, 1 ≤ r.2.1 ∧ ∀ i, r.1 ≤ i → i < r.1 + r.2.1 → (r.2.2 = true ↔ i ∈ repairs)
  apart : runs.Pairwise fun a b => a.1 + a.2.1 < b.1 ∨ (a.1 + a.2.1 = b.1 ∧ a.2.2 ≠ b.2.2)

theorem RunsCover.nil (repairs : List Nat) : RunsCover repairs [] [] := ⟨by simp, by simp, .nil⟩

/-- An offset before the others, as a run of its own. -/
theorem RunsCover.cons_run {repairs rest : List Nat} {runs : List (Nat × Nat × Bool)} (h : RunsCover repairs rest runs)
    {t : Nat} {mark : Bool} (marked : mark = true ↔ t ∈ repairs)
    (apart : ∀ r ∈ runs, t + 1 < r.1 ∨ (t + 1 = r.1 ∧ mark ≠ r.2.2)) :
    RunsCover repairs (t :: rest) ((t, 1, mark) :: runs) where
  cover i := by
    rw [List.mem_cons, h.cover]
    have here : i = t ↔ t ≤ i ∧ i < t + 1 := by omega
    simp [here]
  marks r mem := by
    rcases List.mem_cons.mp mem with rfl | mem
    · refine ⟨le_rfl, fun i low high => ?_⟩
      obtain rfl : i = t := by dsimp only at low high; omega
      exact marked
    · exact h.marks r mem
  apart := List.pairwise_cons.mpr ⟨apart, h.apart⟩

/-- An offset next to the first run and of its mark, joined to it. -/
theorem RunsCover.cons_join {repairs rest : List Nat} {first count : Nat} {mark : Bool} {more : List (Nat × Nat × Bool)}
    (h : RunsCover repairs rest ((first, count, mark) :: more)) {t : Nat} (next : first = t + 1)
    (marked : mark = true ↔ t ∈ repairs) : RunsCover repairs (t :: rest) ((t, count + 1, mark) :: more) where
  cover i := by
    have wider : i = t ∨ (first ≤ i ∧ i < first + count) ↔ t ≤ i ∧ i < t + (count + 1) := by omega
    rw [List.mem_cons, h.cover]
    simp only [List.exists_mem_cons_iff, ← or_assoc, wider]
  marks r mem := by
    rcases List.mem_cons.mp mem with rfl | mem
    · refine ⟨Nat.le_add_left 1 count, fun i low high => ?_⟩
      by_cases here : i = t
      · exact here ▸ marked
      · exact (h.marks _ List.mem_cons_self).2 i (by dsimp only at *; omega) (by dsimp only at *; omega)
    · exact h.marks r (List.mem_cons_of_mem _ mem)
  apart := by
    obtain ⟨head, tail⟩ := List.pairwise_cons.mp h.apart
    refine List.pairwise_cons.mpr ⟨fun r mem => ?_, tail⟩
    have same : t + (count + 1) = first + count := by omega
    dsimp only
    rw [same]
    exact head r mem

theorem runsByMark_cover (repairs : List Nat) {offsets : List Nat} (ascending : offsets.Pairwise (· < ·)) :
    RunsCover repairs offsets (runsByMark repairs offsets) := by
  induction offsets with
  | nil => exact .nil repairs
  | cons t rest ih =>
    obtain ⟨above, ascending⟩ := List.pairwise_cons.mp ascending
    have runs := ih ascending
    have marked : repairs.contains t = true ↔ t ∈ repairs := by simp
    have after (r : Nat × Nat × Bool) (mem : r ∈ runsByMark repairs rest) : t < r.1 :=
      above _ ((runs.cover r.1).mpr ⟨r, mem, le_rfl, by have := (runs.marks r mem).1; omega⟩)
    unfold runsByMark
    cases found : runsByMark repairs rest with
    | nil => exact (found ▸ runs).cons_run marked (by simp)
    | cons r more =>
      obtain ⟨first, count, mark⟩ := r
      rw [found] at runs after
      dsimp only
      by_cases joins : first = t + 1 ∧ mark = repairs.contains t
      · rw [if_pos joins]
        exact runs.cons_join joins.1 (joins.2 ▸ marked)
      · rw [if_neg joins]
        have next := after _ List.mem_cons_self
        have lone := (runs.marks _ List.mem_cons_self).1
        dsimp only at next lone
        refine runs.cons_run marked fun r mem => ?_
        rcases List.mem_cons.mp mem with rfl | mem
        · rcases Nat.lt_or_eq_of_le next with gap | touch
          · exact .inl gap
          · exact .inr ⟨touch, fun same => joins ⟨touch.symm, same.symm⟩⟩
        · have := (List.pairwise_cons.mp runs.apart).1 r mem
          dsimp only at this ⊢
          omega

/-! ## The offsets written -/

/-- The block is written to the ONLINE port `q` of the target list, by the kind of the operation. -/
def State.WritesListed (s : State) (op : Operation) (q : PortId) (p i : Nat) : Prop :=
  let e := s.extent op.extent
  match op.kind with
  | .rebuildRow => op.Unread q p i ∨ (e.Parity (e.stripeOf op.row) p ∧ i ∈ op.closed)
  | .readRow => op.Unread q p i ∧ ∃ r ∈ op.record, r.position = p ∧ r.offset = i ∧ r.origin = .solved
  | .writeRow =>
    e.Parity (e.stripeOf op.row) p ∨ op.decided p = some q ∨ s.Asked op p i ∨ op.Unread q p i
  | .resyncRow => e.Parity (e.stripeOf op.row) p

/-- Position `p` is written to the TARGET `q`, by the kind of the operation. -/
def State.WritesTarget (s : State) (op : Operation) (q : PortId) (p : Nat) : Prop :=
  let e := s.extent op.extent
  match op.kind with
  | .rebuildRow => ∃ j, op.owner = .job j ∧ (s.job j).targetOf p = some q
  | .readRow => False
  | .writeRow => op.decided p = some q ∧ ∃ j, s.jobOn op.extent = some j ∧ (s.job j).targetOf p = some q
  | .resyncRow => e.Parity (e.stripeOf op.row) p ∧
    op.decided p = some q ∧ ∃ j, s.jobOn op.extent = some j ∧ (s.job j).targetOf p = some q

theorem State.writes_iff {s : State} {op : Operation} {q : PortId} {p i : Nat} : s.Writes op q p i ↔
    i < 16 ∧ p < (s.extent op.extent).memberCount ∧
      (((s.extent op.extent).targets[p]? = some q ∧ (s.port q).memberState = .online ∧ s.WritesListed op q p i) ∨
        ((s.port q).memberState = .target ∧ s.WritesTarget op q p)) := .rfl

/-- All sixteen offsets where a condition holds, and none elsewhere. -/
theorem mem_rowOffsets_if {P : Prop} {b : Bool} (same : b = true ↔ P) {i : Nat} :
    (i ∈ if b then rowOffsets else []) ↔ i < 16 ∧ P := by
  rw [← same]
  cases b <;> simp [mem_rowOffsets]

/-- What goes to an ONLINE port of the target list. -/
theorem State.mem_listedOffsets {s : State} {op : Operation} (legal : (s.extent op.extent).legal) {q : PortId} {p i : Nat}
    (lt : p < (s.extent op.extent).memberCount) :
    i ∈ op.listedOffsets (s.extent op.extent) q p ↔ i < 16 ∧ s.WritesListed op q p i := by
  have asked : i ∈ op.requestedAt (s.extent op.extent) p ↔ s.Asked op p i := State.mem_requestedAt legal lt
  unfold Operation.listedOffsets State.WritesListed
  cases op.kind with
  | rebuildRow =>
    simp only [List.mem_filter, mem_rowOffsets, Bool.or_eq_true, Bool.and_eq_true, List.contains_iff_mem,
      Extent.isParity_iff_parity, Operation.mem_repairAt]
    exact and_congr_right fun small => by simp only [small, true_and]
  | readRow =>
    simp only [List.mem_filter, mem_rowOffsets, Bool.and_eq_true, List.contains_iff_mem, Operation.mem_repairAt,
      List.any_eq_true, beq_iff_eq, and_assoc]
    exact and_congr_right fun small => by simp only [small, true_and]
  | writeRow =>
    dsimp only
    split
    · rename_i whole
      rw [Bool.or_eq_true, Extent.isParity_iff_parity, beq_iff_eq] at whole
      rw [mem_rowOffsets]
      exact (and_iff_left (whole.imp_right .inl)).symm
    · rename_i some
      rw [Bool.or_eq_true, Extent.isParity_iff_parity, beq_iff_eq, not_or] at some
      simp only [List.mem_filter, mem_rowOffsets, Bool.or_eq_true, List.contains_iff_mem, asked, Operation.mem_repairAt]
      exact and_congr_right fun small => by simp only [small, some, true_and, false_or]
  | resyncRow => exact mem_rowOffsets_if Extent.isParity_iff_parity

/-- What goes to the job's target. -/
theorem State.mem_targetOffsets {s : State} {op : Operation} {q : PortId} {p i : Nat} :
    (s.targetPort op p = some q ∧ i ∈ op.targetOffsets (s.extent op.extent) p) ↔
      i < 16 ∧ (s.port q).memberState = .target ∧ s.WritesTarget op q p := by
  unfold State.targetPort Operation.targetOffsets State.WritesTarget
  cases op.kind with
  | rebuildRow =>
    dsimp only
    rw [State.ownTarget_eq_some, mem_rowOffsets, and_comm]
  | readRow => simp
  | writeRow =>
    dsimp only
    rw [State.decidedTarget_eq_some, mem_rowOffsets, and_comm]
  | resyncRow =>
    dsimp only
    rw [State.decidedTarget_eq_some, mem_rowOffsets_if Extent.isParity_iff_parity]
    tauto

/-- Where the writes of an operation go. -/
theorem State.mem_destinations_iff_writes {s : State} {op : Operation} (legal : (s.extent op.extent).legal) {q : PortId}
    {p i : Nat} : (∃ d ∈ s.destinations op, d.1 = q ∧ d.2.1 = p ∧ i ∈ d.2.2) ↔ s.Writes op q p i := by
  have split : (∃ d ∈ s.destinations op, d.1 = q ∧ d.2.1 = p ∧ i ∈ d.2.2) ↔
      p < (s.extent op.extent).memberCount ∧
        ((s.onlinePort op p = some q ∧ i ∈ op.listedOffsets (s.extent op.extent) q p) ∨
          (s.targetPort op p = some q ∧ i ∈ op.targetOffsets (s.extent op.extent) p)) := by
    constructor
    · rintro ⟨⟨_, _, offsets⟩, mem, rfl, rfl, holds⟩
      obtain ⟨lt, -, ⟨port, same⟩ | ⟨port, same⟩⟩ := State.mem_destinations.mp mem
      · exact ⟨lt, .inl ⟨port, same ▸ holds⟩⟩
      · exact ⟨lt, .inr ⟨port, same ▸ holds⟩⟩
    · rintro ⟨lt, ⟨port, holds⟩ | ⟨port, holds⟩⟩
      · exact ⟨(q, p, _), State.mem_destinations.mpr ⟨lt, List.ne_nil_of_mem holds, .inl ⟨port, rfl⟩⟩, rfl, rfl, holds⟩
      · exact ⟨(q, p, _), State.mem_destinations.mpr ⟨lt, List.ne_nil_of_mem holds, .inr ⟨port, rfl⟩⟩, rfl, rfl, holds⟩
  rw [split, State.mem_targetOffsets, State.onlinePort_eq_some, State.writes_iff]
  constructor
  · rintro ⟨lt, ⟨⟨port, online⟩, holds⟩ | ⟨small, target, holds⟩⟩
    · obtain ⟨small, holds⟩ := (State.mem_listedOffsets legal lt).mp holds
      exact ⟨small, lt, .inl ⟨port, online, holds⟩⟩
    · exact ⟨small, lt, .inr ⟨target, holds⟩⟩
  · rintro ⟨small, lt, ⟨port, online, holds⟩ | ⟨target, holds⟩⟩
    · exact ⟨lt, .inl ⟨⟨port, online⟩, (State.mem_listedOffsets legal lt).mpr ⟨small, holds⟩⟩⟩
    · exact ⟨lt, .inr ⟨small, target, holds⟩⟩

/-- The offsets of a destination ascend. -/
theorem State.destinations_ascend {s : State} {op : Operation} {d : PortId × Nat × List Nat}
    (mem : d ∈ s.destinations op) : d.2.2.Pairwise (· < ·) := by
  have whole : rowOffsets.Pairwise (· < ·) := List.pairwise_lt_range
  obtain ⟨-, -, ⟨-, same⟩ | ⟨-, same⟩⟩ := State.mem_destinations.mp mem
  · rw [same, Operation.listedOffsets]
    cases op.kind with
    | rebuildRow | readRow => exact whole.filter _
    | writeRow =>
      dsimp only
      split
      · exact whole
      · exact whole.filter _
    | resyncRow =>
      dsimp only
      split
      · exact whole
      · exact .nil
  · rw [same, Operation.targetOffsets]
    cases op.kind with
    | rebuildRow | writeRow => exact whole
    | readRow => exact .nil
    | resyncRow =>
      dsimp only
      split
      · exact whole
      · exact .nil

/-- Each port and position once. -/
theorem State.destinations_nodup (s : State) (op : Operation) :
    ((s.destinations op).map fun d => (d.1, d.2.1)).Nodup := by
  unfold State.destinations
  refine (List.filter_sublist.map _).nodup ?_
  rw [List.map_flatMap]
  refine List.nodup_flatMap.mpr ⟨fun p mem => ?_, ?_⟩
  · have apart {q t : PortId} (online : s.onlinePort op p = some q) (target : s.targetPort op p = some t) : q ≠ t := by
      rintro rfl
      have states := (State.onlinePort_eq_some.mp online).2.symm.trans (State.target_of_targetPort target)
      cases states
    cases online : s.onlinePort op p with
    | none => cases s.targetPort op p <;> simp
    | some q =>
      cases target : s.targetPort op p with
      | none => simp
      | some t => simpa using apart online target
  · refine List.nodup_range.imp fun {a b} differ => ?_
    have position {p : Nat} {x : PortId × Nat} (mem : x ∈ ((s.onlinePort op p).toList.map (fun q =>
        (q, p, op.listedOffsets (s.extent op.extent) q p)) ++ (s.targetPort op p).toList.map fun t =>
        (t, p, op.targetOffsets (s.extent op.extent) p)).map fun d => (d.1, d.2.1)) : x.2 = p := by
      simp only [List.map_append, List.map_map, List.mem_append, List.mem_map, Function.comp] at mem
      rcases mem with ⟨q, -, rfl⟩ | ⟨q, -, rfl⟩ <;> rfl
    exact fun x here there => differ ((position here).symm.trans (position there))

end Sys2Proof.Machine
end

section
/-! SUPPORT. Read sets as the hulls of what they call for (R64, R66, R75): a run of a position reaches from the first to
the last block called for there. -/

namespace Sys2Proof.Machine

/-- The offset lies in the run. -/
def ReadWant.Has (w : ReadWant) (i : Nat) : Prop := w.first ≤ i ∧ i < w.first + w.count

/-- The runs reach over every block called for, and each begins and ends with one. -/
structure Hulls (l : List ReadWant) (calls : Nat → Nat → Prop) : Prop where
  reach : ∀ p i, calls p i → ∃ w ∈ l, w.position = p ∧ w.Has i
  ends : ∀ w ∈ l, 1 ≤ w.count ∧ calls w.position w.first ∧ calls w.position (w.first + w.count - 1)

/-- A run added joins the first run of its position, or comes last. -/
theorem addWant_cases (w : ReadWant) (l : List ReadWant) :
    ((∀ x ∈ l, x.position ≠ w.position) ∧ addWant w l = l ++ [w]) ∨
      ∃ before x after, l = before ++ x :: after ∧ x.position = w.position ∧
        addWant w l = before ++ x.join w :: after := by
  induction l with
  | nil => exact .inl ⟨by simp, rfl⟩
  | cons x rest ih =>
    unfold addWant
    by_cases same : x.position = w.position
    · rw [if_pos same]
      exact .inr ⟨[], x, rest, rfl, same, rfl⟩
    · rw [if_neg same]
      rcases ih with ⟨others, last⟩ | ⟨before, y, after, rfl, here, joined⟩
      · exact .inl ⟨List.forall_mem_cons.mpr ⟨same, others⟩, congrArg (x :: ·) last⟩
      · exact .inr ⟨x :: before, y, after, rfl, here, congrArg (x :: ·) joined⟩

namespace Hulls

variable {l a b : List ReadWant} {calls more : Nat → Nat → Prop}

theorem congr (h : Hulls l calls) (same : ∀ p i, calls p i ↔ more p i) : Hulls l more := by
  obtain rfl : calls = more := funext fun p => funext fun i => propext (same p i)
  exact h

theorem nil : Hulls [] fun _ _ => False := ⟨fun _ _ => False.elim, by simp⟩

theorem append (h : Hulls a calls) (k : Hulls b more) : Hulls (a ++ b) fun p i => calls p i ∨ more p i where
  reach p i called := by
    rcases called with called | called
    · obtain ⟨w, mem, has⟩ := h.reach p i called
      exact ⟨w, List.mem_append_left _ mem, has⟩
    · obtain ⟨w, mem, has⟩ := k.reach p i called
      exact ⟨w, List.mem_append_right _ mem, has⟩
  ends w mem := by
    rcases List.mem_append.mp mem with mem | mem
    · obtain ⟨pos, first, last⟩ := h.ends w mem
      exact ⟨pos, .inl first, .inl last⟩
    · obtain ⟨pos, first, last⟩ := k.ends w mem
      exact ⟨pos, .inr first, .inr last⟩

theorem flatMap {α : Type} {xs : List α} {f : α → List ReadWant} {calls : α → Nat → Nat → Prop}
    (h : ∀ x ∈ xs, Hulls (f x) (calls x)) : Hulls (xs.flatMap f) fun p i => ∃ x ∈ xs, calls x p i where
  reach p i := by
    rintro ⟨x, mem, called⟩
    obtain ⟨w, run, has⟩ := (h x mem).reach p i called
    exact ⟨w, List.mem_flatMap.mpr ⟨x, mem, run⟩, has⟩
  ends w mem := by
    obtain ⟨x, mem, run⟩ := List.mem_flatMap.mp mem
    obtain ⟨pos, first, last⟩ := (h x mem).ends w run
    exact ⟨pos, ⟨x, mem, first⟩, ⟨x, mem, last⟩⟩

/-- Runs that are called for from end to end. -/
theorem of_runs (pos : ∀ w ∈ l, 1 ≤ w.count) : Hulls l fun p i => ∃ w ∈ l, w.position = p ∧ w.Has i where
  reach _ _ := id
  ends w mem := by
    have := pos w mem
    exact ⟨this, ⟨w, mem, rfl, by unfold ReadWant.Has; omega⟩, ⟨w, mem, rfl, by unfold ReadWant.Has; omega⟩⟩

theorem wholeStrips (positions : List Nat) :
    Hulls (positions.map wholeStrip) fun p i => p ∈ positions ∧ i < 16 := by
  have whole : ∀ w ∈ positions.map wholeStrip, 1 ≤ w.count := by
    intro w mem
    obtain ⟨p, -, rfl⟩ := List.mem_map.mp mem
    exact Nat.le_add_left 1 15
  refine (of_runs whole).congr fun p i => ?_
  simp [ReadWant.Has, wholeStrip]

/-- The order of the runs, and a run twice, do not matter. -/
theorem of_mem_iff (h : Hulls a calls) (same : ∀ w, w ∈ a ↔ w ∈ b) : Hulls b calls where
  reach p i called := by
    obtain ⟨w, mem, has⟩ := h.reach p i called
    exact ⟨w, (same w).mp mem, has⟩
  ends w mem := h.ends w ((same w).mpr mem)

theorem join {x w : ReadWant} (h : Hulls (x :: w :: l) calls) (same : x.position = w.position) :
    Hulls (x.join w :: l) calls where
  reach p i called := by
    obtain ⟨v, mem, position, has⟩ := h.reach p i called
    have wider {v : ReadWant} (within : (x.join w).first ≤ v.first ∧
        v.first + v.count ≤ (x.join w).first + (x.join w).count) (has : v.Has i) : (x.join w).Has i := by
      unfold ReadWant.Has at *
      omega
    simp only [List.mem_cons] at mem
    rcases mem with rfl | rfl | mem
    · exact ⟨_, List.mem_cons_self, position, wider (by simp only [ReadWant.join]; omega) has⟩
    · exact ⟨_, List.mem_cons_self, same.trans position, wider (by simp only [ReadWant.join]; omega) has⟩
    · exact ⟨v, List.mem_cons_of_mem _ mem, position, has⟩
  ends v mem := by
    rcases List.mem_cons.mp mem with rfl | mem
    · obtain ⟨posX, firstX, lastX⟩ := h.ends x (by simp)
      obtain ⟨posW, firstW, lastW⟩ := h.ends w (by simp)
      rw [← same] at firstW lastW
      refine ⟨by simp only [ReadWant.join]; omega, ?_, ?_⟩
      · show calls x.position (min x.first w.first)
        rcases min_choice x.first w.first with low | low <;> rw [low] <;> assumption
      · show calls x.position (min x.first w.first +
          (max (x.first + x.count) (w.first + w.count) - min x.first w.first) - 1)
        rcases Nat.le_total (x.first + x.count) (w.first + w.count) with le | le
        · rw [max_eq_right le]
          rwa [show min x.first w.first + (w.first + w.count - min x.first w.first) - 1 = w.first + w.count - 1 by omega]
        · rw [max_eq_left le]
          rwa [show min x.first w.first + (x.first + x.count - min x.first w.first) - 1 = x.first + x.count - 1 by omega]
    · exact h.ends v (by simp [mem])

theorem addWant {w : ReadWant} (h : Hulls (w :: (a ++ b)) calls) : Hulls (addWant w a ++ b) calls := by
  rcases addWant_cases w a with ⟨-, last⟩ | ⟨before, x, after, rfl, same, joined⟩
  · rw [last]
    exact h.of_mem_iff fun v => by
      simp only [List.mem_cons, List.mem_append]
      tauto
  · rw [joined]
    have front : Hulls (x :: w :: (before ++ after ++ b)) calls := h.of_mem_iff fun v => by
      simp only [List.mem_cons, List.mem_append]
      tauto
    exact (front.join same).of_mem_iff fun v => by
      simp only [List.mem_cons, List.mem_append]
      tauto

/-- The union of two read sets calls for what both call for. -/
theorem unionWants (h : Hulls (a ++ b) calls) : Hulls (unionWants a b) calls := by
  induction b generalizing a with
  | nil => simpa [Machine.unionWants] using h
  | cons w rest ih =>
    have front : Hulls (w :: (a ++ rest)) calls := h.of_mem_iff fun v => by
      simp only [List.mem_cons, List.mem_append]
      tauto
    exact ih front.addWant

/-- The run of some offsets calls for them. -/
theorem spanOf (p : Nat) (offsets : List Nat) : Hulls (spanOf p offsets) fun q i => q = p ∧ i ∈ offsets := by
  cases offsets with
  | nil => exact nil.congr fun q i => by simp
  | cons t rest =>
    obtain ⟨lowMem, least⟩ := List.min?_eq_some_iff.mp (List.min?_cons' (x := t) (xs := rest))
    obtain ⟨highMem, greatest⟩ := List.max?_eq_some_iff.mp (List.max?_cons' (x := t) (xs := rest))
    have between := least _ highMem
    constructor
    · rintro q i ⟨rfl, mem⟩
      have := least i mem
      have := greatest i mem
      refine ⟨_, List.mem_singleton_self _, rfl, ?_⟩
      simp only [ReadWant.Has]
      omega
    · intro w mem
      obtain rfl := List.mem_singleton.mp mem
      refine ⟨by dsimp only; omega, ⟨rfl, lowMem⟩, rfl, ?_⟩
      dsimp only
      rwa [show rest.foldl min t + (rest.foldl max t + 1 - rest.foldl min t) - 1 = rest.foldl max t by omega]

end Hulls

/-! ## One run for each position -/

theorem positions_addWant (w : ReadWant) (l : List ReadWant) : (addWant w l).map ReadWant.position =
    if w.position ∈ l.map ReadWant.position then l.map ReadWant.position
    else l.map ReadWant.position ++ [w.position] := by
  rcases addWant_cases w l with ⟨others, last⟩ | ⟨before, x, after, rfl, same, joined⟩
  · rw [last, if_neg]
    · simp
    · rintro mem
      obtain ⟨x, mem, same⟩ := List.mem_map.mp mem
      exact others x mem same
  · rw [joined, if_pos]
    · simp [ReadWant.join]
    · simp [same]

theorem positions_nodup_unionWants {a : List ReadWant} (b : List ReadWant) (h : (a.map ReadWant.position).Nodup) :
    ((unionWants a b).map ReadWant.position).Nodup := by
  induction b generalizing a with
  | nil => exact h
  | cons w rest ih =>
    refine ih ?_
    rw [positions_addWant]
    split
    · exact h
    · rename_i new
      exact List.nodup_append.mpr ⟨h, List.nodup_singleton _, by
        rintro x mem y single rfl
        exact new (List.mem_singleton.mp single ▸ mem)⟩

end Sys2Proof.Machine
end

section
/-! O40, part 1: what a plan reads, produces and reserves, by the kind of the operation (R61, R64, R72, R73, R75, R77, R79). -/

namespace Sys2Proof.Machine

/-! ## Positions unavailable for the row -/

/-- The positions of its extent that are unavailable for the row of the operation (R11). -/
def State.gonePositions (s : State) (op : Operation) : List Nat :=
  (s.extent op.extent).positions.filter fun p => !s.available op.extent p op.row

/-- Position `p` is unavailable for the row of the operation. -/
def State.Gone (s : State) (op : Operation) (p : Nat) : Prop :=
  p < (s.extent op.extent).memberCount ∧ s.servingPort op.extent p op.row = none

theorem State.mem_gonePositions {s : State} {op : Operation} {p : Nat} : p ∈ s.gonePositions op ↔ s.Gone op p := by
  simp [State.gonePositions, State.Gone, Extent.positions, State.available]

/-- Two members of a list in which none stands twice. -/
theorem two_le_length_iff_of_nodup {α : Type} {l : List α} (h : l.Nodup) :
    2 ≤ l.length ↔ ∃ a b, a ≠ b ∧ a ∈ l ∧ b ∈ l := by
  constructor
  · intro two
    match l, two with
    | a :: b :: rest, _ => exact ⟨a, b, (List.pairwise_cons.mp h).1 b (by simp), by simp, by simp⟩
  · rintro ⟨a, b, differ, memA, memB⟩
    match l with
    | [] => exact absurd memA List.not_mem_nil
    | [x] => exact absurd ((List.mem_singleton.mp memA).trans (List.mem_singleton.mp memB).symm) differ
    | x :: y :: rest => simp

theorem State.two_gonePositions {s : State} {op : Operation} :
    2 ≤ (s.gonePositions op).length ↔ ∃ a b, a ≠ b ∧ s.Gone op a ∧ s.Gone op b := by
  have nodup : (s.gonePositions op).Nodup := List.nodup_range.filter _
  simp only [two_le_length_iff_of_nodup nodup, State.mem_gonePositions]

/-- A serving port stands at a position of the extent. -/
theorem State.lt_of_servingPort {s : State} {op : Operation} {p : Nat} (legal : (s.extent op.extent).legal)
    (serves : s.servingPort op.extent p op.row ≠ none) : p < (s.extent op.extent).memberCount := by
  obtain ⟨-, -, -, -, -, -, targets, -⟩ := legal
  rw [← targets]
  by_contra past
  refine serves ?_
  rw [State.servingPort, State.listedPort, List.getElem?_eq_none (not_lt.mp past)]

theorem State.not_mem_gonePositions {s : State} {op : Operation} {p : Nat}
    (serves : s.servingPort op.extent p op.row ≠ none) : p ∉ s.gonePositions op := fun gone =>
  serves (State.mem_gonePositions.mp gone).2

/-! ## The sources of a copy row (R73) -/

theorem State.copySource_eq_some {s : State} {op : Operation} (kind : op.kind = .rebuildRow) {p : Nat} :
    s.copySource op = some p ↔ s.CopiesFrom op p := by
  unfold State.copySource State.CopiesFrom Operation.ownJob
  cases op.owner with
  | slip i piece => simp
  | job j =>
    have serves (q : PortId) : (s.port q).serves = true ↔ (s.port q).memberState = .online ∧ (s.port q).stalled = false := by
      simp [Port.serves]
    dsimp only
    cases mode : (s.job j).mode with
    | reconstruct => simp [mode]
    | copy =>
      cases outgoing : (s.job j).outgoing with
      | none => simp [outgoing]
      | some q =>
        cases sources : (s.job j).sources with
        | nil => simp [sources]
        | cons x rest =>
          dsimp only
          split
          · rename_i goes
            simp [kind, mode, outgoing, sources, (serves q).mp goes]
          · rename_i stops
            rw [serves] at stops
            simp only [reduceCtorEq, false_iff]
            rintro ⟨-, k, q', y, same, -, out, -, -, online, flows⟩
            cases same
            cases outgoing.symm.trans out
            exact stops ⟨online, flows⟩

/-! ## Read sets by kind (R64 step 6) -/

/-- The runs reach over what `calls` asks of the positions that have a port serving them. -/
def State.HullsServed (s : State) (op : Operation) (l : List ReadWant) (calls : Nat → Nat → Prop) : Prop :=
  ∃ all, Hulls l all ∧ ∀ p, s.servingPort op.extent p op.row ≠ none → ∀ i, all p i ↔ calls p i

/-- The available positions with data, with P, and with Q where two positions are unavailable (R72). -/
def reconstructPositions (e : Extent) (row : Nat) (unavailable : List Nat) : List Nat :=
  let free := fun p => !unavailable.contains p
  (e.dataPositions row).filter free ++ [e.pPosition (e.stripeOf row)].filter free ++
    (if 2 ≤ unavailable.length then (e.qPosition (e.stripeOf row)).toList.filter free else [])

/-- Data, P, or Q where two positions are unavailable. -/
def State.Others (s : State) (op : Operation) (p : Nat) : Prop :=
  let e := s.extent op.extent
  p ∈ e.dataPositions op.row ∨ e.pPosition (e.stripeOf op.row) = p ∨
    (e.qPosition (e.stripeOf op.row) = some p ∧ ∃ a b, a ≠ b ∧ s.Gone op a ∧ s.Gone op b)

theorem filter_if_sublist {α : Type} {P : Prop} [Decidable P] (l : List α) (f : α → Bool) :
    (if P then l.filter f else []).Sublist l := by
  split
  · exact List.filter_sublist
  · exact List.nil_sublist l

theorem mem_if_filter {α : Type} {P : Prop} [Decidable P] {l : List α} {f : α → Bool} {x : α} :
    (x ∈ if P then l.filter f else []) ↔ P ∧ x ∈ l ∧ f x = true := by
  split <;> simp_all

/-- Positions taken from data, P and Q in turn, each once. -/
theorem rowSublist_nodup {e : Extent} (legal : e.legal) {row : Nat} {a b c : List Nat}
    (data : a.Sublist (e.dataPositions row)) (p : b.Sublist [e.pPosition (e.stripeOf row)])
    (q : c.Sublist (e.qPosition (e.stripeOf row)).toList) : (a ++ b ++ c).Nodup := by
  refine List.Nodup.sublist ?_ (Extent.rowPositions_nodup legal row)
  rw [List.append_assoc]
  exact data.append (p.append q)

theorem map_position_wholeStrip (l : List Nat) : (l.map wholeStrip).map ReadWant.position = l := by
  rw [List.map_map]
  exact List.map_id l

section
variable {s : State} {op : Operation}

theorem State.mem_reconstructPositions {p : Nat} (serves : s.servingPort op.extent p op.row ≠ none) :
    p ∈ reconstructPositions (s.extent op.extent) op.row (s.gonePositions op) ↔ s.Others op p := by
  have free := State.not_mem_gonePositions serves
  unfold reconstructPositions State.Others
  dsimp only
  rw [← State.two_gonePositions]
  by_cases two : 2 ≤ (s.gonePositions op).length
  · simp [two, free, eq_comm (a := p)]
  · simp [two, free, eq_comm (a := p)]

theorem reconstructPositions_nodup {e : Extent} (legal : e.legal) (row : Nat) (unavailable : List Nat) :
    (reconstructPositions e row unavailable).Nodup :=
  rowSublist_nodup legal List.filter_sublist List.filter_sublist (filter_if_sublist _ _)

theorem reconstructReads_eq (e : Extent) (row : Nat) (unavailable : List Nat) :
    reconstructReads e row unavailable = (reconstructPositions e row unavailable).map wholeStrip := rfl

/-- Whole strips. -/
theorem State.hullsServed_wholeStrips {positions : List Nat} {calls : Nat → Prop}
    (same : ∀ p, s.servingPort op.extent p op.row ≠ none → (p ∈ positions ↔ calls p)) :
    s.HullsServed op (positions.map wholeStrip) fun p i => i < 16 ∧ calls p :=
  ⟨_, .wholeStrips positions, fun p serves i => by rw [same p serves, and_comm]⟩

theorem State.HullsServed.congr {l : List ReadWant} {calls more : Nat → Nat → Prop} (h : s.HullsServed op l calls)
    (same : ∀ p i, calls p i ↔ more p i) : s.HullsServed op l more := by
  obtain ⟨all, hulls, served⟩ := h
  exact ⟨all, hulls, fun p serves i => (served p serves i).trans (same p i)⟩

theorem State.HullsServed.unionWants {a b : List ReadWant} {calls more : Nat → Nat → Prop} (h : s.HullsServed op a calls)
    (k : s.HullsServed op b more) : s.HullsServed op (unionWants a b) fun p i => calls p i ∨ more p i := by
  obtain ⟨all, hulls, served⟩ := h
  obtain ⟨others, union, alike⟩ := k
  exact ⟨_, (hulls.append union).unionWants, fun p serves i => or_congr (served p serves i) (alike p serves i)⟩

/-- The read set of a REBUILD_ROW (R72, R73). -/
theorem State.hullsServed_rebuild (kind : op.kind = .rebuildRow) (listed : List (Nat × Nat)) :
    s.HullsServed op (s.kindReads op (s.gonePositions op) listed) fun p i => i < 16 ∧
      ((s.CopiesFrom op p ∨ (¬ (∃ source, s.CopiesFrom op source) ∧ s.Others op p)) ∨
        ((∃ source, s.CopiesFrom op source ∧ ∃ w ∈ op.carried, w.position ≠ source) ∧ s.Others op p)) := by
  have reconstruct := State.hullsServed_wholeStrips fun p serves => State.mem_reconstructPositions (s := s) (op := op) serves
  rw [← reconstructReads_eq] at reconstruct
  simp only [State.kindReads, kind]
  cases copies : s.copySource op with
  | none =>
    have none : ∀ source, ¬ s.CopiesFrom op source := fun source from' => by
      rw [← State.copySource_eq_some kind, copies] at from'
      cases from'
    exact reconstruct.congr fun p i => by simp [none]
  | some source =>
    have only (p : Nat) : s.CopiesFrom op p ↔ source = p := by
      rw [← State.copySource_eq_some kind, copies, Option.some.injEq]
    have strip : s.HullsServed op ([source].map wholeStrip) fun p i => i < 16 ∧ s.CopiesFrom op p :=
      State.hullsServed_wholeStrips fun p _ => by rw [only, List.mem_singleton, eq_comm]
    dsimp only [copyReads]
    by_cases wider : ∃ w ∈ op.carried, w.position ≠ source
    · rw [if_pos (by simpa using wider)]
      refine (reconstruct.unionWants strip).congr fun p i => ?_
      simp only [only, exists_eq_left', wider, true_and, exists_eq', not_true_eq_false, false_and, or_false, ← and_or_left]
      rw [or_comm]
    · rw [if_neg (by simpa using wider)]
      exact strip.congr fun p i => by
        simp only [only, exists_eq_left', wider, false_and, exists_eq', not_true_eq_false, or_false]

/-- The requested offsets of a position ascend in the row. -/
theorem requestedAt_sublist (e : Extent) (op : Operation) (p : Nat) : (op.requestedAt e p).Sublist rowOffsets := by
  unfold Operation.requestedAt
  cases e.dataIndex (e.stripeOf op.row) p with
  | none => exact List.nil_sublist _
  | some j => exact List.filter_sublist

/-- The data position is not covered at all sixteen offsets (R77). -/
def State.Part (s : State) (op : Operation) (p : Nat) : Prop :=
  p ∈ (s.extent op.extent).dataPositions op.row ∧ ∃ i, i < 16 ∧ ¬ s.Asked op p i

theorem State.whollyCovered_iff (legal : (s.extent op.extent).legal) {p : Nat}
    (lt : p < (s.extent op.extent).memberCount) :
    op.whollyCovered (s.extent op.extent) p = true ↔ ∀ i, i < 16 → s.Asked op p i := by
  have within := requestedAt_sublist (s.extent op.extent) op p
  rw [Operation.whollyCovered, beq_iff_eq]
  constructor
  · intro all i small
    have whole : op.requestedAt (s.extent op.extent) p = rowOffsets := within.eq_of_length all
    rw [← State.mem_requestedAt legal lt, whole]
    exact mem_rowOffsets.mpr small
  · intro all
    have covers : rowOffsets ⊆ op.requestedAt (s.extent op.extent) p := fun i mem =>
      (State.mem_requestedAt legal lt).mpr (all i (mem_rowOffsets.mp mem))
    have nodup : rowOffsets.Nodup := List.nodup_range
    exact le_antisymm within.length_le (nodup.subperm covers).length_le

/-- The data positions that are not wholly covered. -/
def Operation.parts (e : Extent) (op : Operation) : List Nat :=
  (e.dataPositions op.row).filter fun p => !op.whollyCovered e p

theorem State.mem_parts (legal : (s.extent op.extent).legal) {p : Nat} :
    p ∈ op.parts (s.extent op.extent) ↔ s.Part op p := by
  rw [Operation.parts, List.mem_filter]
  refine and_congr_right fun data => ?_
  rw [Bool.not_eq_true', ← Bool.not_eq_true, State.whollyCovered_iff legal (State.lt_of_mem_dataPositions legal data)]
  simp only [not_forall, exists_prop]

theorem Operation.parts_nodup {e : Extent} (legal : e.legal) (op : Operation) : (op.parts e).Nodup :=
  (List.nodup_append.mp (Extent.rowPositions_nodup legal op.row)).1.filter _

/-- The positions that a WRITE_ROW reads (R77). -/
def writePositions (e : Extent) (op : Operation) (unavailable : List Nat) : List Nat :=
  let free := fun p => !unavailable.contains p
  let missing := ((op.parts e).filter fun p => !free p).length
  (op.parts e).filter free ++ (if 1 ≤ missing then [e.pPosition (e.stripeOf op.row)].filter free else []) ++
    (if 2 ≤ missing then (e.qPosition (e.stripeOf op.row)).toList.filter free else [])

theorem writeReads_eq (e : Extent) (op : Operation) (unavailable : List Nat) :
    writeReads e op unavailable = (writePositions e op unavailable).map wholeStrip := rfl

theorem writePositions_nodup {e : Extent} (legal : e.legal) (op : Operation) (unavailable : List Nat) :
    (writePositions e op unavailable).Nodup :=
  rowSublist_nodup legal (List.filter_sublist.trans List.filter_sublist) (filter_if_sublist _ _) (filter_if_sublist _ _)

theorem State.mem_writePositions (legal : (s.extent op.extent).legal) {p : Nat}
    (serves : s.servingPort op.extent p op.row ≠ none) :
    p ∈ writePositions (s.extent op.extent) op (s.gonePositions op) ↔
      s.Part op p ∨ ((s.extent op.extent).pPosition ((s.extent op.extent).stripeOf op.row) = p ∧
          ∃ a, s.Gone op a ∧ s.Part op a) ∨
        ((s.extent op.extent).qPosition ((s.extent op.extent).stripeOf op.row) = some p ∧
          ∃ a b, a ≠ b ∧ s.Gone op a ∧ s.Gone op b ∧ s.Part op a ∧ s.Part op b) := by
  have free := State.not_mem_gonePositions serves
  have missing (a : Nat) : a ∈ ((op.parts (s.extent op.extent)).filter fun p => !!(s.gonePositions op).contains p) ↔
      s.Gone op a ∧ s.Part op a := by
    rw [List.mem_filter, Bool.not_not, List.contains_iff_mem, State.mem_parts legal, State.mem_gonePositions, and_comm]
  have nodup := (Operation.parts_nodup legal op).filter fun p => !!(s.gonePositions op).contains p
  have one : 1 ≤ ((op.parts (s.extent op.extent)).filter fun p => !!(s.gonePositions op).contains p).length ↔
      ∃ a, s.Gone op a ∧ s.Part op a := by
    rw [Nat.one_le_iff_ne_zero, ← Nat.pos_iff_ne_zero, List.length_pos_iff_exists_mem]
    simp only [missing]
  have two : 2 ≤ ((op.parts (s.extent op.extent)).filter fun p => !!(s.gonePositions op).contains p).length ↔
      ∃ a b, a ≠ b ∧ s.Gone op a ∧ s.Gone op b ∧ s.Part op a ∧ s.Part op b := by
    rw [two_le_length_iff_of_nodup nodup]
    simp only [missing]
    exact exists_congr fun a => exists_congr fun b => by tauto
  unfold writePositions
  dsimp only
  rw [← one, ← two, List.mem_append, List.mem_append, or_assoc]
  refine or_congr ?_ (or_congr ?_ ?_)
  · rw [List.mem_filter, State.mem_parts legal]
    simp [free]
  · rw [mem_if_filter]
    simp [free, eq_comm (a := p), and_comm]
  · rw [mem_if_filter]
    simp [free, and_comm]

/-! ## The read set of a READ_ROW (R75) -/

theorem positions_flatMap_spanOf_sublist (l : List Nat) (offsets : Nat → List Nat) :
    ((l.flatMap fun p => spanOf p (offsets p)).map ReadWant.position).Sublist l := by
  induction l with
  | nil => exact .slnil
  | cons p rest ih =>
    rw [List.flatMap_cons, List.map_append]
    cases offsets p with
    | nil => exact ih.cons p
    | cons t more => exact ih.cons_cons p

theorem State.servesSome_iff (legal : (s.extent op.extent).legal) {i : Nat} {f : Nat → Prop} :
    (∃ a, a ∈ (s.extent op.extent).dataPositions op.row ∧ f a ∧
        i ∈ unlistedAt (s.extent op.extent) op (s.listedBlocks op) a) ↔ ∃ a, f a ∧ s.Serves op a i := by
  refine exists_congr fun a => ⟨?_, ?_⟩
  · rintro ⟨data, holds, mem⟩
    exact ⟨holds, (State.mem_unlistedAt legal (State.lt_of_mem_dataPositions legal data)).mp mem⟩
  · rintro ⟨holds, serves⟩
    exact ⟨serves.1.mem_dataPositions, holds,
      (State.mem_unlistedAt legal (serves.1.position_lt legal)).mpr serves⟩

theorem State.hullsServed_readRow (legal : (s.extent op.extent).legal) :
    s.HullsServed op (readReads (s.extent op.extent) op (s.gonePositions op) (s.listedBlocks op)) fun p i =>
      i < 16 ∧ (s.Serves op p i ∨ (s.Others op p ∧ ∃ a, s.Gone op a ∧ s.Serves op a i)) := by
  have own : s.HullsServed op (((s.extent op.extent).dataPositions op.row |>.filter fun p =>
      !(s.gonePositions op).contains p).flatMap fun p =>
        spanOf p (unlistedAt (s.extent op.extent) op (s.listedBlocks op) p)) fun p i => s.Serves op p i := by
    refine ⟨_, .flatMap fun p _ => .spanOf p _, fun p serves i => ?_⟩
    have free := State.not_mem_gonePositions serves
    show _ ↔ s.Serves op p i
    rw [← State.mem_unlistedAt legal (State.lt_of_servingPort legal serves)]
    constructor
    · rintro ⟨q, -, rfl, mem⟩
      exact mem
    · intro mem
      have data := ((State.mem_unlistedAt legal (State.lt_of_servingPort legal serves)).mp mem).1.mem_dataPositions
      exact ⟨p, List.mem_filter.mpr ⟨data, by simpa using free⟩, rfl, mem⟩
  have others : s.HullsServed op ((reconstructPositions (s.extent op.extent) op.row (s.gonePositions op)).flatMap fun p =>
      spanOf p (((s.extent op.extent).dataPositions op.row |>.filter fun p =>
        !!(s.gonePositions op).contains p).flatMap
          (unlistedAt (s.extent op.extent) op (s.listedBlocks op)))) fun p i =>
      s.Others op p ∧ ∃ a, s.Gone op a ∧ s.Serves op a i := by
    refine ⟨_, .flatMap fun p _ => .spanOf p _, fun p serves i => ?_⟩
    show _ ↔ s.Others op p ∧ ∃ a, s.Gone op a ∧ s.Serves op a i
    rw [← State.servesSome_iff legal, ← State.mem_reconstructPositions serves]
    simp only [List.mem_flatMap, List.mem_filter, Bool.not_not, List.contains_iff_mem, State.mem_gonePositions, and_assoc]
    constructor
    · rintro ⟨q, mem, rfl, holds⟩
      exact ⟨mem, holds⟩
    · rintro ⟨mem, holds⟩
      exact ⟨p, mem, rfl, holds⟩
  refine (own.unionWants others).congr fun p i => ?_
  constructor
  · rintro (serves | ⟨other, a, gone, serves⟩)
    · exact ⟨serves.1.1, .inl serves⟩
    · exact ⟨serves.1.1, .inr ⟨other, a, gone, serves⟩⟩
  · exact And.right

/-- The read set of the operation's kind. -/
theorem State.hullsServed_kindReads (legal : (s.extent op.extent).legal) :
    s.HullsServed op (s.kindReads op (s.gonePositions op) (if op.kind = .readRow then s.listedBlocks op else []))
      (s.ReadsFor op) := by
  cases kind : op.kind with
  | rebuildRow => exact (State.hullsServed_rebuild kind _).congr fun p i => by rw [State.ReadsFor, kind]; rfl
  | readRow =>
    simp only [State.kindReads, kind, if_true]
    exact (State.hullsServed_readRow legal).congr fun p i => by rw [State.ReadsFor, kind]; rfl
  | writeRow =>
    simp only [State.kindReads, kind]
    rw [writeReads_eq]
    exact (State.hullsServed_wholeStrips fun p serves => State.mem_writePositions legal serves).congr fun p i => by
      rw [State.ReadsFor, kind]
      rfl
  | resyncRow =>
    simp only [State.kindReads, kind]
    exact (State.hullsServed_wholeStrips fun p _ => Iff.rfl).congr fun p i => by
      rw [State.ReadsFor, kind]

theorem State.kindReads_nodup (legal : (s.extent op.extent).legal) (listed : List (Nat × Nat)) :
    ((s.kindReads op (s.gonePositions op) listed).map ReadWant.position).Nodup := by
  have data := (List.nodup_append.mp (Extent.rowPositions_nodup legal op.row)).1
  have reconstruct := reconstructPositions_nodup legal op.row (s.gonePositions op)
  rw [← map_position_wholeStrip (reconstructPositions _ _ _), ← reconstructReads_eq] at reconstruct
  unfold State.kindReads
  cases op.kind with
  | rebuildRow =>
    cases s.copySource op with
    | none => exact reconstruct
    | some source =>
      dsimp only [copyReads]
      split
      · exact positions_nodup_unionWants _ reconstruct
      · exact List.nodup_singleton _
  | readRow =>
    exact positions_nodup_unionWants _
      ((positions_flatMap_spanOf_sublist _ _).nodup (data.filter _))
  | writeRow =>
    dsimp only
    rw [writeReads_eq, map_position_wholeStrip]
    exact writePositions_nodup legal op _
  | resyncRow =>
    dsimp only
    rw [map_position_wholeStrip]
    exact data

/-! ## The read set carried from an earlier plan (R66) -/

/-- Some block that the operation serves there was found erased and is to be restored (R75; log 11). -/
theorem State.callsAt_iff (legal : (s.extent op.extent).legal) {i : Nat} :
    callsAt (s.extent op.extent) op (s.listedBlocks op) i = true ↔
      (op.erasures (s.extent op.extent) i).length ≤ (s.extent op.extent).parityCount ∧
        ∃ a, op.erased i a = true ∧ s.Serves op a i := by
  rw [← State.servesSome_iff legal]
  simp [callsAt, Operation.unsolvable]

theorem State.mem_servedOffsets (legal : (s.extent op.extent).legal) {i : Nat} :
    i ∈ servedOffsets (s.extent op.extent) op (s.listedBlocks op) ↔ ∃ a, s.Serves op a i := by
  have some := State.servesSome_iff legal (i := i) (f := fun _ => True)
  simp only [true_and] at some
  rw [← some]
  simp only [servedOffsets, List.mem_filter, mem_rowOffsets, List.any_eq_true, List.contains_iff_mem]
  refine and_iff_right_of_imp ?_
  rw [some]
  rintro ⟨a, serves⟩
  exact serves.1.1

theorem State.keepsCarried_iff (legal : (s.extent op.extent).legal) {p i : Nat}
    (lt : p < (s.extent op.extent).memberCount) :
    keepsCarried (s.extent op.extent) op (s.listedBlocks op) p i = true ↔
      ((op.erasures (s.extent op.extent) i).length ≤ (s.extent op.extent).parityCount ∧
          ∃ a, op.erased i a = true ∧ s.Serves op a i) ∨
        (¬ s.AskedListed op p i ∧ ((∀ k, ¬ s.Asked op p k) ∨ ∃ k, s.Serves op p k)) := by
  simp only [keepsCarried, Bool.or_eq_true, Bool.and_eq_true, Bool.not_eq_true', ← Bool.not_eq_true (List.isEmpty _),
    ← Bool.not_eq_true (List.contains _ _), List.contains_iff_mem, List.isEmpty_iff, State.callsAt_iff legal,
    State.mem_listedBlocks legal, List.eq_nil_iff_forall_not_mem, State.mem_requestedAt legal lt,
    State.mem_unlistedAt legal lt, not_forall, not_not]

/-- The read set carried. -/
theorem State.hullsServed_carried (legal : (s.extent op.extent).legal) (pos : ∀ w ∈ op.carried, 1 ≤ w.count) :
    s.HullsServed op (carriedReads (s.extent op.extent) op (if op.kind = .readRow then s.listedBlocks op else []))
      (s.ReadsAgain op) := by
  by_cases kind : op.kind = .readRow
  · rw [if_pos kind, carriedReads, if_pos kind]
    refine ⟨_, .flatMap fun w _ => .spanOf w.position _, fun p serves i => ?_⟩
    have lt := State.lt_of_servingPort legal serves
    unfold State.ReadsAgain
    simp only [kind, true_imp_iff, List.mem_filter, State.mem_servedOffsets legal, Bool.and_eq_true, decide_eq_true_eq]
    constructor
    · rintro ⟨w, mem, rfl, served, within, keeps⟩
      exact ⟨⟨w, mem, rfl, within⟩, served, (State.keepsCarried_iff legal lt).mp keeps⟩
    · rintro ⟨⟨w, mem, rfl, within⟩, served, keeps⟩
      exact ⟨w, mem, rfl, served, within, (State.keepsCarried_iff legal lt).mpr keeps⟩
  · rw [carriedReads, if_neg kind]
    exact ⟨_, .of_runs pos, fun p serves i => by simp only [State.ReadsAgain, kind, false_imp_iff, and_true, ReadWant.Has]⟩

end

end Sys2Proof.Machine
end

section
/-! O40: the plan by the kind of the operation, assembled. -/

namespace Sys2Proof.Machine

/-! ## The reads of a plan -/

/-- The reads of some wants, each at the port that serves its position. -/
def State.readsOf (s : State) (op : Operation) (wants : List ReadWant) : List PlanRead :=
  wants.filterMap fun w => (s.servingPort op.extent w.position op.row).map fun q =>
    ({ position := w.position, port := q, first := w.first, count := w.count } : PlanRead)

section
variable {s : State} {op : Operation}

theorem State.mem_readsOf {wants : List ReadWant} {r : PlanRead} : r ∈ s.readsOf op wants ↔
    s.servingPort op.extent r.position op.row = some r.port ∧
      { position := r.position, first := r.first, count := r.count } ∈ wants := by
  simp only [State.readsOf, List.mem_filterMap, Option.map_eq_some_iff]
  constructor
  · rintro ⟨w, mem, q, serves, rfl⟩
    exact ⟨serves, mem⟩
  · rintro ⟨serves, mem⟩
    exact ⟨_, mem, _, serves, rfl⟩

theorem State.positions_readsOf_sublist (wants : List ReadWant) :
    ((s.readsOf op wants).map PlanRead.position).Sublist (wants.map ReadWant.position) := by
  induction wants with
  | nil => exact .slnil
  | cons w rest ih =>
    rw [State.readsOf, List.filterMap_cons]
    cases s.servingPort op.extent w.position op.row with
    | none => exact ih.cons _
    | some q => exact ih.cons_cons _

/-- For each position that `calls` calls on and that is available, one read over the span called on. -/
structure State.ReadsOver (s : State) (op : Operation) (calls : Nat → Nat → Prop) (reads : List PlanRead) : Prop where
  nodup : (reads.map PlanRead.position).Nodup
  some_iff : ∀ p, (∃ r ∈ reads, r.position = p) ↔ s.servingPort op.extent p op.row ≠ none ∧ ∃ i, calls p i
  spans : ∀ r ∈ reads, s.servingPort op.extent r.position op.row = some r.port ∧ 1 ≤ r.count ∧
    calls r.position r.first ∧ calls r.position (r.first + r.count - 1) ∧
    ∀ i, calls r.position i → r.first ≤ i ∧ i < r.first + r.count

theorem State.readsOver {wants : List ReadWant} {calls : Nat → Nat → Prop} (h : s.HullsServed op wants calls)
    (nodup : (wants.map ReadWant.position).Nodup) : s.ReadsOver op calls (s.readsOf op wants) := by
  obtain ⟨all, hulls, served⟩ := h
  have serves {p : Nat} {q : PortId} (port : s.servingPort op.extent p op.row = some q) :
      s.servingPort op.extent p op.row ≠ none := by simp [port]
  refine ⟨(State.positions_readsOf_sublist wants).nodup nodup, fun p => ⟨?_, ?_⟩, fun r mem => ?_⟩
  · rintro ⟨r, mem, rfl⟩
    obtain ⟨port, want⟩ := State.mem_readsOf.mp mem
    obtain ⟨-, first, -⟩ := hulls.ends _ want
    exact ⟨serves port, _, (served _ (serves port) _).mp first⟩
  · rintro ⟨available, i, called⟩
    obtain ⟨w, mem, rfl, -⟩ := hulls.reach p i ((served p available i).mpr called)
    obtain ⟨q, port⟩ := Option.ne_none_iff_exists'.mp available
    exact ⟨{ position := w.position, port := q, first := w.first, count := w.count },
      State.mem_readsOf.mpr ⟨port, mem⟩, rfl⟩
  · obtain ⟨port, want⟩ := State.mem_readsOf.mp mem
    have same := served _ (serves port)
    obtain ⟨pos, first, last⟩ := hulls.ends _ want
    refine ⟨port, pos, (same _).mp first, (same _).mp last, fun i called => ?_⟩
    obtain ⟨w, mem, position, has⟩ := hulls.reach _ i ((same i).mpr called)
    obtain rfl := List.inj_on_of_nodup_map nodup mem want position
    exact has

/-! ## The outputs of a plan (R64 step 4) -/

theorem Plan.outputAt_iff {plan : Plan} {i p : Nat} :
    plan.outputAt i p = true ↔ ∃ o ∈ plan.outputs, o.position = p ∧ i ∈ o.offsets := by
  simp [Plan.outputAt]

theorem State.mem_kindOutputs (legal : (s.extent op.extent).legal) {p i : Nat} :
    (∃ o ∈ s.kindOutputs op (s.gonePositions op) (if op.kind = .readRow then s.listedBlocks op else []),
      o.position = p ∧ i ∈ o.offsets) ↔ s.Produces op p i := by
  unfold State.kindOutputs State.Produces
  cases kind : op.kind with
  | rebuildRow =>
    dsimp only [Operation.ownJob]
    cases op.owner with
    | slip k piece => simp
    | job j =>
      constructor
      · rintro ⟨o, mem, rfl, small⟩
        obtain ⟨x, source, rfl⟩ := List.mem_map.mp mem
        exact ⟨mem_rowOffsets.mp small, j, rfl, x, source, rfl⟩
      · rintro ⟨small, k, same, x, source, rfl⟩
        cases same
        exact ⟨_, List.mem_map_of_mem source, rfl, mem_rowOffsets.mpr small⟩
  | readRow =>
    dsimp only
    rw [if_pos (rfl : RowKind.readRow = .readRow)]
    constructor
    · rintro ⟨o, mem, rfl, served⟩
      obtain ⟨q, data, found⟩ := List.mem_filterMap.mp mem
      split at found
      · rename_i gone
        cases found
        rw [Bool.and_eq_true, List.contains_iff_mem, State.mem_gonePositions] at gone
        have serves := (State.mem_unlistedAt legal (State.lt_of_mem_dataPositions legal data)).mp served
        exact ⟨serves.1.1, serves, gone.1.2⟩
      · cases found
    · rintro ⟨-, serves, gone⟩
      have data := serves.1.mem_dataPositions
      have lt := State.lt_of_mem_dataPositions legal data
      have served := (State.mem_unlistedAt legal lt).mpr serves
      refine ⟨_, List.mem_filterMap.mpr ⟨p, data, if_pos ?_⟩, rfl, served⟩
      rw [Bool.and_eq_true, List.contains_iff_mem, State.mem_gonePositions, Bool.not_eq_true', List.isEmpty_eq_false_iff]
      exact ⟨⟨lt, gone⟩, List.ne_nil_of_mem served⟩
  | writeRow =>
    dsimp only
    have whole {q : Nat} : ((s.extent op.extent).isParity ((s.extent op.extent).stripeOf op.row) q ||
        (op.decided q).isSome) = true ↔
        (s.extent op.extent).Parity ((s.extent op.extent).stripeOf op.row) q ∨ op.decided q ≠ none := by
      rw [Bool.or_eq_true, Extent.isParity_iff_parity, Option.isSome_iff_ne_none]
    constructor
    · rintro ⟨o, mem, rfl, written⟩
      obtain ⟨q, position, found⟩ := List.mem_filterMap.mp mem
      have lt : q < (s.extent op.extent).memberCount := List.mem_range.mp position
      split at found
      · rename_i all
        cases found
        exact ⟨mem_rowOffsets.mp written, (whole.mp all).imp id fun decided => .inl ⟨lt, decided⟩⟩
      · split at found
        · cases found
        · cases found
          have asked := (State.mem_requestedAt legal lt).mp written
          exact ⟨asked.1, .inr (.inr asked)⟩
    · rintro ⟨small, produced⟩
      have lt : p < (s.extent op.extent).memberCount := by
        rcases produced with parity | ⟨lt, -⟩ | asked
        · refine Extent.rowPositions_lt legal (row := op.row) (List.mem_append_right _ ?_)
          simpa [Extent.parityPositions, eq_comm (a := p)] using parity
        · exact lt
        · exact asked.position_lt legal
      have find {o : PlanOutput} (found : (if (s.extent op.extent).isParity ((s.extent op.extent).stripeOf op.row) p ||
          (op.decided p).isSome then some { position := p, offsets := rowOffsets }
          else if (op.requestedAt (s.extent op.extent) p).isEmpty then none
          else some { position := p, offsets := op.requestedAt (s.extent op.extent) p }) = some o) :
          o ∈ (s.extent op.extent).positions.filterMap fun p =>
            if (s.extent op.extent).isParity ((s.extent op.extent).stripeOf op.row) p || (op.decided p).isSome then
              some { position := p, offsets := rowOffsets }
            else if (op.requestedAt (s.extent op.extent) p).isEmpty then none
            else some { position := p, offsets := op.requestedAt (s.extent op.extent) p } :=
        List.mem_filterMap.mpr ⟨p, List.mem_range.mpr lt, found⟩
      by_cases all : ((s.extent op.extent).isParity ((s.extent op.extent).stripeOf op.row) p ||
        (op.decided p).isSome) = true
      · exact ⟨_, find (if_pos all), rfl, mem_rowOffsets.mpr small⟩
      · have asked : s.Asked op p i := by
          rcases produced with parity | ⟨-, decided⟩ | asked
          · exact absurd (whole.mpr (.inl parity)) all
          · exact absurd (whole.mpr (.inr decided)) all
          · exact asked
        have written := (State.mem_requestedAt legal lt).mpr asked
        refine ⟨_, find ((if_neg all).trans (if_neg ?_)), rfl, written⟩
        rw [List.isEmpty_iff]
        exact List.ne_nil_of_mem written
  | resyncRow =>
    constructor
    · rintro ⟨o, mem, rfl, small⟩
      obtain ⟨q, parity, rfl⟩ := List.mem_map.mp mem
      refine ⟨mem_rowOffsets.mp small, ?_⟩
      simpa [Extent.parityPositions, eq_comm (a := q)] using parity
    · rintro ⟨small, parity⟩
      refine ⟨{ position := p, offsets := rowOffsets }, List.mem_map.mpr ⟨p, ?_, rfl⟩, rfl, mem_rowOffsets.mpr small⟩
      simpa [Extent.parityPositions, eq_comm (a := p)] using parity

/-- No output is without offsets. -/
theorem State.kindOutputs_filled (unavailable : List Nat) (listed : List (Nat × Nat)) :
    ∀ o ∈ s.kindOutputs op unavailable listed, o.offsets ≠ [] := by
  have whole : rowOffsets ≠ [] := by decide
  intro o mem
  unfold State.kindOutputs at mem
  cases kind : op.kind <;> rw [kind] at mem
  case rebuildRow =>
    cases own : op.ownJob <;> rw [own] at mem
    case none => exact absurd mem List.not_mem_nil
    case some j =>
      obtain ⟨x, -, rfl⟩ := List.mem_map.mp mem
      exact whole
  case readRow =>
    obtain ⟨q, -, found⟩ := List.mem_filterMap.mp mem
    dsimp only at found
    split at found
    · rename_i filled
      cases found
      rw [Bool.and_eq_true, Bool.not_eq_true', List.isEmpty_eq_false_iff] at filled
      exact filled.2
    · cases found
  case writeRow =>
    obtain ⟨q, -, found⟩ := List.mem_filterMap.mp mem
    split at found
    · cases found
      exact whole
    · split at found
      · cases found
      · rename_i filled
        cases found
        exact fun empty => filled (List.isEmpty_iff.mpr empty)
  case resyncRow =>
    obtain ⟨q, -, rfl⟩ := List.mem_map.mp mem
    exact whole

/-! ## Frames (R61) -/

theorem State.reservedFrame_eq_some (legal : (s.extent op.extent).legal) {reads : List PlanRead}
    {outputs : List PlanOutput} {q : Nat} :
    reservedFrame (s.extent op.extent) op.row (s.gonePositions op) reads outputs = some q ↔
      (s.extent op.extent).qPosition ((s.extent op.extent).stripeOf op.row) = some q ∧
        s.servingPort op.extent q op.row ≠ none ∧ (∀ r ∈ reads, r.position ≠ q) ∧ (∀ o ∈ outputs, o.position ≠ q) ∧
        ¬ (reads = [] ∧ outputs = []) := by
  have empty : (reads.isEmpty && outputs.isEmpty) = true ↔ reads = [] ∧ outputs = [] := by simp
  unfold reservedFrame
  rw [← empty]
  by_cases nothing : (reads.isEmpty && outputs.isEmpty) = true
  · simp [nothing]
  · rw [if_neg nothing]
    cases position : (s.extent op.extent).qPosition ((s.extent op.extent).stripeOf op.row) with
    | none => simp
    | some x =>
      have lt := Extent.qPosition_lt legal position
      have taken : ((s.gonePositions op).contains x || reads.any (fun r => r.position == x) ||
          outputs.any fun o => o.position == x) = true ↔
          ¬ (s.servingPort op.extent x op.row ≠ none ∧ (∀ r ∈ reads, r.position ≠ x) ∧
            ∀ o ∈ outputs, o.position ≠ x) := by
        simp only [Bool.or_eq_true, List.contains_iff_mem, State.mem_gonePositions, State.Gone, lt, true_and,
          List.any_eq_true, beq_iff_eq, not_and_or, not_forall, not_not, exists_prop, ne_eq, or_assoc]
      dsimp only
      split
      · rename_i is
        rw [taken] at is
        simp only [reduceCtorEq, false_iff]
        rintro ⟨same, serves, reads, outputs, -⟩
        cases same
        exact is ⟨serves, reads, outputs⟩
      · rename_i free
        rw [taken, not_not] at free
        obtain ⟨serves, noRead, noOutput⟩ := free
        constructor
        · intro same
          cases same
          exact ⟨rfl, serves, noRead, noOutput, nothing⟩
        · exact And.left

theorem Plan.mem_framePositions {plan : Plan} {p : Nat} : p ∈ plan.framePositions ↔
    (∃ r ∈ plan.reads, r.position = p) ∨ (∃ o ∈ plan.outputs, o.position = p) ∨ plan.reservedQ = some p := by
  simp [Plan.framePositions]

/-! ## Planning (R64) -/

/-- The operation as it plans anew, nothing read, closed or solved yet. -/
def Operation.afresh (op : Operation) : Operation :=
  { op with closed := [], results := [], record := [], plan := Plan.none }

/-- The stalled ports to which the operation would write. -/
def State.stalledPorts (s : State) (op : Operation) : List PortId :=
  ((s.destinations op.afresh).map Prod.fst).filter fun q => (s.port q).stalled

/-- The plan of an operation that neither ends nor waits. -/
def State.planOf (s : State) (op : Operation) : Plan :=
  let listed := if op.kind = .readRow then s.listedBlocks op else []
  let reads := s.readsOf op (unionWants (s.kindReads op (s.gonePositions op) listed)
    (carriedReads (s.extent op.extent) op listed))
  let outputs := s.kindOutputs op (s.gonePositions op) listed
  { reads := reads, outputs := outputs
    reservedQ := reservedFrame (s.extent op.extent) op.row (s.gonePositions op) reads outputs
    copy := op.kind == .rebuildRow && (s.copySource op).isSome, unavailable := s.gonePositions op, listed := listed }

theorem State.makePlan_of_passes (passes : s.boundary op = none) : s.makePlan op =
    if op.kind = .resyncRow ∧ ((s.extent op.extent).dataPositions op.row).any (s.gonePositions op).contains then
      .ended .skipped
    else if op.kind ≠ .readRow ∧ s.stalledPorts op ≠ [] then .await (s.stalledPorts op).dedup
    else .ready (s.planOf op) := by
  simp only [State.makePlan, passes]
  rfl

theorem State.makePlan_of_ended {outcome : RowOutcome} (ends : s.boundary op = some outcome) :
    s.makePlan op = .ended outcome := by
  simp only [State.makePlan, ends]

theorem State.mem_stalledPorts (legal : (s.extent op.extent).legal) {q : PortId} : q ∈ s.stalledPorts op ↔
    (s.port q).stalled = true ∧ ∃ p i, s.Writes { op with results := [], closed := [], record := [] } q p i := by
  have writes (p i : Nat) : s.Writes { op with results := [], closed := [], record := [] } q p i ↔
      ∃ d ∈ s.destinations op.afresh, d.1 = q ∧ d.2.1 = p ∧ i ∈ d.2.2 :=
    (State.mem_destinations_iff_writes (op := op.afresh) legal).symm
  simp only [State.stalledPorts, List.mem_filter, List.mem_map, writes, and_comm (b := (s.port q).stalled = true)]
  refine and_congr_right fun _ => ⟨?_, ?_⟩
  · rintro ⟨d, mem, rfl⟩
    obtain ⟨i, holds⟩ := List.exists_mem_of_ne_nil _ (State.mem_destinations.mp mem).2.1
    exact ⟨d.2.1, i, d, mem, rfl, rfl, holds⟩
  · rintro ⟨p, i, d, mem, port, -⟩
    exact ⟨d, mem, port⟩

end

/-- The runs of a destination (R70; log 13). -/
theorem Operation.runsFor_spec (op : Operation) (q : PortId) (p : Nat) {offsets : List Nat}
    (ascending : offsets.Pairwise (· < ·)) (small : ∀ i ∈ offsets, i < 16) :
    (∀ i, i ∈ offsets ↔ ∃ r ∈ op.runsFor q p offsets, r.first ≤ i ∧ i < r.first + r.count) ∧
    (∀ r ∈ op.runsFor q p offsets, r.position = p ∧ 1 ≤ r.count ∧
      ∀ i, r.first ≤ i → i < r.first + r.count → (r.repair = true ↔ op.Unread q p i)) ∧
    (op.runsFor q p offsets).Pairwise fun a b =>
      a.first + a.count < b.first ∨ (a.first + a.count = b.first ∧ a.repair ≠ b.repair) := by
  have runs := runsByMark_cover (op.repairAt q p) ascending
  refine ⟨fun i => ?_, fun r mem => ?_, List.pairwise_map.mpr runs.apart⟩
  · rw [runs.cover]
    constructor
    · rintro ⟨x, mem, has⟩
      exact ⟨_, List.mem_map_of_mem mem, has⟩
    · rintro ⟨r, mem, has⟩
      obtain ⟨x, found, rfl⟩ := List.mem_map.mp mem
      exact ⟨x, found, has⟩
  · obtain ⟨x, found, rfl⟩ := List.mem_map.mp mem
    obtain ⟨pos, marks⟩ := runs.marks x found
    refine ⟨rfl, pos, fun i low high => (marks i low high).trans ?_⟩
    rw [Operation.mem_repairAt]
    exact and_iff_right (small i ((runs.cover i).mpr ⟨x, found, low, high⟩))

/-- Settles O40: the plan by the read sets, outputs and frames of its kind, and the writes by the offsets of each port. -/
theorem plansByKind : Obligations.PlansByKind := by
  refine ⟨fun s op legal counts => ?_, fun s op legal => ⟨fun q p i => State.mem_destinations_iff_writes legal,
    fun d mem => ?_, s.destinations_nodup op⟩⟩
  · intro e port skips waits calls
    refine ⟨fun lost => State.makePlan_of_ended (State.boundary_of_losesRow lost),
      fun kept lost => State.makePlan_of_ended (State.boundary_of_losesTarget kept lost), fun passes => ?_⟩
    have plan := State.makePlan_of_passes (State.boundary_of_passes passes)
    have skips_iff : skips ↔ op.kind = .resyncRow ∧
        ((s.extent op.extent).dataPositions op.row).any (s.gonePositions op).contains = true := by
      refine and_congr_right fun _ => ?_
      simp only [List.any_eq_true, List.contains_iff_mem, State.mem_gonePositions]
      exact exists_congr fun p => and_congr_right fun data =>
        (and_iff_right (State.lt_of_mem_dataPositions legal data)).symm
    have waits_iff (q : PortId) : waits q ↔ op.kind ≠ .readRow ∧ q ∈ s.stalledPorts op := by
      rw [State.mem_stalledPorts legal]
    refine ⟨fun skip => plan.trans (if_pos (skips_iff.mp skip)), fun goes ⟨q, wait⟩ => ?_, fun goes free => ?_⟩
    · obtain ⟨writer, mem⟩ := (waits_iff q).mp wait
      refine ⟨_, (plan.trans (if_neg (mt skips_iff.mpr goes))).trans (if_pos ⟨writer, List.ne_nil_of_mem mem⟩),
        List.nodup_dedup _, fun q => ?_⟩
      rw [List.mem_dedup, waits_iff]
      exact (and_iff_right writer).symm
    · have flows : ¬ (op.kind ≠ .readRow ∧ s.stalledPorts op ≠ []) := fun ⟨writer, stalls⟩ => by
        obtain ⟨q, mem⟩ := List.exists_mem_of_ne_nil _ stalls
        exact free q ((waits_iff q).mpr ⟨writer, mem⟩)
      obtain ⟨nodup, some_iff, spans⟩ := State.readsOver
        ((State.hullsServed_kindReads legal).unionWants (State.hullsServed_carried legal counts))
        (positions_nodup_unionWants _ (State.kindReads_nodup legal _))
      refine ⟨s.planOf op, (plan.trans (if_neg (mt skips_iff.mpr goes))).trans (if_neg flows),
        fun p => State.mem_gonePositions, ?_, fun p i => ?_, fun p i => ?_, State.kindOutputs_filled _ _, nodup, some_iff,
        spans, fun q => State.reservedFrame_eq_some legal, fun p => Plan.mem_framePositions, List.nodup_dedup _, rfl⟩
      · by_cases kind : op.kind = .rebuildRow
        · simp [State.planOf, kind, Option.isSome_iff_exists, State.copySource_eq_some kind]
        · refine iff_of_false (by simp [State.planOf, kind]) ?_
          rintro ⟨p, rebuilds, -⟩
          exact kind rebuilds
      · by_cases kind : op.kind = .readRow
        · simp [State.planOf, kind, State.mem_listedBlocks legal]
        · simp [State.planOf, kind]
      · rw [Plan.outputAt_iff]
        exact State.mem_kindOutputs legal
  · have ascending := State.destinations_ascend mem
    have small : ∀ i ∈ d.2.2, i < 16 := fun i holds =>
      ((State.mem_destinations_iff_writes legal).mp ⟨d, mem, rfl, rfl, holds⟩).1
    exact ⟨(State.mem_destinations.mp mem).2.1, ascending, op.runsFor_spec d.1 d.2.1 ascending small⟩

end Sys2Proof.Machine
end

section
/-! O11, the list: insertion into the published unsettled-row list (R82), by what an entry becomes as it absorbs those it
meets. -/

namespace Sys2Proof.Machine

namespace UnsettledEntry

/-- The last row of an entry on its extent. -/
def lastRow (limits : ExtentId → Nat) (y : UnsettledEntry) : Nat := y.last (limits y.extent)

/-- Two entries overlap or touch. -/
def Meets (limits : ExtentId → Nat) (y z : UnsettledEntry) : Prop :=
  y.extent = z.extent ∧ y.first ≤ z.lastRow limits + 1 ∧ z.first ≤ y.lastRow limits + 1

variable {limits : ExtentId → Nat} {a b y z : UnsettledEntry}

theorem meets_iff (same : z.extent = a.extent) :
    UnsettledEntry.meets (limits a.extent) y z = true ↔ Meets limits y z := by
  simp only [UnsettledEntry.meets, Meets, Bool.and_eq_true, beq_iff_eq, decide_eq_true_eq, and_assoc, lastRow]
  refine and_congr_right fun on => ?_
  rw [on, same]

theorem not_clear_iff : ¬ (y.extent ≠ z.extent ∨ y.last (limits y.extent) + 1 < z.first ∨
    z.last (limits z.extent) + 1 < y.first) ↔ Meets limits y z := by
  simp only [Meets, lastRow]
  constructor
  · intro h
    simp only [not_or, not_not, not_lt] at h
    exact ⟨h.1, h.2.2, h.2.1⟩
  · rintro ⟨same, low, high⟩ (differ | clear | clear)
    · exact differ same
    · omega
    · omega

theorem clear_iff : (y.extent ≠ z.extent ∨ y.last (limits y.extent) + 1 < z.first ∨
    z.last (limits z.extent) + 1 < y.first) ↔ ¬ Meets limits y z := by rw [← not_clear_iff, not_not]

theorem lastRow_of_toEnd (h : y.toEnd = true) : y.lastRow limits = limits y.extent := if_pos h

theorem lastRow_of_counted (h : y.toEnd = false) : y.lastRow limits = y.first + y.count - 1 := by simp [lastRow, UnsettledEntry.last, h]

theorem legal.first_le (h : y.legal limits) : y.first ≤ y.lastRow limits := by
  obtain ⟨low, counted⟩ := h
  cases toEnd : y.toEnd with
  | true => rwa [lastRow_of_toEnd toEnd]
  | false =>
    have := (counted toEnd).1
    rw [lastRow_of_counted toEnd]
    omega

theorem legal.lastRow_le (h : y.legal limits) : y.lastRow limits ≤ limits y.extent := by
  cases toEnd : y.toEnd with
  | true => rw [lastRow_of_toEnd toEnd]
  | false =>
    rw [lastRow_of_counted toEnd]
    exact (h.2 toEnd).2.2

theorem legal.size_le (h : y.legal limits) (counted : y.toEnd = false) :
    y.lastRow limits + 1 - y.first ≤ Config.maxCount := by
  have := h.2 counted
  rw [lastRow_of_counted counted]
  omega

theorem legal.meets_self (h : y.legal limits) : Meets limits y y := by
  have := h.first_le
  exact ⟨rfl, by omega, by omega⟩

/-! ## Hulls of entries -/

/-- `m` is the hull of the entries that `K` picks, of one extent: it reaches to the last row where one of them does or
they reach over more rows than a count holds. -/
structure HullOf (limits : ExtentId → Nat) (K : UnsettledEntry → Prop) (m : UnsettledEntry) : Prop where
  legal : m.legal limits
  extent : ∀ y, K y → y.extent = m.extent
  first_le : ∀ y, K y → m.first ≤ y.first
  first_mem : ∃ y, K y ∧ m.first = y.first
  toEnd_iff : m.toEnd = true ↔ ∃ y, K y ∧ (y.toEnd = true ∨ Config.maxCount < y.lastRow limits + 1 - m.first)
  le_last : m.toEnd = false → ∀ y, K y → y.lastRow limits ≤ m.lastRow limits
  last_mem : m.toEnd = false → ∃ y, K y ∧ m.lastRow limits = y.lastRow limits

namespace HullOf

variable {K R : UnsettledEntry → Prop} {m e : UnsettledEntry}

theorem congr (h : HullOf limits K m) (same : ∀ y, K y ↔ R y) : HullOf limits R m := by
  obtain rfl : K = R := funext fun y => propext (same y)
  exact h

theorem singleton (legal : e.legal limits) : HullOf limits (· = e) e := by
  refine ⟨legal, fun y is => is ▸ rfl, fun y is => is ▸ le_rfl, ⟨e, rfl, rfl⟩, ⟨fun toEnd => ⟨e, rfl, .inl toEnd⟩, ?_⟩,
    fun _ y is => is ▸ le_rfl, fun _ => ⟨e, rfl, rfl⟩⟩
  rintro ⟨y, rfl, toEnd | large⟩
  · exact toEnd
  · by_contra counted
    exact absurd (legal.size_le (Bool.eq_false_iff.mpr counted)) (not_le.mpr large)

/-- A merge is the hull of the two, or reaches to the last row. -/
theorem merge (ha : a.legal limits) (hb : b.legal limits) (same : a.extent = b.extent) :
    HullOf limits (fun y => y = a ∨ y = b) (a.merge (limits a.extent) b) := by
  have firstA := ha.first_le
  have firstB := hb.first_le
  have endA := ha.lastRow_le
  have endB := hb.lastRow_le
  have lowA := ha.1
  have highB : b.last (limits a.extent) = b.lastRow limits := by rw [same]; rfl
  have highA : a.last (limits a.extent) = a.lastRow limits := rfl
  rw [← same] at endB
  have first : ∃ y, (y = a ∨ y = b) ∧ min a.first b.first = y.first := by
    rcases min_choice a.first b.first with low | low
    · exact ⟨a, .inl rfl, low⟩
    · exact ⟨b, .inr rfl, low⟩
  have large : Config.maxCount < max (a.lastRow limits) (b.lastRow limits) + 1 - min a.first b.first ↔
      Config.maxCount < a.lastRow limits + 1 - min a.first b.first ∨
        Config.maxCount < b.lastRow limits + 1 - min a.first b.first := by omega
  unfold UnsettledEntry.merge
  rw [highA, highB]
  dsimp only
  split
  · rename_i reaches
    rw [Bool.or_eq_true, Bool.or_eq_true, decide_eq_true_eq, large] at reaches
    refine ⟨⟨by dsimp only; omega, nofun⟩, ?_, ?_, first, ⟨fun _ => ?_, fun _ => rfl⟩, nofun, nofun⟩
    · rintro y (rfl | rfl)
      · rfl
      · exact same.symm
    · rintro y (rfl | rfl)
      · exact min_le_left _ _
      · exact min_le_right _ _
    · rcases reaches with (toEnd | toEnd) | wide | wide
      · exact ⟨a, .inl rfl, .inl toEnd⟩
      · exact ⟨b, .inr rfl, .inl toEnd⟩
      · exact ⟨a, .inl rfl, .inr wide⟩
      · exact ⟨b, .inr rfl, .inr wide⟩
  · rename_i fits
    rw [Bool.or_eq_true, Bool.or_eq_true, decide_eq_true_eq] at fits
    have size := not_lt.mp (not_or.mp fits).2
    have last : lastRow limits ⟨a.extent, min a.first b.first,
        max (a.lastRow limits) (b.lastRow limits) + 1 - min a.first b.first, false⟩ =
        max (a.lastRow limits) (b.lastRow limits) := by
      rw [lastRow_of_counted rfl]
      dsimp only
      omega
    refine ⟨⟨by dsimp only; omega, fun _ => ⟨by dsimp only; omega, size, by dsimp only; omega⟩⟩, ?_, ?_, first,
      ⟨nofun, ?_⟩, fun _ => ?_, fun _ => ?_⟩
    · rintro y (rfl | rfl)
      · rfl
      · exact same.symm
    · rintro y (rfl | rfl)
      · exact min_le_left _ _
      · exact min_le_right _ _
    · rintro ⟨y, rfl | rfl, toEnd | wide⟩
      · exact absurd (.inl (.inl toEnd)) fits
      · exact absurd (.inr (large.mpr (.inl wide))) fits
      · exact absurd (.inl (.inr toEnd)) fits
      · exact absurd (.inr (large.mpr (.inr wide))) fits
    · rw [last]
      rintro y (rfl | rfl)
      · exact le_max_left _ _
      · exact le_max_right _ _
    · rw [last]
      rcases max_choice (a.lastRow limits) (b.lastRow limits) with high | high
      · exact ⟨a, .inl rfl, high⟩
      · exact ⟨b, .inr rfl, high⟩

/-- The hull of a hull with others is the hull of all. -/
theorem expand (inner : HullOf limits K e) (outer : HullOf limits (fun y => y = e ∨ R y) m) :
    HullOf limits (fun y => K y ∨ R y) m := by
  have low : m.first ≤ e.first := outer.first_le e (.inl rfl)
  have counted (small : m.toEnd = false) : e.toEnd = false := by
    by_contra toEnd
    have reaches := outer.toEnd_iff.mpr ⟨e, .inl rfl, .inl (Bool.not_eq_false _ ▸ toEnd)⟩
    exact Bool.noConfusion (small.symm.trans reaches)
  refine ⟨outer.legal, ?_, ?_, ?_, ⟨?_, ?_⟩, fun small => ?_, fun small => ?_⟩
  · rintro y (inside | other)
    · exact (inner.extent y inside).trans (outer.extent e (.inl rfl))
    · exact outer.extent y (.inr other)
  · rintro y (inside | other)
    · exact low.trans (inner.first_le y inside)
    · exact outer.first_le y (.inr other)
  · obtain ⟨y, rfl | other, first⟩ := outer.first_mem
    · obtain ⟨z, inside, same⟩ := inner.first_mem
      exact ⟨z, .inl inside, first.trans same⟩
    · exact ⟨y, .inr other, first⟩
  · intro reaches
    obtain ⟨y, rfl | other, why⟩ := outer.toEnd_iff.mp reaches
    · cases toEnd : y.toEnd with
      | true =>
        obtain ⟨z, inside, toEnd | wide⟩ := inner.toEnd_iff.mp toEnd
        · exact ⟨z, .inl inside, .inl toEnd⟩
        · exact ⟨z, .inl inside, .inr (by omega)⟩
      | false =>
        obtain ⟨z, inside, last⟩ := inner.last_mem toEnd
        exact ⟨z, .inl inside, .inr (last ▸ why.resolve_left (by simp [toEnd]))⟩
    · exact ⟨y, .inr other, why⟩
  · rintro ⟨z, inside | other, why⟩
    · refine outer.toEnd_iff.mpr ⟨e, .inl rfl, ?_⟩
      cases toEnd : e.toEnd with
      | true => exact .inl rfl
      | false =>
        rcases why with reaches | wide
        · have := inner.toEnd_iff.mpr ⟨z, inside, .inl reaches⟩
          exact Bool.noConfusion (toEnd.symm.trans this)
        · have := inner.le_last toEnd z inside
          exact .inr (by omega)
    · exact outer.toEnd_iff.mpr ⟨z, .inr other, why⟩
  · rintro y (inside | other)
    · exact (inner.le_last (counted small) y inside).trans (outer.le_last small e (.inl rfl))
    · exact outer.le_last small y (.inr other)
  · obtain ⟨y, rfl | other, last⟩ := outer.last_mem small
    · obtain ⟨z, inside, same⟩ := inner.last_mem (counted small)
      exact ⟨z, .inl inside, last.trans same⟩
    · exact ⟨y, .inr other, last⟩

/-- A hull that reaches to the last row is that of some of its entries, if these begin it and make it reach there. -/
theorem shrink (h : HullOf limits K m) (some : ∀ y, R y → K y) (first : ∃ y, R y ∧ m.first = y.first)
    (reaches : ∃ y, R y ∧ (y.toEnd = true ∨ Config.maxCount < y.lastRow limits + 1 - m.first)) : HullOf limits R m := by
  obtain ⟨y, holds, why⟩ := reaches
  have toEnd : m.toEnd = true := h.toEnd_iff.mpr ⟨y, some y holds, why⟩
  exact ⟨h.legal, fun z is => h.extent z (some z is), fun z is => h.first_le z (some z is), first,
    ⟨fun _ => ⟨y, holds, why⟩, fun _ => toEnd⟩, fun counted => Bool.noConfusion (counted.symm.trans toEnd),
    fun counted => Bool.noConfusion (counted.symm.trans toEnd)⟩

end HullOf

/-! ## Absorption -/

/-- An entry that absorbs those of a list that it meets, as it grows. -/
def absorbing (limits : ExtentId → Nat) (e : UnsettledEntry) (l : List UnsettledEntry) : UnsettledEntry :=
  l.foldl (fun acc x =>
    if x.meets (limits e.extent) acc then x.merge (limits e.extent) acc else acc) e

theorem clearOf_not_meets (clear : a.clearOf limits b) : ¬ Meets limits a b ∧ ¬ Meets limits b a := by
  unfold UnsettledEntry.clearOf Meets lastRow at *
  constructor
  · rintro ⟨same, low, high⟩
    rw [same] at clear high
    omega
  · rintro ⟨same, low, high⟩
    rw [same] at clear
    omega

/-- A later entry meets what an earlier one and `e` have become where it meets `e`, unless that reaches to the last row. -/
theorem meets_hull_iff {e m : UnsettledEntry} (hull : HullOf limits (fun z => z = y ∨ z = e) m) (meets : Meets limits y e)
    (later : y.clearOf limits z) (legal : z.legal limits) (counted : m.toEnd = false) :
    Meets limits z m ↔ Meets limits z e := by
  have atY := hull.le_last counted y (.inl rfl)
  have atE := hull.le_last counted e (.inr rfl)
  have lowY := hull.first_le y (.inl rfl)
  have lowE := hull.first_le e (.inr rfl)
  have onE := hull.extent e (.inr rfl)
  have first := legal.first_le
  obtain ⟨same, touchY, touchE⟩ := meets
  have later : z.extent = e.extent → y.lastRow limits + 1 < z.first := fun on => by
    rcases later with other | ⟨-, gap⟩
    · rw [on, same] at other
      exact absurd other (lt_irrefl _)
    · exact gap
  unfold Meets
  rw [← onE]
  refine and_congr_right fun on => ?_
  have gap := later on
  obtain ⟨x, rfl | rfl, last⟩ := hull.last_mem counted <;> omega

theorem absorbing_hull {l : List UnsettledEntry} (legal : ∀ y ∈ l, y.legal limits)
    (apart : l.Pairwise (UnsettledEntry.clearOf limits)) {e : UnsettledEntry} (legalE : e.legal limits) :
    HullOf limits (fun y => (y = e ∨ y ∈ l) ∧ Meets limits y e) (absorbing limits e l) := by
  induction l generalizing e with
  | nil => exact (HullOf.singleton legalE).congr fun y =>
      ⟨fun is => ⟨.inl is, is ▸ legalE.meets_self⟩, fun h => h.1.resolve_right List.not_mem_nil⟩
  | cons x rest ih =>
    obtain ⟨later, apart⟩ := List.pairwise_cons.mp apart
    obtain ⟨legalX, legal⟩ := List.forall_mem_cons.mp legal
    by_cases meets : Meets limits x e
    · have grown := HullOf.merge legalX legalE meets.1
      have extent : (x.merge (limits x.extent) e).extent = e.extent := (grown.extent e (.inr rfl)).symm
      have step : absorbing limits e (x :: rest) = absorbing limits (x.merge (limits x.extent) e) rest := by
        unfold absorbing
        rw [List.foldl_cons, if_pos ((meets_iff rfl).mpr meets), extent, meets.1]
      rw [step]
      have whole := ih legal apart grown.legal
      generalize x.merge (limits x.extent) e = g at *
      have self := grown.legal.meets_self
      cases toEnd : g.toEnd with
      | false =>
        have some := whole.congr (R := fun y => y = g ∨ (y ∈ rest ∧ Meets limits y e)) fun y => by
          have same (mem : y ∈ rest) := meets_hull_iff grown meets (later y mem) (legal y mem) toEnd
          constructor
          · rintro ⟨is | mem, here⟩
            · exact .inl is
            · exact .inr ⟨mem, (same mem).mp here⟩
          · rintro (rfl | ⟨mem, here⟩)
            · exact ⟨.inl rfl, self⟩
            · exact ⟨.inr mem, (same mem).mpr here⟩
        refine (grown.expand some).congr fun y => ⟨?_, ?_⟩
        · rintro ((rfl | rfl) | ⟨mem, here⟩)
          · exact ⟨.inr List.mem_cons_self, meets⟩
          · exact ⟨.inl rfl, legalE.meets_self⟩
          · exact ⟨.inr (List.mem_cons_of_mem _ mem), here⟩
        · rintro ⟨rfl | mem, here⟩
          · exact .inl (.inr rfl)
          · exact (List.mem_cons.mp mem).imp .inl fun mem => ⟨mem, here⟩
      | true =>
        have all := whole.congr (R := fun y => y = g ∨ (y ∈ rest ∧ Meets limits y g)) fun y => by
          constructor
          · rintro ⟨is | mem, here⟩
            · exact .inl is
            · exact .inr ⟨mem, here⟩
          · rintro (rfl | ⟨mem, here⟩)
            · exact ⟨.inl rfl, self⟩
            · exact ⟨.inr mem, here⟩
        have low := grown.first_le
        have first : (absorbing limits g rest).first = g.first := by
          obtain ⟨z, ⟨rfl | mem, here⟩, same⟩ := whole.first_mem
          · exact same
          · have least := whole.first_le g ⟨.inl rfl, self⟩
            have := low x (.inl rfl)
            have := legalX.first_le
            rcases later z mem with other | ⟨-, gap⟩
            · rw [here.1, grown.extent x (.inl rfl)] at other
              exact absurd other (lt_irrefl _)
            · have : x.last (limits x.extent) = x.lastRow limits := rfl
              omega
        refine (grown.expand all).shrink ?_ ?_ ?_
        · rintro y ⟨rfl | mem, here⟩
          · exact .inl (.inr rfl)
          · refine (List.mem_cons.mp mem).imp .inl fun mem => ⟨mem, ?_⟩
            have := low e (.inr rfl)
            have := legalE.lastRow_le
            have top := lastRow_of_toEnd (limits := limits) toEnd
            rw [← extent] at this
            exact ⟨here.1.trans extent.symm, by have := here.2.1; omega, by have := here.2.2; omega⟩
        · obtain ⟨z, rfl | rfl, same⟩ := grown.first_mem
          · exact ⟨z, ⟨.inr List.mem_cons_self, meets⟩, first.trans same⟩
          · exact ⟨z, ⟨.inl rfl, legalE.meets_self⟩, first.trans same⟩
        · rw [first]
          obtain ⟨z, rfl | rfl, why⟩ := grown.toEnd_iff.mp toEnd
          · exact ⟨z, ⟨.inr List.mem_cons_self, meets⟩, why⟩
          · exact ⟨z, ⟨.inl rfl, legalE.meets_self⟩, why⟩
    · have step : absorbing limits e (x :: rest) = absorbing limits e rest := by
        unfold absorbing
        rw [List.foldl_cons, if_neg (mt (meets_iff rfl).mp meets)]
      rw [step]
      refine (ih legal apart legalE).congr fun y => and_congr_left fun here => ?_
      have other : y ≠ x := fun same => meets (same ▸ here)
      simp [other]

/-- An entry in a legal list that meets what `e` becomes lies within it. -/
theorem within_absorbing {l : List UnsettledEntry} (legal : ∀ y ∈ l, y.legal limits)
    (apart : l.Pairwise (UnsettledEntry.clearOf limits)) {e : UnsettledEntry} (legalE : e.legal limits)
    (mem : z ∈ l) (meets : Meets limits z (absorbing limits e l)) :
    (absorbing limits e l).first ≤ z.first ∧ z.lastRow limits ≤ (absorbing limits e l).lastRow limits := by
  have hull := absorbing_hull legal apart legalE
  generalize absorbing limits e l = m at *
  have atE := hull.first_le e ⟨.inl rfl, legalE.meets_self⟩
  have onE := hull.extent e ⟨.inl rfl, legalE.meets_self⟩
  have legalZ := legal z mem
  have rising := legalZ.first_le
  have risingE := legalE.first_le
  have top (toEnd : m.toEnd = true) : z.lastRow limits ≤ m.lastRow limits := by
    rw [lastRow_of_toEnd toEnd, ← meets.1]
    exact legalZ.lastRow_le
  by_cases near : Meets limits z e
  · refine ⟨hull.first_le z ⟨.inr mem, near⟩, ?_⟩
    cases toEnd : m.toEnd with
    | true => exact top toEnd
    | false => exact hull.le_last toEnd z ⟨.inr mem, near⟩
  · have gaps {y : UnsettledEntry} (other : y ∈ l) (here : Meets limits y e) :
        z.lastRow limits + 1 < y.first ∨ y.lastRow limits + 1 < z.first := by
      have differ : z ≠ y := fun same => near (same ▸ here)
      have on : z.extent = y.extent := meets.1.trans (onE.symm.trans here.1.symm)
      have clear (h : z.clearOf limits y ∨ y.clearOf limits z) :
          z.lastRow limits + 1 < y.first ∨ y.lastRow limits + 1 < z.first := by
        rcases h with (lt | ⟨-, gap⟩) | (lt | ⟨-, gap⟩)
        · exact absurd (on ▸ lt) (lt_irrefl _)
        · exact .inl gap
        · exact absurd (on ▸ lt) (lt_irrefl _)
        · exact .inr gap
      have sym := apart.imp (S := fun a b => UnsettledEntry.clearOf limits a b ∨ UnsettledEntry.clearOf limits b a) fun h => .inl h
      have : Std.Symm fun a b => UnsettledEntry.clearOf limits a b ∨ UnsettledEntry.clearOf limits b a :=
        ⟨fun _ _ h => h.symm⟩
      exact clear (sym.forall mem other differ)
    have apartE : z.lastRow limits + 1 < e.first ∨ e.lastRow limits + 1 < z.first := by
      by_contra both
      exact near ⟨meets.1.trans onE.symm, by omega, by omega⟩
    obtain ⟨-, touch, reach⟩ := meets
    rcases apartE with below | above
    · obtain ⟨y, ⟨rfl | other, here⟩, first⟩ := hull.first_mem
      · omega
      · have := here.2.2
        rcases gaps other here with gap | gap <;> omega
    · refine ⟨by omega, ?_⟩
      cases toEnd : m.toEnd with
      | true => exact top toEnd
      | false =>
        obtain ⟨y, ⟨rfl | other, here⟩, last⟩ := hull.last_mem toEnd
        · omega
        · have := here.2.1
          rcases gaps other here with gap | gap <;> omega

/-! ## Sorted insertion -/

theorem mem_insertUnsettledSorted {l : List UnsettledEntry} {e : UnsettledEntry} :
    y ∈ insertUnsettledSorted e l ↔ y = e ∨ y ∈ l := by
  induction l with
  | nil => simp [insertUnsettledSorted]
  | cons x rest ih =>
    unfold insertUnsettledSorted
    split
    · simp
    · simp only [List.mem_cons, ih]
      tauto

theorem length_insertUnsettledSorted (e : UnsettledEntry) (l : List UnsettledEntry) :
    (insertUnsettledSorted e l).length = l.length + 1 := by
  induction l with
  | nil => rfl
  | cons x rest ih =>
    unfold insertUnsettledSorted
    split
    · rfl
    · simp [ih]

theorem clearOf.trans (h : a.clearOf limits y) (legal : y.legal limits) (k : y.clearOf limits b) : a.clearOf limits b := by
  have rising := legal.first_le
  unfold UnsettledEntry.clearOf lastRow at *
  rcases h with lt | ⟨same, gap⟩ <;> rcases k with lt' | ⟨same', gap'⟩
  · exact .inl (lt.trans lt')
  · exact .inl (same' ▸ lt)
  · exact .inl (same ▸ lt')
  · exact .inr ⟨same.trans same', by omega⟩

/-- Of two entries that do not meet, the earlier is clear of the later. -/
theorem clearOf_of_before (legalA : a.legal limits) (legalB : b.legal limits) (clear : ¬ Meets limits b a) :
    if a.before b then a.clearOf limits b else b.clearOf limits a := by
  have risingA := legalA.first_le
  have risingB := legalB.first_le
  have apart (same : b.extent = a.extent) : a.lastRow limits + 1 < b.first ∨ b.lastRow limits + 1 < a.first := by
    by_contra both
    exact clear ⟨same, by omega, by omega⟩
  have before : a.before b = true ↔ a.extent.val < b.extent.val ∨ (a.extent = b.extent ∧ a.first < b.first) := by
    simp [UnsettledEntry.before]
  unfold UnsettledEntry.clearOf
  split
  · rename_i is
    rcases before.mp is with lt | ⟨same, first⟩
    · exact .inl lt
    · refine .inr ⟨same, (apart same.symm).resolve_right ?_⟩
      omega
  · rename_i is
    rw [before, not_or, not_and] at is
    obtain ⟨le, first⟩ := is
    rcases Nat.lt_or_eq_of_le (not_lt.mp le) with lt | same
    · exact .inl lt
    · have same : b.extent = a.extent := Fin.ext same
      refine .inr ⟨same, (apart same).resolve_left ?_⟩
      have := first same.symm
      omega

theorem pairwise_insertUnsettledSorted {l : List UnsettledEntry} (legal : ∀ y ∈ l, y.legal limits)
    (apart : l.Pairwise (UnsettledEntry.clearOf limits)) {e : UnsettledEntry} (legalE : e.legal limits)
    (clear : ∀ y ∈ l, ¬ Meets limits y e) :
    (insertUnsettledSorted e l).Pairwise (UnsettledEntry.clearOf limits) := by
  induction l with
  | nil => exact List.pairwise_singleton _ _
  | cons x rest ih =>
    obtain ⟨later, sorted⟩ := List.pairwise_cons.mp apart
    obtain ⟨legalX, legal⟩ := List.forall_mem_cons.mp legal
    obtain ⟨clearX, clear⟩ := List.forall_mem_cons.mp clear
    have order := clearOf_of_before legalE legalX clearX
    unfold insertUnsettledSorted
    split
    · rename_i first
      rw [if_pos first] at order
      refine List.pairwise_cons.mpr ⟨fun y mem => ?_, apart⟩
      rcases List.mem_cons.mp mem with rfl | mem
      · exact order
      · exact order.trans legalX (later y mem)
    · rename_i second
      rw [if_neg second] at order
      refine List.pairwise_cons.mpr ⟨fun y mem => ?_, ih legal sorted clear⟩
      rcases mem_insertUnsettledSorted.mp mem with rfl | mem
      · exact order
      · exact later y mem

end UnsettledEntry

end Sys2Proof.Machine
end

section
/-! O11, the list: one row inserted, with room, by joining its neighbours, or after a coarsening (R82). -/

namespace Sys2Proof.Machine

open UnsettledEntry (Meets absorbing)

variable {limits : ExtentId → Nat} {l : List UnsettledEntry} {e : UnsettledEntry}

/-! ## An entry taken into a list -/

theorem absorbUnsettled_eq : absorbUnsettled (limits e.extent) e l = insertUnsettledSorted (absorbing limits e l)
    (l.filter fun y => !y.meets (limits e.extent) (absorbing limits e l)) := rfl

theorem unsettled_iff {x : ExtentId} {row : Nat} : Unsettled limits l x row ↔
    ∃ y ∈ l, y.extent = x ∧ y.first ≤ row ∧ row ≤ y.lastRow limits := by
  refine exists_congr fun y => and_congr_right fun _ => and_congr_right fun on => ?_
  rw [UnsettledEntry.lastRow, on]

section
variable (legal : unsettledLegal limits l) (legalE : e.legal limits)
include legal legalE

theorem absorbing_extent : (absorbing limits e l).extent = e.extent :=
  ((UnsettledEntry.absorbing_hull legal.2.1 legal.2.2 legalE).extent e ⟨.inl rfl, legalE.meets_self⟩).symm

theorem mem_absorbUnsettled {y : UnsettledEntry} : y ∈ absorbUnsettled (limits e.extent) e l ↔
    y = absorbing limits e l ∨ (y ∈ l ∧ ¬ Meets limits y (absorbing limits e l)) := by
  rw [absorbUnsettled_eq, UnsettledEntry.mem_insertUnsettledSorted, List.mem_filter, Bool.not_eq_true',
    ← Bool.not_eq_true, UnsettledEntry.meets_iff (absorbing_extent legal legalE)]

/-- The rows listed stay listed, and those of the entry are. -/
theorem unsettled_absorbUnsettled {x : ExtentId} {row : Nat}
    (h : Unsettled limits l x row ∨ (e.extent = x ∧ e.first ≤ row ∧ row ≤ e.lastRow limits)) :
    Unsettled limits (absorbUnsettled (limits e.extent) e l) x row := by
  have hull := UnsettledEntry.absorbing_hull legal.2.1 legal.2.2 legalE
  have extent := absorbing_extent legal legalE
  rw [unsettled_iff] at h ⊢
  have enter {y : UnsettledEntry} (on : y.extent = x) (same : y.extent = e.extent)
      (low : (absorbing limits e l).first ≤ y.first) (high : y.lastRow limits ≤ (absorbing limits e l).lastRow limits)
      (first : y.first ≤ row) (last : row ≤ y.lastRow limits) :
      ∃ z ∈ absorbUnsettled (limits e.extent) e l, z.extent = x ∧ z.first ≤ row ∧ row ≤ z.lastRow limits :=
    ⟨_, (mem_absorbUnsettled legal legalE).mpr (.inl rfl), extent.trans (same.symm.trans on), low.trans first,
      last.trans high⟩
  rcases h with ⟨y, mem, on, first, last⟩ | ⟨on, first, last⟩
  · by_cases meets : Meets limits y (absorbing limits e l)
    · obtain ⟨low, high⟩ := UnsettledEntry.within_absorbing legal.2.1 legal.2.2 legalE mem meets
      exact enter on (meets.1.trans extent) low high first last
    · exact ⟨y, (mem_absorbUnsettled legal legalE).mpr (.inr ⟨mem, meets⟩), on, first, last⟩
  · have low := hull.first_le e ⟨.inl rfl, legalE.meets_self⟩
    refine enter on rfl low ?_ first last
    cases toEnd : (absorbing limits e l).toEnd with
    | true =>
      rw [UnsettledEntry.lastRow_of_toEnd toEnd, extent]
      exact legalE.lastRow_le
    | false => exact hull.le_last toEnd e ⟨.inl rfl, legalE.meets_self⟩

/-- The list keeps its form. -/
theorem unsettledLegal_absorbUnsettled (room : l.length < 64 ∨ ∃ y ∈ l, Meets limits y e) :
    unsettledLegal limits (absorbUnsettled (limits e.extent) e l) := by
  have hull := UnsettledEntry.absorbing_hull legal.2.1 legal.2.2 legalE
  have extent := absorbing_extent legal legalE
  obtain ⟨few, entries, apart⟩ := legal
  rw [absorbUnsettled_eq]
  have clear : ∀ y ∈ l.filter fun y => !y.meets (limits e.extent) (absorbing limits e l),
      ¬ Meets limits y (absorbing limits e l) := fun y mem => by
    rw [← UnsettledEntry.meets_iff extent]
    simpa using (List.mem_filter.mp mem).2
  have left : ∀ y ∈ l.filter fun y => !y.meets (limits e.extent) (absorbing limits e l), y.legal limits :=
    fun y mem => entries y (List.mem_of_mem_filter mem)
  refine ⟨?_, fun y mem => ?_, UnsettledEntry.pairwise_insertUnsettledSorted left (apart.filter _) hull.legal clear⟩
  · rw [UnsettledEntry.length_insertUnsettledSorted]
    have whole : (l.filter fun y => !y.meets (limits e.extent) (absorbing limits e l)).length ≤ l.length :=
      List.length_filter_le _ _
    rcases room with room | ⟨y, mem, meets⟩
    · exact Nat.succ_le_of_lt (lt_of_le_of_lt whole room)
    · refine Nat.succ_le_of_lt (lt_of_lt_of_le (List.length_filter_lt_length_iff_exists.mpr ⟨y, mem, ?_⟩) few)
      rw [Bool.not_eq_true', Bool.not_eq_false, UnsettledEntry.meets_iff extent]
      have low := hull.first_le y ⟨.inr mem, meets⟩
      have rising := (entries y mem).first_le
      refine ⟨meets.1.trans extent.symm, ?_, by omega⟩
      cases toEnd : (absorbing limits e l).toEnd with
      | true =>
        rw [UnsettledEntry.lastRow_of_toEnd toEnd, extent, ← meets.1]
        have := (entries y mem).1
        omega
      | false =>
        have := hull.le_last toEnd y ⟨.inr mem, meets⟩
        omega
  · rcases UnsettledEntry.mem_insertUnsettledSorted.mp mem with rfl | mem
    · exact hull.legal
    · exact left y mem

end

/-- An entry that meets no other goes in as it is. -/
theorem absorbUnsettled_of_clear (clear : ∀ y ∈ l, ¬ Meets limits y e) :
    absorbing limits e l = e ∧ absorbUnsettled (limits e.extent) e l = insertUnsettledSorted e l := by
  have stays : absorbing limits e l = e := by
    unfold UnsettledEntry.absorbing
    induction l with
    | nil => rfl
    | cons x rest ih =>
      obtain ⟨clearX, clear⟩ := List.forall_mem_cons.mp clear
      rw [List.foldl_cons, if_neg (mt (UnsettledEntry.meets_iff rfl).mp clearX)]
      exact ih clear
  refine ⟨stays, ?_⟩
  rw [absorbUnsettled_eq, stays, List.filter_eq_self.mpr]
  intro y mem
  rw [Bool.not_eq_true', ← Bool.not_eq_true, UnsettledEntry.meets_iff rfl]
  exact clear y mem

/-! ## One row inserted -/

/-- The entry of one row. -/
def rowEntry (x : ExtentId) (row : Nat) : UnsettledEntry := { extent := x, first := row, count := 1, toEnd := false }

theorem rowEntry_legal {x : ExtentId} {row : Nat} (within : row ≤ limits x) : (rowEntry x row).legal limits :=
  ⟨within, fun _ => ⟨le_rfl, (by decide : 1 ≤ Config.maxCount), within⟩⟩

theorem lastRow_rowEntry (x : ExtentId) (row : Nat) : (rowEntry x row).lastRow limits = row := rfl

section
variable {x : ExtentId} {row : Nat}

theorem any_within_iff : (l.any fun y => (rowEntry x row).within (limits x) y) = true ↔ Unsettled limits l x row := by
  simp only [List.any_eq_true, UnsettledEntry.within, Bool.and_eq_true, beq_iff_eq, decide_eq_true_eq, Unsettled]
  refine exists_congr fun y => and_congr_right fun _ => ?_
  rw [and_assoc, eq_comm]
  rfl

theorem any_meets_iff : (l.any fun y => y.meets (limits x) (rowEntry x row)) = true ↔
    ∃ y ∈ l, Meets limits y (rowEntry x row) := by
  rw [List.any_eq_true]
  exact exists_congr fun y => and_congr_right fun _ => UnsettledEntry.meets_iff (a := rowEntry x row) rfl

/-- A listed row changes nothing. -/
theorem insertUnsettled_of_listed (listed : Unsettled limits l x row) : insertUnsettled limits x row l = l := by
  have join : joinUnsettled (limits x) (rowEntry x row) l = some l := if_pos (any_within_iff.mpr listed)
  unfold insertUnsettled
  rw [show ({ extent := x, first := row, count := 1, toEnd := false } : UnsettledEntry) = rowEntry x row from rfl]
  simp only [join]

theorem joinUnsettled_of_meets (new : ¬ Unsettled limits l x row) (meets : ∃ y ∈ l, Meets limits y (rowEntry x row)) :
    joinUnsettled (limits x) (rowEntry x row) l = some (absorbUnsettled (limits x) (rowEntry x row) l) :=
  (if_neg (mt any_within_iff.mp new)).trans (if_pos (any_meets_iff.mpr meets))

theorem joinUnsettled_of_clear (new : ¬ Unsettled limits l x row) (clear : ¬ ∃ y ∈ l, Meets limits y (rowEntry x row)) :
    joinUnsettled (limits x) (rowEntry x row) l = none :=
  (if_neg (mt any_within_iff.mp new)).trans (if_neg (mt any_meets_iff.mp clear))

/-- A row with room, or with a neighbour, becomes an entry with those it meets. -/
theorem insertUnsettled_of_new (new : ¬ Unsettled limits l x row)
    (room : l.length < 64 ∨ ∃ y ∈ l, Meets limits y (rowEntry x row)) :
    insertUnsettled limits x row l = absorbUnsettled (limits x) (rowEntry x row) l := by
  unfold insertUnsettled
  rw [show ({ extent := x, first := row, count := 1, toEnd := false } : UnsettledEntry) = rowEntry x row from rfl]
  by_cases meets : ∃ y ∈ l, Meets limits y (rowEntry x row)
  · simp only [joinUnsettled_of_meets new meets]
  · have clear : ∀ y ∈ l, ¬ Meets limits y (rowEntry x row) := fun y mem here => meets ⟨y, mem, here⟩
    simp only [joinUnsettled_of_clear new meets]
    exact (if_pos (room.resolve_right meets)).trans (absorbUnsettled_of_clear clear).2.symm

/-- A full list that the row is clear of is coarsened first. -/
theorem insertUnsettled_of_full (new : ¬ Unsettled limits l x row) (full : ¬ l.length < 64)
    (clear : ¬ ∃ y ∈ l, Meets limits y (rowEntry x row)) (shorter : (coarsenUnsettled limits l).length < 64) :
    insertUnsettled limits x row l = insertUnsettled limits x row (coarsenUnsettled limits l) := by
  conv_rhs => unfold insertUnsettled
  unfold insertUnsettled
  rw [show ({ extent := x, first := row, count := 1, toEnd := false } : UnsettledEntry) = rowEntry x row from rfl]
  simp only [joinUnsettled_of_clear new clear]
  refine (if_neg full).trans ?_
  cases join : joinUnsettled (limits x) (rowEntry x row) (coarsenUnsettled limits l) with
  | none => exact (if_pos shorter).symm
  | some l' => rfl

end

end Sys2Proof.Machine
end

section
/-! O11, the list: the two closest neighbours of one extent that a coarsening makes one entry (R82). -/

namespace Sys2Proof.Machine

open UnsettledEntry (Meets absorbing)

variable {limits : ExtentId → Nat}

/-! ## The closest neighbours -/

/-- The rows between two neighbours. -/
def UnsettledEntry.gap (limits : ExtentId → Nat) (a b : UnsettledEntry) : Nat := b.first - a.lastRow limits - 1

/-- What the search for the closest neighbours finds: none where no neighbours share an extent, and otherwise the first pair
with the smallest gap. -/
inductive Closest (limits : ExtentId → Nat) (l : List UnsettledEntry) :
    Option (Nat × UnsettledEntry × UnsettledEntry) → Prop
  | none (apart : ∀ before a b after, l = before ++ a :: b :: after → a.extent ≠ b.extent) : Closest limits l none
  | some {before a b after} (place : l = before ++ a :: b :: after) (same : a.extent = b.extent)
      (least : ∀ before' c d after', l = before' ++ c :: d :: after' → c.extent = d.extent →
        a.gap limits b < c.gap limits d ∨ (a.gap limits b = c.gap limits d ∧ before.length ≤ before'.length)) :
      Closest limits l (some (a.gap limits b, a, b))

/-- Neighbours of a longer list stand at its front or in its rest. -/
theorem cons_eq_append_cons_cons {α : Type} {a b c d : α} {tail before after : List α}
    (h : a :: b :: tail = before ++ c :: d :: after) :
    (before = [] ∧ c = a ∧ d = b) ∨ ∃ p, before = a :: p ∧ b :: tail = p ++ c :: d :: after := by
  cases before with
  | nil =>
    cases h
    exact .inl ⟨rfl, rfl, rfl⟩
  | cons x p =>
    injection h with head rest
    exact .inr ⟨p, by rw [head], rest⟩

theorem closestUnsettled_cons (a b : UnsettledEntry) (tail : List UnsettledEntry) :
    closestUnsettled limits (a :: b :: tail) =
      if a.extent = b.extent then
        ((closestUnsettled limits (b :: tail)).elim (some (a.gap limits b, a, b)) fun best =>
          if a.gap limits b ≤ best.1 then some (a.gap limits b, a, b) else some best)
      else closestUnsettled limits (b :: tail) := by
  rw [closestUnsettled]
  dsimp only
  cases closestUnsettled limits (b :: tail) <;> rfl

theorem closestUnsettled_closest (l : List UnsettledEntry) : Closest limits l (closestUnsettled limits l) := by
  induction l with
  | nil => exact .none fun before a b after place => by simp at place
  | cons a rest ih =>
    cases rest with
    | nil =>
      refine .none fun before c d after place => ?_
      have length := congrArg List.length place
      simp only [List.length_append, List.length_cons, List.length_nil] at length
      omega
    | cons b tail =>
      rw [closestUnsettled_cons]
      generalize closestUnsettled limits (b :: tail) = best at ih
      by_cases same : a.extent = b.extent
      · rw [if_pos same]
        cases ih with
        | none apart =>
          refine .some (before := []) rfl same fun before' c d after' place on => ?_
          rcases cons_eq_append_cons_cons place with ⟨rfl, rfl, rfl⟩ | ⟨p, -, place⟩
          · exact .inr ⟨rfl, le_rfl⟩
          · exact absurd on (apart p c d after' place)
        | @some before u v after place on least =>
          dsimp only [Option.elim]
          split
          · rename_i le
            refine .some (before := []) rfl same fun before' c d after' place' on' => ?_
            rcases cons_eq_append_cons_cons place' with ⟨rfl, rfl, rfl⟩ | ⟨p, rfl, inner⟩
            · exact .inr ⟨rfl, le_rfl⟩
            · have := least p c d after' inner on'
              simp only [List.length_nil, List.length_cons]
              omega
          · rename_i gt
            refine .some (before := a :: before) (by rw [place]; rfl) on fun before' c d after' place' on' => ?_
            rcases cons_eq_append_cons_cons place' with ⟨rfl, rfl, rfl⟩ | ⟨p, rfl, inner⟩
            · exact .inl (not_le.mp gt)
            · have := least p c d after' inner on'
              simp only [List.length_cons]
              omega
      · rw [if_neg same]
        cases ih with
        | none apart =>
          refine .none fun before' c d after' place => ?_
          rcases cons_eq_append_cons_cons place with ⟨rfl, rfl, rfl⟩ | ⟨p, -, place⟩
          · exact same
          · exact apart p c d after' place
        | @some before u v after place on least =>
          refine .some (before := a :: before) (by rw [place]; rfl) on fun before' c d after' place' on' => ?_
          rcases cons_eq_append_cons_cons place' with ⟨rfl, rfl, rfl⟩ | ⟨p, rfl, inner⟩
          · exact absurd on' same
          · have := least p c d after' inner on'
            simp only [List.length_cons]
            omega

/-- Sixteen entries are the most of which no neighbours share an extent. -/
theorem length_le_of_apart {l : List UnsettledEntry} (sorted : l.Pairwise (UnsettledEntry.clearOf limits))
    (apart : ∀ before a b after, l = before ++ a :: b :: after → a.extent ≠ b.extent) : l.length ≤ 16 := by
  have chain : l.IsChain fun a b => a.extent < b.extent := by
    refine List.isChain_iff_forall_rel_of_append_cons_cons.mpr fun {a b before after} place => ?_
    rw [place] at sorted
    have clear := (List.pairwise_cons.mp (List.pairwise_append.mp sorted).2.1).1 b List.mem_cons_self
    rcases clear with lt | ⟨same, -⟩
    · exact lt
    · exact absurd same (apart before a b after place)
  have nodup : (l.map UnsettledEntry.extent).Nodup := by
    have : IsTrans UnsettledEntry fun a b => a.extent < b.extent := ⟨fun _ _ _ => lt_trans⟩
    exact List.pairwise_map.mpr ((List.isChain_iff_pairwise.mp chain).imp ne_of_lt)
  simpa using nodup.length_le_card

/-! ## A coarsening (R82) -/

/-- Two neighbours of one extent in a legal list. -/
structure Neighbours (limits : ExtentId → Nat) (before : List UnsettledEntry) (a b : UnsettledEntry)
    (after : List UnsettledEntry) : Prop where
  legal : unsettledLegal limits (before ++ a :: b :: after)
  same : a.extent = b.extent

/-- What two neighbours become as one entry of the list. -/
def joined (limits : ExtentId → Nat) (before : List UnsettledEntry) (a b : UnsettledEntry)
    (after : List UnsettledEntry) : UnsettledEntry :=
  absorbing limits (a.merge (limits a.extent) b) (before ++ a :: b :: after)

theorem insertUnsettledSorted_append {m : UnsettledEntry} {before rest : List UnsettledEntry}
    (earlier : ∀ y ∈ before, m.before y = false) (later : ∀ y ∈ rest, m.before y = true) :
    insertUnsettledSorted m (before ++ rest) = before ++ m :: rest := by
  induction before with
  | nil =>
    cases rest with
    | nil => rfl
    | cons x tail => exact if_pos (later x List.mem_cons_self)
  | cons x tail ih =>
    obtain ⟨first, earlier⟩ := List.forall_mem_cons.mp earlier
    rw [List.cons_append, insertUnsettledSorted, if_neg (by simp [first]), ih earlier]
    rfl

namespace Neighbours

variable {before after : List UnsettledEntry} {a b : UnsettledEntry} (h : Neighbours limits before a b after)
include h

theorem legalA : a.legal limits := h.legal.2.1 a (by simp)

theorem legalB : b.legal limits := h.legal.2.1 b (by simp)

theorem clear : a.lastRow limits + 1 < b.first := by
  have apart := (List.pairwise_cons.mp (List.pairwise_append.mp h.legal.2.2).2.1).1 b List.mem_cons_self
  rcases apart with lt | ⟨-, gap⟩
  · exact absurd (h.same ▸ lt) (lt_irrefl _)
  · exact gap

theorem merge : UnsettledEntry.HullOf limits (fun y => y = a ∨ y = b) (a.merge (limits a.extent) b) :=
  .merge h.legalA h.legalB h.same

theorem merge_first : (a.merge (limits a.extent) b).first = a.first := by
  have rising := h.legalA.first_le
  have gap := h.clear
  have low := h.merge.first_le a (.inl rfl)
  obtain ⟨y, rfl | rfl, first⟩ := h.merge.first_mem
  · exact first
  · omega

theorem merge_extent : (a.merge (limits a.extent) b).extent = a.extent := (h.merge.extent a (.inl rfl)).symm

/-- The earlier neighbour does not reach to the last row. -/
theorem counted : a.toEnd = false := by
  by_contra reaches
  have last : a.lastRow limits = limits a.extent := UnsettledEntry.lastRow_of_toEnd (by simpa using reaches)
  have gap := h.clear
  have first := h.legalB.1
  rw [← h.same] at first
  omega

theorem merge_toEnd : (a.merge (limits a.extent) b).toEnd = true ↔
    b.toEnd = true ∨ Config.maxCount < b.lastRow limits + 1 - a.first := by
  have gap := h.clear
  have rising := h.legalB.first_le
  have counted := h.counted
  rw [h.merge.toEnd_iff, h.merge_first]
  constructor
  · rintro ⟨y, rfl | rfl, reaches | wide⟩
    · exact Bool.noConfusion (counted.symm.trans reaches)
    · exact .inr (by omega)
    · exact .inl reaches
    · exact .inr wide
  · exact fun why => ⟨b, .inr rfl, why⟩

theorem merge_last (fits : (a.merge (limits a.extent) b).toEnd = false) :
    (a.merge (limits a.extent) b).lastRow limits = b.lastRow limits := by
  have gap := h.clear
  have rising := h.legalB.first_le
  have high := h.merge.le_last fits b (.inr rfl)
  obtain ⟨y, rfl | rfl, last⟩ := h.merge.last_mem fits
  · omega
  · exact last

/-- An entry of the list that meets the merged neighbours begins at or after the first of them, and unless they reach to
the last row it is one of them. -/
theorem of_meets {y : UnsettledEntry} (mem : y ∈ before ++ a :: b :: after)
    (meets : Meets limits y (a.merge (limits a.extent) b)) :
    a.first ≤ y.first ∧ ((a.merge (limits a.extent) b).toEnd = false → y = a ∨ y = b) := by
  have gap := h.clear
  have risingA := h.legalA.first_le
  have risingB := h.legalB.first_le
  obtain ⟨on, low, high⟩ := meets
  rw [h.merge_extent] at on
  rw [h.merge_first] at high
  obtain ⟨-, back, cross⟩ := List.pairwise_append.mp h.legal.2.2
  obtain ⟨-, back⟩ := List.pairwise_cons.mp back
  have later := (List.pairwise_cons.mp back).1
  simp only [List.mem_append, List.mem_cons] at mem
  rcases mem with mem | rfl | rfl | mem
  · have clear := cross y mem a List.mem_cons_self
    rcases clear with lt | ⟨-, gap'⟩
    · exact absurd (on ▸ lt) (lt_irrefl _)
    · have : y.last (limits y.extent) = y.lastRow limits := rfl
      omega
  · exact ⟨le_rfl, fun _ => .inl rfl⟩
  · exact ⟨by omega, fun _ => .inr rfl⟩
  · have clear := later y mem
    rcases clear with lt | ⟨-, gap'⟩
    · exact absurd (h.same ▸ on ▸ lt) (lt_irrefl _)
    · have : b.last (limits b.extent) = b.lastRow limits := rfl
      refine ⟨by omega, fun fits => ?_⟩
      rw [h.merge_last fits] at low
      omega

theorem hull : UnsettledEntry.HullOf limits (fun y => (y = a.merge (limits a.extent) b ∨ y ∈ before ++ a :: b :: after) ∧
    Meets limits y (a.merge (limits a.extent) b)) (joined limits before a b after) :=
  UnsettledEntry.absorbing_hull h.legal.2.1 h.legal.2.2 h.merge.legal

theorem joined_extent : (joined limits before a b after).extent = a.extent :=
  (absorbing_extent h.legal h.merge.legal).trans h.merge_extent

theorem joined_first : (joined limits before a b after).first = a.first := by
  have low := h.hull.first_le _ ⟨.inl rfl, h.merge.legal.meets_self⟩
  rw [h.merge_first] at low
  obtain ⟨y, ⟨rfl | mem, here⟩, first⟩ := h.hull.first_mem
  · exact first.trans h.merge_first
  · exact le_antisymm low (first ▸ (h.of_meets mem here).1)

theorem joined_toEnd : (joined limits before a b after).toEnd = true ↔
    b.toEnd = true ∨ Config.maxCount < b.lastRow limits + 1 - a.first := by
  rw [← h.merge_toEnd]
  constructor
  · intro reaches
    by_contra fits
    have fits : (a.merge (limits a.extent) b).toEnd = false := Bool.eq_false_iff.mpr fits
    obtain ⟨y, ⟨rfl | mem, here⟩, why⟩ := h.hull.toEnd_iff.mp reaches
    · rw [h.joined_first, ← h.merge_first] at why
      have := h.merge.legal.size_le fits
      rcases why with toEnd | wide
      · exact Bool.noConfusion (fits.symm.trans toEnd)
      · omega
    · rw [h.joined_first, ← h.merge_first] at why
      have := h.merge.toEnd_iff.mpr ⟨y, (h.of_meets mem here).2 fits, why⟩
      exact Bool.noConfusion (fits.symm.trans this)
  · exact fun toEnd => h.hull.toEnd_iff.mpr ⟨_, ⟨.inl rfl, h.merge.legal.meets_self⟩, .inl toEnd⟩

theorem joined_last (fits : (joined limits before a b after).toEnd = false) :
    (joined limits before a b after).lastRow limits = b.lastRow limits := by
  have small : (a.merge (limits a.extent) b).toEnd = false := by
    by_contra toEnd
    have := h.joined_toEnd.mpr (h.merge_toEnd.mp (by simpa using toEnd))
    exact Bool.noConfusion (fits.symm.trans this)
  have high := h.hull.le_last fits _ ⟨.inl rfl, h.merge.legal.meets_self⟩
  rw [h.merge_last small] at high
  obtain ⟨y, ⟨rfl | mem, here⟩, last⟩ := h.hull.last_mem fits
  · exact last.trans (h.merge_last small)
  · have gap := h.clear
    have rising := h.legalB.first_le
    rcases (h.of_meets mem here).2 small with rfl | rfl
    · omega
    · exact last

theorem joined_reach : b.lastRow limits ≤ (joined limits before a b after).lastRow limits := by
  cases toEnd : (joined limits before a b after).toEnd with
  | true =>
    rw [UnsettledEntry.lastRow_of_toEnd toEnd, h.joined_extent, h.same]
    exact h.legalB.lastRow_le
  | false => exact (h.joined_last toEnd).ge

/-- The list once the two are one entry. -/
theorem absorbed : absorbUnsettled (limits a.extent) (a.merge (limits a.extent) b) (before ++ a :: b :: after) =
    before ++ joined limits before a b after ::
      after.filter fun y => !y.meets (limits a.extent) (joined limits before a b after) := by
  have eq := absorbUnsettled_eq (limits := limits) (e := a.merge (limits a.extent) b) (l := before ++ a :: b :: after)
  rw [h.merge_extent, ← joined] at eq
  have meets_iff (y : UnsettledEntry) := UnsettledEntry.meets_iff (limits := limits) (y := y) h.joined_extent
  have first := h.joined_first
  have extent := h.joined_extent
  have reach := h.joined_reach
  have gap := h.clear
  have risingA := h.legalA.first_le
  have risingB := h.legalB.first_le
  obtain ⟨-, back, cross⟩ := List.pairwise_append.mp h.legal.2.2
  have later := (List.pairwise_cons.mp (List.pairwise_cons.mp back).2).1
  generalize joined limits before a b after = m at *
  have meetsA : Meets limits a m := ⟨extent.symm, by omega, by omega⟩
  have meetsB : Meets limits b m := ⟨h.same.symm.trans extent.symm, by omega, by omega⟩
  have clear : ∀ y ∈ before, ¬ Meets limits y m := by
    rintro y mem ⟨on, -, touch⟩
    rcases cross y mem a List.mem_cons_self with lt | ⟨-, apart⟩
    · exact absurd (on.trans extent ▸ lt) (lt_irrefl _)
    · have : y.last (limits y.extent) = y.lastRow limits := rfl
      omega
  rw [eq, List.filter_append, List.filter_eq_self.mpr fun y mem => by
      rw [Bool.not_eq_true', ← Bool.not_eq_true, meets_iff]
      exact clear y mem,
    List.filter_cons_of_neg (by simpa using (meets_iff a).mpr meetsA),
    List.filter_cons_of_neg (by simpa using (meets_iff b).mpr meetsB),
    insertUnsettledSorted_append]
  · intro y mem
    have rising := (h.legal.2.1 y (List.mem_append_left _ mem)).first_le
    rw [← Bool.not_eq_true, UnsettledEntry.before, Bool.or_eq_true, Bool.and_eq_true, decide_eq_true_eq, beq_iff_eq,
      decide_eq_true_eq, extent, first]
    rcases cross y mem a List.mem_cons_self with lt | ⟨on, apart⟩
    · rintro (gt | ⟨on, -⟩)
      · exact lt_asymm lt gt
      · exact absurd (on ▸ lt) (lt_irrefl _)
    · have : y.last (limits y.extent) = y.lastRow limits := rfl
      rintro (gt | ⟨-, lt⟩)
      · exact absurd (on ▸ gt) (lt_irrefl _)
      · omega
  · intro y mem
    rw [UnsettledEntry.before, Bool.or_eq_true, Bool.and_eq_true, decide_eq_true_eq, beq_iff_eq, decide_eq_true_eq, extent,
      first, h.same]
    refine (later y (List.mem_of_mem_filter mem)).imp id fun ⟨on, apart⟩ => ⟨on, ?_⟩
    have : b.last (limits b.extent) = b.lastRow limits := rfl
    omega

end Neighbours

/-- A full legal list is coarsened at its closest neighbours, once. -/
theorem coarsenUnsettled_spec {l : List UnsettledEntry} (legal : unsettledLegal limits l) (full : l.length = 64) :
    ∃ before a b after, l = before ++ a :: b :: after ∧ Neighbours limits before a b after ∧
      (∀ before' c d after', l = before' ++ c :: d :: after' → c.extent = d.extent →
        a.gap limits b < c.gap limits d ∨ (a.gap limits b = c.gap limits d ∧ before.length ≤ before'.length)) ∧
      coarsenUnsettled limits l = before ++ joined limits before a b after ::
        after.filter fun y => !y.meets (limits a.extent) (joined limits before a b after) := by
  have found := closestUnsettled_closest (limits := limits) l
  cases closest : closestUnsettled limits l with
  | none =>
    rw [closest] at found
    cases found with
    | none apart =>
      have few := length_le_of_apart legal.2.2 apart
      omega
  | some best =>
    rw [closest] at found
    cases found with
    | @some before a b after place same least =>
      have neighbours : Neighbours limits before a b after := ⟨place ▸ legal, same⟩
      refine ⟨before, a, b, after, place, neighbours, least, ?_⟩
      rw [← neighbours.absorbed, ← place]
      simp only [coarsenUnsettled, closest]

end Sys2Proof.Machine
end

section
/-! O11: what enters the unsettled-row list at an engine reset and what a resynced row takes off. -/

namespace Sys2Proof.Machine

open UnsettledEntry (Meets absorbing)

variable {limits : ExtentId → Nat} {l : List UnsettledEntry} {x : ExtentId} {row : Nat}

/-! ## A row inserted (R82) -/

/-- A coarsening keeps the form of the list and the rows listed, and makes room. -/
theorem Neighbours.kept {before after : List UnsettledEntry} {a b : UnsettledEntry}
    (h : Neighbours limits before a b after) {coarse : List UnsettledEntry}
    (is : coarse = before ++ joined limits before a b after ::
      after.filter fun y => !y.meets (limits a.extent) (joined limits before a b after)) :
    unsettledLegal limits coarse ∧ coarse.length < (before ++ a :: b :: after).length ∧
      ∀ y r, Unsettled limits (before ++ a :: b :: after) y r → Unsettled limits coarse y r := by
  have shorter : coarse.length < (before ++ a :: b :: after).length := by
    have fewer : (after.filter fun y => !y.meets (limits a.extent) (joined limits before a b after)).length ≤
      after.length := List.length_filter_le _ _
    simp only [is, List.length_append, List.length_cons]
    omega
  have meets : Meets limits a (a.merge (limits a.extent) b) := by
    have low := h.merge_first
    have gap := h.clear
    have risingA := h.legalA.first_le
    have risingB := h.legalB.first_le
    have rising := h.merge.legal.first_le
    exact ⟨h.merge_extent.symm, by omega, by omega⟩
  rw [← h.absorbed] at is
  have legal := unsettledLegal_absorbUnsettled h.legal h.merge.legal (.inr ⟨a, by simp, meets⟩)
  rw [h.merge_extent, ← is] at legal
  refine ⟨legal, shorter, fun y r listed => ?_⟩
  have stays := unsettled_absorbUnsettled h.legal h.merge.legal (.inl listed)
  rwa [h.merge_extent, ← is] at stays

/-- An insertion keeps the form of the list, unlists no row and lists the row. -/
structure Inserted (limits : ExtentId → Nat) (x : ExtentId) (row : Nat) (l out : List UnsettledEntry) : Prop where
  legal : unsettledLegal limits out
  keeps : ∀ y r, Unsettled limits l y r → Unsettled limits out y r
  lists : Unsettled limits out x row

theorem inserted_of_room (legal : unsettledLegal limits l) (within : row ≤ limits x)
    (room : Unsettled limits l x row ∨ l.length < 64 ∨ ∃ y ∈ l, Meets limits y (rowEntry x row)) :
    Inserted limits x row l (insertUnsettled limits x row l) := by
  by_cases listed : Unsettled limits l x row
  · rw [insertUnsettled_of_listed listed]
    exact ⟨legal, fun _ _ => id, listed⟩
  · have room := room.resolve_left listed
    have entry := rowEntry_legal within
    rw [insertUnsettled_of_new listed room]
    exact ⟨unsettledLegal_absorbUnsettled legal entry room,
      fun y r h => unsettled_absorbUnsettled legal entry (.inl h),
      unsettled_absorbUnsettled legal entry (.inr ⟨rfl, le_rfl, le_rfl⟩)⟩

/-- What a full list that the row is clear of becomes. -/
theorem insertUnsettled_coarsened (legal : unsettledLegal limits l) (full : l.length = 64)
    (new : ¬ Unsettled limits l x row) (clear : ¬ ∃ y ∈ l, Meets limits y (rowEntry x row)) :
    ∃ before a b after, l = before ++ a :: b :: after ∧ Neighbours limits before a b after ∧
      (∀ before' c d after', l = before' ++ c :: d :: after' → c.extent = d.extent →
        a.gap limits b < c.gap limits d ∨ (a.gap limits b = c.gap limits d ∧ before.length ≤ before'.length)) ∧
      insertUnsettled limits x row l = insertUnsettled limits x row (before ++ joined limits before a b after ::
        after.filter fun y => !y.meets (limits a.extent) (joined limits before a b after)) := by
  obtain ⟨before, a, b, after, place, neighbours, least, coarse⟩ := coarsenUnsettled_spec legal full
  have shorter := (neighbours.kept coarse).2.1
  rw [← place, full] at shorter
  exact ⟨before, a, b, after, place, neighbours, least,
    coarse ▸ insertUnsettled_of_full new (by omega) clear shorter⟩

theorem inserted (legal : unsettledLegal limits l) (within : row ≤ limits x) :
    Inserted limits x row l (insertUnsettled limits x row l) := by
  by_cases room : Unsettled limits l x row ∨ l.length < 64 ∨ ∃ y ∈ l, Meets limits y (rowEntry x row)
  · exact inserted_of_room legal within room
  · simp only [not_or] at room
    obtain ⟨new, large, clear⟩ := room
    have full : l.length = 64 := le_antisymm legal.1 (not_lt.mp large)
    obtain ⟨before, a, b, after, place, neighbours, -, out⟩ := insertUnsettled_coarsened legal full new clear
    obtain ⟨coarse, shorter, keeps⟩ := neighbours.kept rfl
    rw [← place] at shorter keeps
    rw [out]
    have then' := inserted_of_room coarse within (.inr (.inl (lt_of_lt_of_eq shorter full)))
    exact ⟨then'.legal, fun y r listed => then'.keeps y r (keeps y r listed), then'.lists⟩

/-- A listed row lies within an entry, and so is not clear of the list. -/
theorem meets_of_unsettled (listed : Unsettled limits l x row) : ∃ y ∈ l, Meets limits y (rowEntry x row) := by
  obtain ⟨y, mem, on, first, last⟩ := unsettled_iff.mp listed
  exact ⟨y, mem, on, first.trans (Nat.le_succ _), last.trans (Nat.le_succ _)⟩

/-- A largest value over a list that is not empty. -/
theorem exists_largest {α : Type} (f : α → Nat) (P : α → Prop) {l : List α} (some : ∃ y ∈ l, P y) :
    ∃ y ∈ l, P y ∧ ∀ z ∈ l, P z → f z ≤ f y := by
  classical
  have filled : (l.filter fun y => P y) ≠ [] := by
    obtain ⟨y, mem, holds⟩ := some
    exact List.ne_nil_of_mem (List.mem_filter.mpr ⟨mem, decide_eq_true holds⟩)
  cases found : (l.filter fun y => P y).argmax f with
  | none => exact absurd (List.argmax_eq_none.mp found) filled
  | some y =>
    obtain ⟨mem, holds⟩ := List.mem_filter.mp (List.argmax_mem found)
    exact ⟨y, mem, of_decide_eq_true holds, fun z mem holds =>
      List.le_of_mem_argmax (List.mem_filter.mpr ⟨mem, decide_eq_true holds⟩) found⟩

/-- The entry that a row with room, or with neighbours, becomes: the hull of those, or reaching to the last row. -/
structure RowJoined (limits : ExtentId → Nat) (x : ExtentId) (row : Nat) (l out : List UnsettledEntry)
    (m : UnsettledEntry) (high : Nat) : Prop where
  extent : m.extent = x
  mem_iff : ∀ y, y ∈ out ↔ y = m ∨ (y ∈ l ∧ ¬ Meets limits y m)
  bounds : ∀ y ∈ rowEntry x row :: l, Meets limits y (rowEntry x row) → m.first ≤ y.first ∧ y.lastRow limits ≤ high
  first : ∃ y ∈ rowEntry x row :: l, Meets limits y (rowEntry x row) ∧ m.first = y.first
  last : ∃ y ∈ rowEntry x row :: l, Meets limits y (rowEntry x row) ∧ y.lastRow limits = high
  toEnd_iff : m.toEnd = true ↔ (∃ y ∈ l, Meets limits y (rowEntry x row) ∧ y.toEnd = true) ∨
    Config.maxCount < high + 1 - m.first
  counted : m.toEnd = false → m.lastRow limits = high
  adds : m.toEnd = false ∨ (∃ y ∈ l, Meets limits y (rowEntry x row) ∧ y.toEnd = true) →
    ∀ y r, Unsettled limits out y r → Unsettled limits l y r ∨ (y = x ∧ r = row)

theorem rowJoined (legal : unsettledLegal limits l) (within : row ≤ limits x) (new : ¬ Unsettled limits l x row)
    (room : l.length < 64 ∨ ∃ y ∈ l, Meets limits y (rowEntry x row)) :
    ∃ m high, RowJoined limits x row l (insertUnsettled limits x row l) m high := by
  have entry := rowEntry_legal within
  have hull := UnsettledEntry.absorbing_hull legal.2.1 legal.2.2 entry
  have extent := absorbing_extent legal entry
  have mem_iff (y : UnsettledEntry) := mem_absorbUnsettled (y := y) legal entry
  rw [insertUnsettled_of_new new room]
  change ∀ y, y ∈ absorbUnsettled (limits x) (rowEntry x row) l ↔ _ at mem_iff
  generalize absorbing limits (rowEntry x row) l = m at *
  generalize absorbUnsettled (limits x) (rowEntry x row) l = out at *
  have self := entry.meets_self
  obtain ⟨y₀, mem₀, meets₀, largest⟩ := exists_largest (UnsettledEntry.lastRow limits)
    (fun y => Meets limits y (rowEntry x row)) ⟨rowEntry x row, List.mem_cons_self (l := l), self⟩
  have picked {y : UnsettledEntry} (mem : y ∈ rowEntry x row :: l) (meets : Meets limits y (rowEntry x row)) :
      (y = rowEntry x row ∨ y ∈ l) ∧ Meets limits y (rowEntry x row) := ⟨List.mem_cons.mp mem, meets⟩
  have rising := hull.legal.first_le
  refine ⟨m, y₀.lastRow limits, extent, mem_iff, fun y mem meets => ⟨hull.first_le y (picked mem meets), largest y mem meets⟩,
    ?_, ⟨y₀, mem₀, meets₀, rfl⟩, ⟨fun reaches => ?_, fun why => ?_⟩, fun counted => ?_, fun few y r listed => ?_⟩
  · obtain ⟨y, ⟨is, meets⟩, first⟩ := hull.first_mem
    exact ⟨y, List.mem_cons.mpr is, meets, first⟩
  · obtain ⟨y, ⟨is, meets⟩, toEnd | wide⟩ := hull.toEnd_iff.mp reaches
    · rcases is with rfl | mem
      · cases toEnd
      · exact .inl ⟨y, mem, meets, toEnd⟩
    · have := largest y (List.mem_cons.mpr is) meets
      exact .inr (by omega)
  · rcases why with ⟨y, mem, meets, toEnd⟩ | wide
    · exact hull.toEnd_iff.mpr ⟨y, ⟨.inr mem, meets⟩, .inl toEnd⟩
    · exact hull.toEnd_iff.mpr ⟨y₀, picked mem₀ meets₀, .inr wide⟩
  · obtain ⟨y, ⟨is, meets⟩, last⟩ := hull.last_mem counted
    have := largest y (List.mem_cons.mpr is) meets
    have := hull.le_last counted y₀ (picked mem₀ meets₀)
    omega
  · obtain ⟨z, mem, on, first, last⟩ := unsettled_iff.mp listed
    rw [unsettled_iff]
    rcases (mem_iff z).mp mem with rfl | ⟨mem, -⟩
    · have here : y = x := on.symm.trans extent
      subst here
      have enter {w : UnsettledEntry} (mem : w ∈ l) (meets : Meets limits w (rowEntry y row)) (first : w.first ≤ r)
          (last : r ≤ w.lastRow limits) : (∃ w ∈ l, w.extent = y ∧ w.first ≤ r ∧ r ≤ w.lastRow limits) ∨ (y = y ∧ r = row) :=
        .inl ⟨w, mem, meets.1, first, last⟩
      rcases Nat.lt_trichotomy r row with lt | rfl | gt
      · obtain ⟨w, ⟨rfl | mem, meets⟩, low⟩ := hull.first_mem
        · have : (rowEntry y row).first = row := rfl
          omega
        · have : row ≤ w.lastRow limits + 1 := meets.2.2
          exact enter mem meets (by omega) (by omega)
      · exact .inr ⟨rfl, rfl⟩
      · have reach {w : UnsettledEntry} (mem : w ∈ l) (meets : Meets limits w (rowEntry y row))
            (last : r ≤ w.lastRow limits) := enter mem meets (by
              have : w.first ≤ row + 1 := meets.2.1
              omega) last
        rcases few with counted | ⟨w, mem, meets, toEnd⟩
        · obtain ⟨w, ⟨rfl | mem, meets⟩, high⟩ := hull.last_mem counted
          · rw [lastRow_rowEntry] at high
            omega
          · exact reach mem meets (high ▸ last)
        · refine reach mem meets ?_
          have top := hull.legal.lastRow_le
          rw [UnsettledEntry.lastRow_of_toEnd toEnd, meets.1]
          rw [extent] at top
          exact last.trans top
    · exact .inl ⟨z, mem, on, first, last⟩

end Sys2Proof.Machine
end

section
/-! O11: what a resynced row takes off the unsettled-row list (R83). -/

namespace Sys2Proof.Machine

variable {limit : Nat} {full : Bool} {x : ExtentId} {row : Nat}

/-- The row lies in the entry. -/
def UnsettledEntry.Holds (limit : Nat) (x : ExtentId) (row : Nat) (y : UnsettledEntry) : Prop :=
  y.extent = x ∧ y.first ≤ row ∧ row ≤ y.last limit

theorem removeUnsettled_of_none {l : List UnsettledEntry} (clear : ∀ y ∈ l, ¬ y.Holds limit x row) :
    removeUnsettled limit full x row l = none := by
  induction l with
  | nil => rfl
  | cons y rest ih =>
    obtain ⟨not, clear⟩ := List.forall_mem_cons.mp clear
    rw [removeUnsettled, if_neg (show ¬ (_ ∧ _ ∧ _) from not), ih clear]
    rfl

/-- The first entry that holds the row gives way to what is left of it. -/
theorem removeUnsettled_of_holds {before after : List UnsettledEntry} {e : UnsettledEntry}
    (clear : ∀ y ∈ before, ¬ y.Holds limit x row) (holds : e.Holds limit x row) :
    removeUnsettled limit full x row (before ++ e :: after) =
      (e.without limit full row).map fun parts => before ++ (parts ++ after) := by
  induction before with
  | nil => exact if_pos holds
  | cons y rest ih =>
    obtain ⟨not, clear⟩ := List.forall_mem_cons.mp clear
    rw [List.cons_append, removeUnsettled, if_neg (show ¬ (_ ∧ _ ∧ _) from not), ih clear, Option.map_map]
    rfl

theorem counted_eq (x : ExtentId) (first last : Nat) : UnsettledEntry.counted x first last =
    if last + 1 - first ≤ 2 ^ 32 - 1 then some { extent := x, first := first, count := last + 1 - first, toEnd := false }
    else none := rfl

namespace UnsettledEntry

variable {e : UnsettledEntry}

/-- The rows of the entry below `row`. -/
def below (e : UnsettledEntry) (row : Nat) : UnsettledEntry :=
  { extent := e.extent, first := e.first, count := row - e.first, toEnd := false }

/-- The rows of the entry above `row`, `last` being its last row. -/
def above (e : UnsettledEntry) (row last : Nat) : UnsettledEntry :=
  { extent := e.extent, first := row + 1, count := last - row, toEnd := false }

theorem counted_below (inside : e.first < row) : counted e.extent e.first (row - 1) =
    if row - e.first ≤ 2 ^ 32 - 1 then some (e.below row) else none := by
  rw [counted_eq, show row - 1 + 1 - e.first = row - e.first by omega]
  rfl

theorem counted_above (last : Nat) : counted e.extent (row + 1) last =
    if last - row ≤ 2 ^ 32 - 1 then some (e.above row last) else none := by
  rw [counted_eq, show last + 1 - (row + 1) = last - row by omega]
  rfl

theorem without_of_alone (first : e.first = row) (last : e.last limit = row) : e.without limit full row = some [] :=
  if_pos ⟨first, last⟩

theorem without_of_first (first : e.first = row) (last : row < e.last limit) : e.without limit full row =
    if e.last limit - row ≤ 2 ^ 32 - 1 then some [e.above row (e.last limit)] else none := by
  rw [without, if_neg (by omega), if_pos first, counted_above]
  split <;> rfl

theorem without_of_last (first : e.first < row) (last : e.last limit = row) : e.without limit full row =
    if row - e.first ≤ 2 ^ 32 - 1 then some [e.below row] else none := by
  rw [without, if_neg (by omega), if_neg (by omega), if_pos last, counted_below first]
  split <;> rfl

theorem without_of_inside (first : e.first < row) (last : row < e.last limit) : e.without limit full row =
    if full = true ∨ ¬ row - e.first ≤ 2 ^ 32 - 1 then none
    else some [e.below row, if e.last limit - row ≤ 2 ^ 32 - 1 then e.above row (e.last limit)
      else { extent := e.extent, first := row + 1, count := 0, toEnd := true }] := by
  rw [without, if_neg (by omega), if_neg (by omega), if_neg (by omega), counted_below first, counted_above]
  cases full with
  | true => rfl
  | false =>
    rw [if_neg Bool.false_ne_true]
    by_cases fits : row - e.first ≤ 2 ^ 32 - 1
    · have goes : ¬ (false = true ∨ ¬ row - e.first ≤ 2 ^ 32 - 1) :=
        fun stays => stays.elim Bool.false_ne_true fun large => large fits
      rw [if_neg goes, if_pos fits]
      by_cases high : e.last limit - row ≤ 2 ^ 32 - 1
      · rw [if_pos high, if_pos high]
        rfl
      · rw [if_neg high, if_neg high]
        rfl
    · have stays : false = true ∨ ¬ row - e.first ≤ 2 ^ 32 - 1 := .inr fits
      rw [if_pos stays, if_neg fits]
      rfl

end UnsettledEntry

end Sys2Proof.Machine
end

section
/-! SUPPORT. The unsettled-row list stands while a member's state changes and row operations end (R22, R63, R71). -/

namespace Sys2Proof.Machine

/-- The unsettled-row list of `t` is that of `s`. -/
def State.KeepsUnsettled (s t : State) : Prop := t.rows.unsettled = s.rows.unsettled

namespace State.KeepsUnsettled

theorem refl (s : State) : s.KeepsUnsettled s := rfl

theorem trans {s t u : State} (h : s.KeepsUnsettled t) (k : t.KeepsUnsettled u) : s.KeepsUnsettled u := Eq.trans k h

theorem ite {s t u : State} {c : Prop} [Decidable c] (h : s.KeepsUnsettled t) (k : s.KeepsUnsettled u) :
    s.KeepsUnsettled (if c then t else u) := by
  split
  · exact h
  · exact k

theorem foldl {α : Type} {f : State → α → State} (h : ∀ (s : State) (x : α), s.KeepsUnsettled (f s x)) (l : List α)
    (s : State) : s.KeepsUnsettled (l.foldl f s) := by
  induction l generalizing s with
  | nil => exact refl s
  | cons x rest ih => exact (h s x).trans (ih _)

end State.KeepsUnsettled

theorem State.keepsUnsettled_endWaiting (s : State) (r : RowRequest) (outcome : RowOutcome) :
    s.KeepsUnsettled (s.endWaiting r outcome) := by
  have told := (s.movesOwners_ownerTold r.operation outcome false false).rows
  have ends : s.endWaiting r outcome = (s.ownerTold r.operation outcome false false).withRows
      fun x => { x with contextWait := x.contextWait.filter (· != r) } := rfl
  rw [ends]
  show (s.ownerTold r.operation outcome false false).rows.unsettled = s.rows.unsettled
  rw [told]

theorem State.keepsUnsettled_endIdle (s : State) (which : RowOwner → ExtentId → Bool) (outcome : RowOutcome) :
    s.KeepsUnsettled (s.endIdle which outcome) :=
  .trans (.foldl (fun s r => s.keepsUnsettled_endWaiting r outcome) _ s)
    (.foldl (f := fun (s : State) (x : ContextId × Operation) => s.endOperation x.1 outcome)
      (fun s x => s.unsettled_endOperationWith x.1 outcome false false) _ _)

theorem State.keepsUnsettled_loseRows (s : State) (e : ExtentId) : s.KeepsUnsettled (s.loseRows e) := by
  rw [State.loseRows_eq]
  exact .trans (s.keepsUnsettled_endIdle _ _)
    (.foldl (f := fun (s : State) (x : ContextId × Operation) => s.bereave x.1)
      (fun s x => (s.movesPorts_bereave x.1).unsettled) _ _)

theorem State.keepsUnsettled_drainJob (s : State) (j : JobId) (cause : EndCause) :
    s.KeepsUnsettled (s.drainJob j cause) := by
  have superseded : s.KeepsUnsettled (s.supersedePause j cause) := by
    unfold State.supersedePause
    split <;> rfl
  exact .ite superseded (.refl s)

theorem State.keepsUnsettled_jobSeesCondition (s : State) (e : ExtentId) (c : Condition) :
    s.KeepsUnsettled (s.jobSeesCondition e c) := by
  unfold State.jobSeesCondition
  split
  · exact .refl s
  · exact .ite (State.keepsUnsettled_drainJob _ _ _) (.refl s)

theorem State.keepsUnsettled_recompute (s : State) (e : ExtentId) : s.KeepsUnsettled (s.recompute e) := by
  have seen := State.keepsUnsettled_jobSeesCondition
    (s.withExtent e fun x => { x with condition := s.conditionOf e }).askPublish e (s.conditionOf e)
  exact .ite (.ite (.refl s) (.ite (seen.trans (State.keepsUnsettled_loseRows _ e)) seen)) (.refl s)

theorem State.keepsUnsettled_failureSeen (s : State) (p : PortId) : s.KeepsUnsettled (s.failureSeen p) := by
  have copied : s.KeepsUnsettled (s.copyToReconstruct p) := by
    unfold State.copyToReconstruct
    split <;> rfl
  have targets (t : State) (j : JobId) : t.KeepsUnsettled (State.loseTarget p t j) :=
    .ite rfl ((t.keepsUnsettled_drainJob j .targetLost).trans (.ite (State.keepsUnsettled_endIdle _ _ _) (.refl _)))
  exact .ite (copied.trans (.foldl targets _ _)) (.refl s)

theorem State.keepsUnsettled_changeMember (s : State) (p : PortId) (new : MemberState) :
    s.KeepsUnsettled (s.changeMember p new) := by
  have recomputed (t : State) : t.KeepsUnsettled (t.recomputeOf p) := by
    unfold State.recomputeOf
    split
    · exact t.keepsUnsettled_recompute _
    · exact .refl t
  have moved : s.KeepsUnsettled (s.moveMember p new) := (s.movesPorts_moveMember p new).unsettled
  have woken (t : State) : t.KeepsUnsettled (t.askPublish.wake p) := rfl
  rw [State.changeMember_eq, State.reportMember_eq]
  exact ((moved.trans (woken _)).trans (State.keepsUnsettled_failureSeen _ p)).trans (recomputed _)

end Sys2Proof.Machine
end

section
/-! O11: the rows that are live at an engine reset join the unsettled-row list (R81, R82), and the three parts of the
statement. -/

namespace Sys2Proof.Machine

open UnsettledEntry (Meets)

/-! ## The live set (R81) -/

/-- The order of extent and row. -/
def LiveBefore (a b : ExtentId × Nat) : Prop := a.1 < b.1 ∨ (a.1 = b.1 ∧ a.2 < b.2)

theorem mem_insertLive {x y : ExtentId × Nat} {l : List (ExtentId × Nat)} : y ∈ insertLive x l ↔ y = x ∨ y ∈ l := by
  induction l with
  | nil => simp [insertLive]
  | cons z rest ih =>
    unfold insertLive
    split
    · rename_i same
      subst same
      simp
    · split
      · simp
      · simp only [List.mem_cons, ih]
        tauto

theorem LiveBefore.trans {a b c : ExtentId × Nat} (h : LiveBefore a b) (k : LiveBefore b c) : LiveBefore a c := by
  rcases h with lt | ⟨same, lt⟩ <;> rcases k with lt' | ⟨same', lt'⟩
  · exact .inl (lt.trans lt')
  · exact .inl (same' ▸ lt)
  · exact .inl (same ▸ lt')
  · exact .inr ⟨same.trans same', lt.trans lt'⟩

/-- The live set ascends, each row once. -/
theorem insertLive_sorted {x : ExtentId × Nat} {l : List (ExtentId × Nat)} (sorted : l.Pairwise LiveBefore) :
    (insertLive x l).Pairwise LiveBefore := by
  induction l with
  | nil => exact List.pairwise_singleton _ _
  | cons z rest ih =>
    obtain ⟨first, later⟩ := List.pairwise_cons.mp sorted
    unfold insertLive
    split
    · exact sorted
    · rename_i differ
      split
      · rename_i before
        refine List.pairwise_cons.mpr ⟨fun y mem => ?_, sorted⟩
        rcases List.mem_cons.mp mem with rfl | mem
        · exact before
        · exact LiveBefore.trans before (first y mem)
      · rename_i after
        refine List.pairwise_cons.mpr ⟨fun y mem => ?_, ih later⟩
        rcases mem_insertLive.mp mem with rfl | mem
        · rw [not_or, not_and] at after
          obtain ⟨le, row⟩ := after
          rcases lt_or_eq_of_le (not_lt.mp le) with lt | same
          · exact .inl lt
          · have same : z.1 = y.1 := Fin.ext same
            refine .inr ⟨same, lt_of_le_of_ne (not_lt.mp (row same.symm)) fun rows => differ ?_⟩
            exact Prod.ext same.symm rows.symm
        · exact first y mem

theorem State.liveSet_spec (s : State) : s.liveSet.Pairwise LiveBefore ∧ ∀ y, y ∈ s.liveSet ↔
    ∃ c op, s.context c = some op ∧ op.written = true ∧ (op.extent, op.row) = y := by
  have fold (ops : List (ContextId × Operation)) : ∀ l : List (ExtentId × Nat), l.Pairwise LiveBefore →
      (ops.foldl (fun l x => insertLive (x.2.extent, x.2.row) l) l).Pairwise LiveBefore ∧
        ∀ y, y ∈ ops.foldl (fun l x => insertLive (x.2.extent, x.2.row) l) l ↔
          (∃ x ∈ ops, (x.2.extent, x.2.row) = y) ∨ y ∈ l := by
    induction ops with
    | nil => exact fun l sorted => ⟨sorted, by simp⟩
    | cons x rest ih =>
      intro l sorted
      obtain ⟨kept, mem⟩ := ih _ (insertLive_sorted (x := (x.2.extent, x.2.row)) sorted)
      refine ⟨kept, fun y => (mem y).trans ?_⟩
      rw [mem_insertLive, List.exists_mem_cons_iff, eq_comm (a := y), or_left_comm, or_assoc]
  obtain ⟨sorted, mem⟩ := fold (s.operations.filter fun x => x.2.written) [] .nil
  refine ⟨sorted, fun y => (mem y).trans ?_⟩
  simp only [List.not_mem_nil, or_false, List.mem_filter, Prod.exists, State.mem_operations, and_assoc]

/-! ## Live rows inserted (R82) -/

/-- The list after an engine reset is the old one with the live rows inserted. -/
theorem State.unsettled_engineReset (kind : ResetKind) (s : State) :
    (s.engineReset kind).rows.unsettled = s.unsettledAfterReset := by
  have kept (t : State) (targets : List PortId) :
      (targets.foldl (fun s t => s.changeMember t .spare) t).rows.unsettled = t.rows.unsettled :=
    State.KeepsUnsettled.foldl (f := fun (s : State) p => s.changeMember p .spare)
      (fun s p => s.keepsUnsettled_changeMember p .spare) targets t
  unfold State.engineReset
  dsimp only
  rw [kept]

/-- Rows inserted one after another. -/
theorem foldl_inserted {limits : ExtentId → Nat} {live : List (ExtentId × Nat)} (within : ∀ x ∈ live, x.2 ≤ limits x.1)
    {l : List UnsettledEntry} (legal : unsettledLegal limits l) :
    unsettledLegal limits (live.foldl (fun l x => insertUnsettled limits x.1 x.2 l) l) ∧
      (∀ y r, Unsettled limits l y r → Unsettled limits (live.foldl (fun l x => insertUnsettled limits x.1 x.2 l) l) y r) ∧
      ∀ x ∈ live, Unsettled limits (live.foldl (fun l x => insertUnsettled limits x.1 x.2 l) l) x.1 x.2 := by
  induction live generalizing l with
  | nil => exact ⟨legal, fun _ _ => id, by simp⟩
  | cons x rest ih =>
    obtain ⟨here, within⟩ := List.forall_mem_cons.mp within
    have first := inserted (row := x.2) legal here
    obtain ⟨form, keeps, lists⟩ := ih within first.legal
    exact ⟨form, fun y r h => keeps y r (first.keeps y r h),
      List.forall_mem_cons.mpr ⟨keeps x.1 x.2 first.lists, lists⟩⟩

/-- Settles O11: the live set and its insertion by `inserted`, a row with room by the hull of the entries it meets, a full
list by the coarsening at its closest neighbours, and a resynced row by the parts of its entry. -/
theorem liveRowsUnsettled : Obligations.LiveRowsUnsettled := by
  refine ⟨fun s cmd which legal within => ?_, fun limits x row l legal within => ?_, fun limit full x row l => ?_⟩
  · obtain ⟨kind, step⟩ : ∃ kind, exec cmd s = .next (s.engineReset kind) := by
      simp only [List.mem_cons, List.not_mem_nil, or_false] at which
      rcases which with rfl | rfl
      · exact ⟨.command, rfl⟩
      · exact ⟨.link, rfl⟩
    obtain ⟨sorted, mem⟩ := s.liveSet_spec
    have inRange : ∀ x ∈ s.liveSet, x.2 ≤ s.lastRows x.1 := by
      intro x live
      obtain ⟨c, op, held, written, rfl⟩ := (mem x).mp live
      exact within c op held written
    have list := s.unsettled_engineReset kind
    obtain ⟨form, keeps, lists⟩ := foldl_inserted inRange legal
    refine ⟨_, s.liveSet, step, fun x row => (mem (x, row)).trans (by simp only [Prod.mk.injEq]), sorted, list, ?_, ?_,
      fun c op held written => ?_⟩
    · rw [list]
      exact form
    · rw [list]
      exact keeps
    · rw [list]
      exact lists (op.extent, op.row) ((mem _).mpr ⟨c, op, held, written, rfl⟩)
  · intro e out last clear
    have is := inserted legal within
    have clear_iff (y z : UnsettledEntry) : clear y z ↔ ¬ Meets limits y z := UnsettledEntry.clear_iff
    refine ⟨is.legal, is.keeps, is.lists, insertUnsettled_of_listed, fun new room => ?_, fun full alone => ?_⟩
    · simp only [clear_iff, not_not] at room ⊢
      obtain ⟨m, high, joined⟩ := rowJoined legal within new room
      exact ⟨m, joined.extent, joined.mem_iff, high, joined.bounds, joined.first, joined.last, joined.toEnd_iff,
        joined.counted, joined.adds⟩
    · simp only [clear_iff] at alone ⊢
      have meetsNone : ¬ ∃ y ∈ l, Meets limits y (rowEntry x row) := fun ⟨y, mem, meets⟩ => alone y mem meets
      have new : ¬ Unsettled limits l x row := fun listed => meetsNone (meets_of_unsettled listed)
      obtain ⟨before, a, b, after, place, neighbours, least, coarse⟩ := insertUnsettled_coarsened legal full new meetsNone
      have gaps {before' c d after'} (at' : l = before' ++ c :: d :: after') (same : c.extent = d.extent) :
          last c + 1 < d.first :=
        Neighbours.clear (limits := limits) (before := before') (a := c) (b := d) (after := after') ⟨at' ▸ legal, same⟩
      refine ⟨before, a, b, after, joined limits before a b after, place, neighbours.same,
        fun before' c d after' at' same => ?_, neighbours.joined_extent, neighbours.joined_first, neighbours.joined_toEnd,
        neighbours.joined_last, coarse.trans ?_⟩
      · have closest := least before' c d after' at' same
        have gap := gaps place neighbours.same
        have gap' := gaps at' same
        have ofA : a.gap limits b = b.first - last a - 1 := rfl
        have ofC : c.gap limits d = d.first - last c - 1 := rfl
        omega
      · refine congrArg (fun kept => insertUnsettled limits x row (before ++ _ :: kept)) (List.filter_congr fun y _ => ?_)
        rw [Bool.eq_iff_iff, Bool.not_eq_true', ← Bool.not_eq_true, decide_eq_true_eq,
          UnsettledEntry.meets_iff neighbours.joined_extent]
        exact (clear_iff _ _).symm
  · intro holds out fits
    refine ⟨removeUnsettled_of_none, fun before e after place clear held => ?_⟩
    subst place
    have eq := removeUnsettled_of_holds (full := full) (after := after) clear held
    obtain ⟨rfl, -, -⟩ := held
    refine ⟨fun first is => eq.trans ?_, fun first above => eq.trans ?_, fun below is => eq.trans ?_,
      fun below above => eq.trans ?_⟩
    · rw [UnsettledEntry.without_of_alone first is]
      rfl
    · rw [UnsettledEntry.without_of_first first above, apply_ite (Option.map _)]
      rfl
    · rw [UnsettledEntry.without_of_last below is, apply_ite (Option.map _)]
      rfl
    · rw [UnsettledEntry.without_of_inside below above, apply_ite (Option.map _)]
      rfl

end Sys2Proof.Machine
end

section
/-! SUPPORT and O19: what a REBUILD asks for, and its checks. -/

namespace Sys2Proof.Machine

/-! ## What a REBUILD asks for -/

theorem JobMode.ofCode_eq_some {c : Nat} {m : JobMode} : JobMode.ofCode c = some m ↔ m.code = c := by
  constructor
  · intro h
    unfold JobMode.ofCode at h
    split at h <;> cases h <;> rfl
  · rintro rfl
    cases m <;> rfl

/-- Positions and ports pair into sources that name them. -/
theorem pairSources_eq_some {positions targets : List Nat} (paired : positions.length = targets.length)
    {l : List Source} : pairSources positions targets = some l ↔
      l.map Source.position = positions ∧ l.map (fun x => x.target.val) = targets ∧ ∀ q ∈ positions, q < 16 := by
  unfold pairSources
  induction positions generalizing targets l with
  | nil =>
    obtain rfl := List.length_eq_zero_iff.mp paired.symm
    show some [] = some l ↔ _
    cases l <;> simp
  | cons q rest ih =>
    cases targets with
    | nil => cases paired
    | cons t more =>
      have ih := @ih more
      simp only [List.zip_cons_cons, List.mapM_cons, Option.bind_eq_bind, Option.bind_eq_some_iff, Option.pure_def,
        Option.some.injEq, ih (Nat.succ.inj paired), List.forall_mem_cons]
      constructor
      · rintro ⟨x, hx, l, ⟨rfl, rfl, small⟩, rfl⟩
        split at hx
        · rename_i p r hp hr
          cases hx
          rw [← numberOf_eq_some hp, ← numberOf_eq_some hr]
          exact ⟨rfl, rfl, p.isLt, small⟩
        · cases hx
      · rintro ⟨named, aimed, first, small⟩
        obtain ⟨x, l, rfl, rfl, rfl⟩ := List.map_eq_cons_iff.mp named
        obtain ⟨rfl, rfl⟩ := List.cons.inj aimed
        refine ⟨x, ?_, l, ⟨rfl, rfl, small⟩, rfl⟩
        rw [numberOf_val, show numberOf 16 x.position = some ⟨x.position, first⟩ from numberOf_val ⟨x.position, first⟩]

/-- Fields in their ranges (R88 check 1), as O19 writes them. -/
def RebuildFields.InRange (f : RebuildFields) : Prop :=
  f.mode ≤ 1 ∧ f.extent < 16 ∧ (f.sourceCount = 1 ∨ f.sourceCount = 2) ∧ (f.mode = 1 → f.sourceCount = 1) ∧
    (∀ q ∈ f.positions, q < 16) ∧ ∀ q ∈ f.targets, q < 16

/-- The fields of a slip pair each source position with a target. -/
def RebuildFields.Paired (f : RebuildFields) : Prop :=
  f.positions.length = min f.sourceCount 2 ∧ f.targets.length = min f.sourceCount 2

theorem rebuildFields_paired (body : SlipBody) : (rebuildFields body).Paired := by
  simp [RebuildFields.Paired, rebuildFields]

/-- `plan` is what the fields spell. -/
structure RebuildFields.Describes (f : RebuildFields) (plan : RebuildPlan) : Prop where
  mode : plan.mode.code = f.mode
  extent : plan.extent.val = f.extent
  positions : plan.sources.map Source.position = f.positions
  targets : plan.sources.map (fun x => x.target.val) = f.targets

/-- A slip's fields give a plan exactly where they spell it in the ranges of R88 check 1. -/
theorem RebuildFields.plan_eq_some {f : RebuildFields} (paired : f.Paired) {plan : RebuildPlan} :
    f.plan = some plan ↔ f.InRange ∧ f.Describes plan := by
  obtain ⟨positions, targets⟩ := paired
  have sources {l : List Source} := pairSources_eq_some (positions.trans targets.symm) (l := l)
  have copies (m : JobMode) (code : m.code = f.mode) : m = .copy ↔ f.mode = 1 := by
    rw [← code]
    cases m <;> simp [JobMode.code]
  unfold RebuildFields.plan
  constructor
  · intro h
    split at h
    · rename_i mode e l hm he hl
      split at h
      · rename_i counts
        cases h
        have code := JobMode.ofCode_eq_some.mp hm
        have number := numberOf_eq_some he
        obtain ⟨named, aimed, small⟩ := sources.mp hl
        refine ⟨⟨?_, number ▸ e.isLt, counts.1, fun copy => counts.2 ((copies mode code).mpr copy), small, ?_⟩, code, number,
          named, aimed⟩
        · rw [← code]
          cases mode <;> decide
        · rw [← aimed]
          simp
      · cases h
    · cases h
  · rintro ⟨⟨-, -, count, single, small, -⟩, code, number, named, aimed⟩
    rw [JobMode.ofCode_eq_some.mpr code, ← number, numberOf_val, sources.mpr ⟨named, aimed, small⟩]
    exact if_pos ⟨count, fun copy => single ((copies _ code).mp copy)⟩

/-- Fields in their ranges spell a plan. -/
theorem RebuildFields.InRange.exists_plan {f : RebuildFields} (paired : f.Paired) (h : f.InRange) :
    ∃ plan, f.plan = some plan := by
  obtain ⟨modes, extents, -, -, positions, targets⟩ := id h
  obtain ⟨mode, hm⟩ : ∃ m : JobMode, m.code = f.mode := by
    rcases Nat.le_one_iff_eq_zero_or_eq_one.mp modes with is | is
    · exact ⟨.reconstruct, is.symm⟩
    · exact ⟨.copy, is.symm⟩
  obtain ⟨ports, ht⟩ : ∃ t : List PortId, t.map Fin.val = f.targets := CanLift.prf _ targets
  have lengths : f.positions.length = ports.length := by
    rw [paired.1, ← paired.2, ← ht, List.length_map]
  have plan : f.Describes ⟨mode, ⟨f.extent, extents⟩, (f.positions.zip ports).map fun x => ⟨x.1, x.2⟩⟩ := by
    refine ⟨hm, rfl, ?_, ?_⟩
    · rw [List.map_map]
      exact List.map_fst_zip lengths.le
    · have aimed := congrArg (List.map Fin.val) (List.map_snd_zip lengths.ge)
      rw [ht, List.map_map] at aimed
      rw [List.map_map]
      exact aimed
  exact ⟨_, (RebuildFields.plan_eq_some paired).mpr ⟨h, plan⟩⟩

/-! ## The checks (R88) -/

/-- The source positions are positions of the extent, apart, and two only of a kind with two parity strips (R88 check 4). -/
def RebuildPlan.Sited (plan : RebuildPlan) (e : Extent) : Prop :=
  (∀ x ∈ plan.sources, x.position < e.memberCount) ∧ (plan.sources.map Source.position).Nodup ∧
    (plan.sources.length = 2 → e.kind = .double)

/-- The targets are SPARE, their links UP, and apart (R88 check 8). -/
def State.FitsTargets (s : State) (plan : RebuildPlan) : Prop :=
  (∀ x ∈ plan.sources, s.targetSuits x = true) ∧ (plan.sources.map Source.target).Nodup

/-- A job from a row other than the first meets WRITE or RESYNC rows on its extent (R88 check 10). -/
def State.MeetsWrites (s : State) (plan : RebuildPlan) (f : RebuildFields) : Prop :=
  0 < f.startRow ∧ s.rowWorkOn plan.extent (fun k => k == .writeRow || k == .resyncRow) = true

open Classical in
/-- The checks of R88 after the first, in their order. -/
theorem State.checkRebuild_of_plan (s : State) {f : RebuildFields} {plan : RebuildPlan} (spelt : f.plan = some plan) :
    s.checkRebuild f =
      if (s.extent plan.extent).condition = .unused then .error .noExtent
      else if (s.extent plan.extent).condition = .lost then .error .extentLost
      else if ¬ plan.Sited (s.extent plan.extent) then .error .badField
      else if (s.jobOn plan.extent).isSome then .error .busyExtent
      else match s.freeRecord with
        | none => .error .noJobSlot
        | some j =>
          if ¬ ∀ x ∈ plan.sources, s.sourceSuits plan x = true then .error .wrongState
          else if ¬ s.FitsTargets plan then .error .memberConflict
          else if (s.extent plan.extent).rows ≤ f.startRow then .error .outOfRange
          else if s.MeetsWrites plan f then .error .busyExtent
          else .ok (plan, j) := by
  have sited : (!(plan.sources.all fun x => decide (x.position < (s.extent plan.extent).memberCount)) ||
      !(plan.sources.map Source.position).Nodup ||
      (plan.sources.length == 2 && (s.extent plan.extent).kind != .double)) = true ↔
      ¬ plan.Sited (s.extent plan.extent) := by
    simp only [RebuildPlan.Sited, Bool.or_eq_true, Bool.not_eq_true', Bool.and_eq_true, beq_iff_eq, bne_iff_ne,
      ← Bool.not_eq_true, List.all_eq_true, decide_eq_true_eq]
    tauto
  have fit : (!plan.sources.all s.targetSuits || !(plan.sources.map Source.target).Nodup) = true ↔ ¬ s.FitsTargets plan := by
    simp only [State.FitsTargets, Bool.or_eq_true, Bool.not_eq_true', ← Bool.not_eq_true, List.all_eq_true, decide_eq_true_eq]
    tauto
  have suits : (!plan.sources.all (s.sourceSuits plan)) = true ↔ ¬ ∀ x ∈ plan.sources, s.sourceSuits plan x = true := by
    rw [Bool.not_eq_true', ← Bool.not_eq_true, List.all_eq_true]
  have used : (!(s.extent plan.extent).inUse) = true ↔ (s.extent plan.extent).condition = .unused := by
    simp [Extent.inUse]
  have written : (0 < f.startRow ∧ s.rowWorkOn plan.extent (fun k => k == .writeRow || k == .resyncRow) = true) ↔
      s.MeetsWrites plan f := .rfl
  unfold State.checkRebuild
  rw [spelt]
  dsimp only
  simp only [used, sited, suits, fit, written] <;> rfl

theorem ite_error_eq_ok {α : Type} {c : Prop} [Decidable c] {r : Reason} {x : Except Reason α} {y : α} :
    (if c then .error r else x) = .ok y ↔ ¬ c ∧ x = .ok y := by
  split <;> simp [*]

/-- What a REBUILD that passes its checks has met. -/
structure State.RebuildPasses (s : State) (f : RebuildFields) (plan : RebuildPlan) (j : JobId) : Prop where
  spelt : f.plan = some plan
  alone : s.jobOn plan.extent = none
  record : s.freeRecord = some j
  fit : s.FitsTargets plan
  startRow : f.startRow < (s.extent plan.extent).rows

theorem State.rebuildPasses {s : State} {f : RebuildFields} {plan : RebuildPlan} {j : JobId}
    (h : s.checkRebuild f = .ok (plan, j)) : s.RebuildPasses f plan j := by
  cases spelt : f.plan with
  | none =>
    unfold State.checkRebuild at h
    rw [spelt] at h
    cases h
  | some p =>
    rw [s.checkRebuild_of_plan spelt] at h
    cases record : s.freeRecord with
    | none =>
      simp only [record, ite_error_eq_ok] at h
      obtain ⟨-, -, -, -, ⟨⟩⟩ := h
    | some k =>
      simp only [record, ite_error_eq_ok, not_not] at h
      obtain ⟨-, -, -, alone, -, fit, startRow, -, same⟩ := h
      cases same
      exact ⟨spelt, by simpa using alone, record, fit, by omega⟩

/-! ## The record -/

theorem Job.isOn_iff (x : Job) : x.isOn = true ↔ x.state ≠ .free ∧ x.state ≠ .ended := by
  simp [Job.isOn]

theorem State.jobOn_isSome {s : State} {e : ExtentId} :
    (s.jobOn e).isSome = true ↔ ∃ j : JobId, (s.job j).isOn = true ∧ (s.job j).extent = e := by
  simp [State.jobOn, List.find?_isSome]

/-- The lowest-numbered FREE record, or where none is FREE the lowest-numbered ENDED one (R89). -/
theorem State.freeRecord_eq_some {s : State} {j : JobId} : s.freeRecord = some j ↔
    ((s.job j).state = .free ∧ ∀ k : JobId, k < j → (s.job k).state ≠ .free) ∨
      ((∀ k : JobId, (s.job k).state ≠ .free) ∧ (s.job j).state = .ended ∧
        ∀ k : JobId, k < j → (s.job k).state ≠ .ended) := by
  simp [State.freeRecord, Option.or_eq_some_iff, find?_bankIndices_eq_some, List.find?_eq_none]

theorem State.freeRecord_eq_none {s : State} : s.freeRecord = none ↔
    ¬ ∃ j : JobId, (s.job j).state = .free ∨ (s.job j).state = .ended := by
  simp [State.freeRecord, List.find?_eq_none, forall_and]

/-- The record taken belongs to no job that is on an extent. -/
theorem State.isOn_freeRecord {s : State} {j : JobId} (h : s.freeRecord = some j) : (s.job j).isOn = false := by
  rcases State.freeRecord_eq_some.mp h with ⟨state, -⟩ | ⟨-, state, -⟩ <;> simp [Job.isOn, state]

/-! ## What the checks ask of the fields -/

section
variable {f : RebuildFields} {plan : RebuildPlan} (h : f.Describes plan)
include h

theorem RebuildFields.Describes.sourceCount (paired : f.Paired) (ranges : f.InRange) :
    plan.sources.length = f.sourceCount := by
  obtain ⟨-, -, count, -⟩ := ranges
  have length := congrArg List.length h.positions
  rw [List.length_map, paired.1] at length
  omega

theorem RebuildFields.Describes.sited_iff (paired : f.Paired) (ranges : f.InRange) (e : Extent) : plan.Sited e ↔
    (∀ q ∈ f.positions, q < e.memberCount) ∧ f.positions.Nodup ∧ (f.sourceCount = 2 → e.kind = .double) := by
  rw [RebuildPlan.Sited, h.sourceCount paired ranges, h.positions, ← h.positions, List.forall_mem_map]

/-- A source position suits the mode where its port of the target list is lost in RECONSTRUCT, ONLINE in COPY. -/
theorem RebuildFields.Describes.suits_iff (s : State) : (∀ x ∈ plan.sources, s.sourceSuits plan x = true) ↔
    ∀ q ∈ f.positions, ∃ p, (s.extent plan.extent).targets[q]? = some p ∧
      if f.mode = 0 then (s.port p).memberState = .failed ∨ (s.port p).memberState = .absent
      else (s.port p).memberState = .online := by
  have suits (x : Source) : s.sourceSuits plan x = true ↔
      ∃ p, (s.extent plan.extent).targets[x.position]? = some p ∧
        if f.mode = 0 then (s.port p).memberState = .failed ∨ (s.port p).memberState = .absent
        else (s.port p).memberState = .online := by
    unfold State.sourceSuits State.listedPort
    rw [← h.mode]
    cases (s.extent plan.extent).targets[x.position]? with
    | none => simp
    | some q => cases plan.mode <;> simp [JobMode.code]
  rw [← h.positions, List.forall_mem_map]
  exact forall₂_congr fun x _ => suits x

theorem RebuildFields.Describes.fitsTargets_iff (s : State) : s.FitsTargets plan ↔
    (∀ p : PortId, p.val ∈ f.targets → (s.port p).memberState = .spare ∧ (s.port p).link = .up) ∧ f.targets.Nodup := by
  have named : f.targets = (plan.sources.map Source.target).map Fin.val := by
    rw [← h.targets, List.map_map]
    rfl
  rw [State.FitsTargets, named, List.nodup_map_iff Fin.val_injective]
  simp [State.targetSuits, Fin.val_inj]

end

/-- WRITE_ROW or RESYNC_ROW operations on an extent, as O19 names them. -/
theorem State.meetsWrites_iff {s : State} {plan : RebuildPlan} {f : RebuildFields} : s.MeetsWrites plan f ↔
    0 < f.startRow ∧
      ((∃ c op, s.context c = some op ∧ op.extent = plan.extent ∧ (op.kind = .writeRow ∨ op.kind = .resyncRow)) ∨
        ∃ r ∈ s.rows.contextWait, r.extent = plan.extent ∧ (r.kind = .writeRow ∨ r.kind = .resyncRow)) := by
  simp [State.MeetsWrites, State.rowWorkOn, State.mem_operations]

/-- Settles O19: what the fields spell (`RebuildFields.plan_eq_some`) is judged by the checks of R88 in their order
(`State.checkRebuild_of_plan`). -/
theorem rebuildChecks : Obligations.RebuildChecks := by
  intro s body f fieldsOk
  have paired : f.Paired := rebuildFields_paired body
  refine ⟨fun out => ?_, fun ranges e here => ?_⟩
  · have none : f.plan = none := Option.eq_none_iff_forall_not_mem.mpr fun plan spelt =>
      out ((RebuildFields.plan_eq_some paired).mp spelt).1
    unfold State.checkRebuild
    rw [none]
  · obtain ⟨plan, spelt⟩ := RebuildFields.InRange.exists_plan paired ranges
    obtain ⟨-, describes⟩ := (RebuildFields.plan_eq_some paired).mp spelt
    obtain rfl : plan.extent = e := Fin.ext (describes.extent.trans here)
    intro x sited busy room suits fit writes written
    have sited_iff : plan.Sited (s.extent plan.extent) ↔ sited := describes.sited_iff paired ranges _
    have busy_iff : (s.jobOn plan.extent).isSome = true ↔ busy := State.jobOn_isSome
    have suits_iff : (∀ y ∈ plan.sources, s.sourceSuits plan y = true) ↔ suits := describes.suits_iff s
    have fit_iff : s.FitsTargets plan ↔ fit := describes.fitsTargets_iff s
    have written_iff : s.MeetsWrites plan f ↔ written := State.meetsWrites_iff
    rw [s.checkRebuild_of_plan spelt]
    refine ⟨fun unused => if_pos unused, fun lost => ?_, fun used serving => ?_⟩
    · rw [if_neg (by rw [show (s.extent plan.extent).condition = .lost from lost]; decide), if_pos lost]
    rw [if_neg used, if_neg serving]
    simp only [sited_iff, busy_iff, suits_iff, fit_iff, written_iff]
    have taken : room → ∃ j, s.freeRecord = some j := fun free => by
      cases record : s.freeRecord with
      | none => exact absurd free (State.freeRecord_eq_none.mp record)
      | some j => exact ⟨j, rfl⟩
    refine ⟨fun out => if_pos out, fun on jobs => ?_, fun on alone full => ?_, fun on alone free not => ?_,
      fun on alone free suit not => ?_, fun on alone free suit fits past => ?_,
      fun on alone free suit fits within rows => ?_, fun on alone free suit fits within quiet => ?_⟩
    · rw [if_neg (not_not.mpr on), if_pos jobs]
    · rw [if_neg (not_not.mpr on), if_neg alone, State.freeRecord_eq_none.mpr full]
    all_goals
      obtain ⟨j, record⟩ := taken free
      rw [if_neg (not_not.mpr on), if_neg alone, record]
      dsimp only
    · exact if_pos not
    · rw [if_neg (not_not.mpr suit)]
      exact if_pos not
    · rw [if_neg (not_not.mpr suit), if_neg (not_not.mpr fits)]
      exact if_pos past
    · rw [if_neg (not_not.mpr suit), if_neg (not_not.mpr fits), if_neg (not_le.mpr within)]
      exact if_pos rows
    · rw [if_neg (not_not.mpr suit), if_neg (not_not.mpr fits), if_neg (not_le.mpr within), if_neg quiet]
      exact ⟨plan, j, rfl, describes.mode, rfl, describes.positions, describes.targets,
        State.freeRecord_eq_some.mp record⟩

end Sys2Proof.Machine
end

section
/-! SUPPORT for O54. What a step can do to a job record, and that each keeps the relations of R86. -/

namespace Sys2Proof.Machine

/-! ## Changes that keep the rows -/

/-- A record changed but for its rows and its lane count, on its extent only if it was before. -/
structure Job.SameRows (a b : Job) : Prop where
  on : b.isOn = true → a.isOn = true
  startRow : b.startRow = a.startRow := by rfl
  frontier : b.frontier = a.frontier := by rfl
  nextRow : b.nextRow = a.nextRow := by rfl
  endRow : b.endRow = a.endRow := by rfl
  window : b.window = a.window := by rfl
  inFlight : b.inFlight = a.inFlight := by rfl
  laneCount : b.laneCount = a.laneCount := by rfl

theorem Job.SameRows.legal {a b : Job} (h : a.SameRows b) (legal : a.legal) : b.legal := by
  intro on
  rw [h.startRow, h.frontier, h.nextRow, h.endRow, h.window, h.inFlight, h.laneCount]
  exact legal (h.on on)

/-- A job with no row ahead of its frontier and none in flight. -/
theorem Job.legal_of_fresh {x : Job} (start : x.startRow ≤ x.frontier) (bound : x.frontier ≤ x.endRow)
    (next : x.nextRow = x.frontier) (window : x.window = []) (inFlight : x.inFlight = []) : x.legal := by
  intro _
  simp [start, bound, next, window, inFlight]

/-! ## Rows that end (R92, R93) -/

/-- A row that leaves the rows in flight without completing. -/
theorem Job.takeFailure_legal (row : Nat) (t : RowTallies) {x : Job} (legal : x.legal) : (x.takeFailure row t).legal := by
  intro on
  obtain ⟨start, front, next, ahead, distinct, window, once, flying, apart, -⟩ := legal on
  have flew : ∀ r ∈ x.inFlight.filter (· != row), r ∈ x.inFlight := fun r => List.mem_of_mem_filter
  exact ⟨start, front, next, ahead, distinct, window, once.filter _, fun r mem => flying r (flew r mem),
    fun r mem => apart r (flew r mem), le_max_right _ _⟩

/-- What the frontier passes leaves the window, and what stays in it was there. -/
theorem advanceFrontier_window (fuel f : Nat) (window : List Nat) :
    (advanceFrontier fuel f window).2.Sublist window ∧
      ((∀ r ∈ window, f ≤ r) → ∀ r ∈ (advanceFrontier fuel f window).2, (advanceFrontier fuel f window).1 ≤ r) := by
  induction fuel generalizing f window with
  | zero => exact ⟨.refl _, id⟩
  | succ n ih =>
    unfold advanceFrontier
    split
    · obtain ⟨sub, above⟩ := ih (f + 1) (window.filter (· != f))
      refine ⟨sub.trans List.filter_sublist, fun from_f => above fun r mem => ?_⟩
      obtain ⟨mem, other⟩ := List.mem_filter.mp mem
      have := from_f r mem
      have : r ≠ f := by simpa using other
      omega
    · exact ⟨.refl _, id⟩

/-- The window once the frontier has taken a row that was in flight: rows of the old one or that row, each once and above
the frontier. -/
theorem Job.advanced_window {x : Job} {row : Nat} (legal : x.legal) (on : x.isOn = true) (flies : row ∈ x.inFlight) :
    (x.advanced row).2.Nodup ∧
      ∀ r ∈ (x.advanced row).2, (r ∈ x.window ∨ r = row) ∧ (x.advanced row).1 ≤ r := by
  obtain ⟨-, -, -, -, distinct, window, -, flying, apart, -⟩ := legal on
  have fresh := apart row flies
  have ahead := (flying row flies).1
  unfold Job.advanced
  split
  · rename_i first
    obtain ⟨sub, above⟩ := advanceFrontier_window x.window.length (row + 1) x.window
    refine ⟨sub.nodup distinct, fun r mem => ⟨.inl (sub.subset mem), above (fun q listed => ?_) r mem⟩⟩
    rw [first]
    exact (window q listed).1
  · rw [if_pos ⟨by omega, by simpa using fresh⟩]
    refine ⟨?_, fun r mem => ?_⟩
    · exact List.nodup_append.mpr ⟨distinct, List.nodup_singleton row, fun a mem b last => by
        rintro rfl
        exact fresh (List.mem_singleton.mp last ▸ mem)⟩
    · rcases List.mem_append.mp mem with mem | mem
      · exact ⟨.inl mem, (window r mem).1.le⟩
      · obtain rfl := List.mem_singleton.mp mem
        exact ⟨.inr rfl, ahead⟩

/-- A completed row taken by its job: every row below the new frontier or in the new window was rebuilt before or is this
one (`Job.advanced_spec`), so the frontier passes neither N nor a row in flight. -/
theorem Job.takeCompletion_legal {row : Nat} (copied : Bool) (t : RowTallies) {x : Job} (legal : x.legal)
    (flies : row ∈ x.inFlight) : (x.takeCompletion row copied t).legal := by
  rw [Job.takeCompletion_eq]
  intro on
  have on : x.isOn = true := on
  obtain ⟨stops, rebuilt⟩ := Job.advanced_spec legal on flies
  obtain ⟨distinct', window'⟩ := Job.advanced_window legal on flies
  obtain ⟨start, front, next, ahead, -, window, once, flying, apart, -⟩ := legal on
  have below : ∀ r, r < x.frontier ∨ r ∈ x.window ∨ r = row → r < x.nextRow := by
    rintro r (lt | mem | rfl)
    · omega
    · exact (window r mem).2
    · exact (flying r flies).2
  have rises : x.frontier ≤ (x.advanced row).1 := by
    by_contra passed
    have := (rebuilt (x.advanced row).1).mpr (.inl (by omega))
    exact this.elim (lt_irrefl _) stops
  have within : (x.advanced row).1 ≤ x.nextRow := by
    by_contra passed
    exact lt_irrefl _ (below _ ((rebuilt x.nextRow).mp (.inl (by omega))))
  have others : ∀ r ∈ x.inFlight.filter (fun r => r ≠ row), r ∈ x.inFlight ∧
      ¬ (r < (x.advanced row).1 ∨ r ∈ (x.advanced row).2) := by
    intro r mem
    obtain ⟨mem, other⟩ := List.mem_filter.mp mem
    refine ⟨mem, fun passed => ?_⟩
    rcases (rebuilt r).mp passed with lt | listed | same
    · exact absurd (flying r mem).1 (by omega)
    · exact apart r mem listed
    · exact absurd same (by simpa using other)
  refine ⟨start.trans rises, within, next, by dsimp only; omega, distinct', fun r mem => ?_, once.filter _, fun r mem => ?_,
    fun r mem listed => (others r mem).2 (.inr listed), le_max_right _ _⟩
  · obtain ⟨from_old, above⟩ := window' r mem
    exact ⟨lt_of_le_of_ne above fun same : (x.advanced row).1 = r => stops (same ▸ mem), below r (.inr from_old)⟩
  · exact ⟨not_lt.mp fun passed => (others r mem).2 (.inl passed), (flying r (others r mem).1).2⟩

/-! ## Rows that start, lanes, and resets (R91, R105, R107) -/

/-- A job that starts row N, where its terms hold. -/
theorem Job.startRow_legal {x : Job} (credits : Nat) (legal : x.legal) (lane : x.inFlight.length < x.laneCount)
    (ahead : x.nextRow < x.frontier + Config.windowRows) (bound : x.nextRow < x.endRow) :
    ({ x with creditsLeft := credits, inFlight := x.inFlight ++ [x.nextRow], nextRow := x.nextRow + 1 } : Job).legal := by
  intro on
  obtain ⟨start, front, -, -, distinct, window, once, flying, apart, -⟩ := legal on
  refine ⟨start, by dsimp only; omega, bound, ahead, distinct, fun r mem => ?_, ?_, fun r mem => ?_,
    fun r mem listed => ?_, by simpa using lane⟩
  · exact ⟨(window r mem).1, Nat.lt_succ_of_lt (window r mem).2⟩
  · exact List.nodup_append.mpr ⟨once, List.nodup_singleton _, fun a mem b last => by
      rw [List.mem_singleton.mp last]
      exact (flying a mem).2.ne⟩
  · rcases List.mem_append.mp mem with mem | mem
    · exact ⟨(flying r mem).1, Nat.lt_succ_of_lt (flying r mem).2⟩
    · rw [List.mem_singleton.mp mem]
      exact ⟨front, Nat.lt_succ_self _⟩
  · rcases List.mem_append.mp mem with mem | mem
    · exact apart r mem listed
    · rw [List.mem_singleton.mp mem] at listed
      exact lt_irrefl _ (window _ listed).2

/-- What a CHANGE makes of a record (R105). -/
theorem Job.change_eq (guard : GuardState) (f : ControlFields) (x : Job) : x.change guard f = { x with
    lanesWanted := (x.change guard f).lanesWanted, laneCount := (x.change guard f).laneCount
    coolCredits := (x.change guard f).coolCredits, hotCredits := (x.change guard f).hotCredits
    expedite := (x.change guard f).expedite, creditsLeft := (x.change guard f).creditsLeft } := by
  unfold Job.change
  dsimp only
  split <;> rfl

theorem Job.change_laneCount (guard : GuardState) (f : ControlFields) (x : Job) : (x.change guard f).laneCount =
    if f.lanes = 0 then x.laneCount else max (x.change guard f).lanesWanted x.inFlight.length := by
  unfold Job.change
  dsimp only
  split <;> split <;> simp_all

theorem Job.change_legal (guard : GuardState) (f : ControlFields) {x : Job} (legal : x.legal) :
    (x.change guard f).legal := by
  have lanes := x.change_laneCount guard f
  rw [Job.change_eq]
  intro on
  obtain ⟨start, front, next, ahead, distinct, window, once, flying, apart, fits⟩ := legal on
  refine ⟨start, front, next, ahead, distinct, window, once, flying, apart, ?_⟩
  show x.inFlight.length ≤ (x.change guard f).laneCount
  rw [lanes]
  split
  · exact fits
  · exact le_max_right _ _

/-- After an engine reset no row of a job is ahead of its frontier (R107). -/
theorem Job.engineReset_legal (now : Stamp) {x : Job} (legal : x.legal) : (x.engineReset now).legal := by
  have orphaned (on : x.isOn = true) (control : Option SlipId) : ({ x with
      state := .paused, nextRow := x.frontier, window := [], inFlight := [], laneCount := x.lanesWanted
      creditsLeft := 0, drainCount := 0, answering := none, control := control } : Job).legal := by
    obtain ⟨start, front, next, -⟩ := legal on
    exact Job.legal_of_fresh start (front.trans next) rfl rfl rfl
  unfold Job.engineReset
  cases state : x.state with
  | free | ended => exact legal
  | aborting => exact fun on => by cases on
  | starting | running | pausing | paused => exact orphaned (by rw [Job.isOn, state]; rfl) none

theorem Job.drained_sameRows {x : Job} (cause : EndCause) (drainable : x.drainable = true) :
    x.SameRows (x.drained cause) where
  on _ := Job.isOn_of_drainable drainable

/-- A job begins at its start row, which the checks leave below its end row (R88 check 9, R89). -/
theorem State.newJob_legal {s : State} (slip : SlipId) {f : RebuildFields} {plan : RebuildPlan}
    (within : f.startRow < (s.extent plan.extent).rows) : (s.newJob slip f plan).legal :=
  Job.legal_of_fresh le_rfl within.le rfl rfl rfl

end Sys2Proof.Machine
end

section
/-! SUPPORT for O54. Every shared operation leaves a job legal that was legal (R86). What moves the ports and the operations
in contexts alone leaves the jobs as they are; the others change a record by one of the changes above. -/

namespace Sys2Proof.Machine

/-! ## What moves the ports alone -/

theorem State.MovesPorts.ite {s t u : State} {c : Prop} [Decidable c] (h : s.MovesPorts t) (k : s.MovesPorts u) :
    s.MovesPorts (if c then t else u) := by
  split
  · exact h
  · exact k

theorem State.movesPorts_submit (s : State) (p : PortId) (r : Request) : s.MovesPorts (s.submit p r) :=
  .ite rfl (s.movesPorts_deliverFailure p r .linkLost)

theorem State.movesPorts_submitReads (s : State) (c : ContextId) (op : Operation) (reads : List PlanRead) :
    s.MovesPorts (s.submitReads c op reads) := .foldl (fun s _ => s.movesPorts_submit _ _) reads s

theorem State.movesPorts_deliverWritten (s : State) (p : PortId) (r : Request) : s.MovesPorts (s.deliverWritten p r) := by
  unfold State.deliverWritten
  split
  · rfl
  · dsimp only
    split
    · rfl
    · split
      · rfl
      · split
        · rfl
        · exact .trans (s.movesPorts_withOperation _ _) (.trans (State.movesPorts_withOperation _ _ _)
            (State.movesPorts_submit _ p _))

theorem State.movesPorts_clearStall (s : State) (p : PortId) : s.MovesPorts (s.clearStall p) := by
  have woken : s.MovesPorts (((s.withPort p Port.clearFlags).askPublish).wake p) := rfl
  exact .ite (.ite (woken.trans (State.arbitrated_runArbiter 8 _ p).moves) rfl) rfl

theorem State.movesPorts_beginWrites (s : State) (c : ContextId) (op : Operation) (d : PortId × Nat × List Nat) :
    s.MovesPorts (s.beginWrites c op d) := by
  unfold State.beginWrites
  split
  · rfl
  · exact (s.movesPorts_withOperation _ _).trans (State.movesPorts_submit _ _ _)

theorem State.movesPorts_submitWrites (s : State) (c : ContextId) : s.MovesPorts (s.submitWrites c) := by
  unfold State.submitWrites
  split
  · rfl
  · exact .foldl (fun s _ => s.movesPorts_beginWrites _ _ _) _ s

theorem State.movesPorts_enterPlace (s : State) (c : ContextId) : s.MovesPorts (s.enterPlace c) := by
  unfold State.enterPlace
  split
  · rfl
  · exact .ite rfl ((s.movesPorts_withOperation _ _).trans (State.movesPorts_submitWrites _ c))

theorem State.movesPorts_placeAsRead (s : State) (c : ContextId) : s.MovesPorts (s.placeAsRead c) :=
  (s.movesPorts_withOperation _ _).trans (State.movesPorts_enterPlace _ c)

theorem State.movesPorts_replyGood (s : State) (p : PortId) (r : Request) (contents : List Block) :
    s.MovesPorts (s.replyGood p r contents) := by
  have repaired (f : Port → Port) : s.MovesPorts (if r.repair = true then s.withPort p f else s) := .ite rfl rfl
  unfold State.replyGood
  split
  · exact (s.movesPorts_deliverRead _ _ _ _).trans (State.movesPorts_clearStall _ p)
  · exact s.movesPorts_clearStall p
  · exact ((repaired _).trans (State.movesPorts_deliverWritten _ p r)).trans (State.movesPorts_clearStall _ p)

theorem State.movesPorts_replyUnreadable (s : State) (p : PortId) (r : Request) (offsets : List Nat)
    (contents : List Block) : s.MovesPorts (s.replyUnreadable p r offsets contents) := by
  unfold State.replyUnreadable
  dsimp only
  split
  · exact ((s.movesPorts_withPort p _).trans (State.movesPorts_deliverRead _ p r _ contents)).trans
      (State.movesPorts_clearStall _ p)
  · exact (s.movesPorts_withPort p _).trans (State.movesPorts_clearStall _ p)
  · rfl

/-! ## The relation -/

/-- Every job that is legal in `s` is legal in `t`. -/
structure State.KeepsJobsLegal (s t : State) : Prop where
  legal : ∀ j, (s.job j).legal → (t.job j).legal

namespace State.KeepsJobsLegal

theorem refl (s : State) : s.KeepsJobsLegal s := ⟨fun _ => id⟩

theorem trans {s t u : State} (h : s.KeepsJobsLegal t) (k : t.KeepsJobsLegal u) : s.KeepsJobsLegal u :=
  ⟨fun j => k.legal j ∘ h.legal j⟩

theorem ite {s t u : State} {c : Prop} [Decidable c] (h : s.KeepsJobsLegal t) (k : s.KeepsJobsLegal u) :
    s.KeepsJobsLegal (if c then t else u) := by
  split
  · exact h
  · exact k

theorem foldl {α : Type} {f : State → α → State} (h : ∀ (s : State) (x : α), s.KeepsJobsLegal (f s x)) (l : List α)
    (s : State) : s.KeepsJobsLegal (l.foldl f s) := by
  induction l generalizing s with
  | nil => exact refl s
  | cons x rest ih => exact (h s x).trans (ih _)

theorem of_jobs {s t : State} (jobs : t.jobs = s.jobs) : s.KeepsJobsLegal t :=
  ⟨fun j legal => by rwa [State.job, jobs]⟩

theorem of_moves {s t : State} (h : s.MovesPorts t) : s.KeepsJobsLegal t := of_jobs h.jobs

/-- The end of a step changes of a job its published frontier at most. -/
theorem done {s t : State} (h : s.KeepsJobsLegal t) : Lands s.KeepsJobsLegal t.done := by
  refine .next (h.trans ⟨fun j legal => ?_⟩)
  rw [State.settle_job]
  split
  · exact legal
  · exact legal

end State.KeepsJobsLegal

theorem lands_keepsJobsLegal_idle (s : State) : Lands s.KeepsJobsLegal (.next s) := .next (.refl s)

/-- One record changed to a legal one. -/
theorem State.keepsJobsLegal_withJob (s : State) (j : JobId) {f : Job → Job}
    (h : (s.job j).legal → (f (s.job j)).legal) : s.KeepsJobsLegal (s.withJob j f) := by
  refine ⟨fun k legal => ?_⟩
  rw [State.job_withJob]
  split
  · rename_i same
    subst same
    exact h legal
  · exact legal

/-- One record changed but for its rows and its lane count. -/
theorem State.keepsJobsLegal_withJob_same (s : State) (j : JobId) (f : Job → Job)
    (h : ∀ x : Job, x.SameRows (f x) := by exact fun _ => { on := id }) : s.KeepsJobsLegal (s.withJob j f) :=
  s.keepsJobsLegal_withJob j (h _).legal

/-- The same with a publish asked for. -/
theorem State.keepsJobsLegal_withJob_asked (s : State) (j : JobId) (f : Job → Job)
    (h : ∀ x : Job, x.SameRows (f x) := by exact fun _ => { on := id }) : s.KeepsJobsLegal (s.withJob j f).askPublish :=
  (s.keepsJobsLegal_withJob_same j f h).trans (.of_jobs rfl)

/-- Every record changed to a legal one. -/
theorem State.KeepsJobsLegal.of_bankMap {s t : State} {f : Job → Job} (jobs : t.jobs = bankMap f s.jobs)
    (h : ∀ x : Job, x.legal → (f x).legal) : s.KeepsJobsLegal t := by
  refine ⟨fun j legal => ?_⟩
  rw [State.job, jobs, bankMap_getElem]
  exact h _ legal

/-! ## Drains and the ends of row operations -/

theorem State.keepsJobsLegal_drainJob (s : State) (j : JobId) (cause : EndCause) : s.KeepsJobsLegal (s.drainJob j cause) := by
  refine ⟨fun k legal => ?_⟩
  rw [State.drainJob_job, Job.drainedIf]
  split
  · split
    · exact (Job.drained_sameRows cause ‹_›).legal legal
    · exact legal
  · exact legal

theorem State.keepsJobsLegal_drainCounted (s : State) (counted : Option JobId) (e : ExtentId) :
    s.KeepsJobsLegal (s.drainCounted counted e) := by
  unfold State.drainCounted
  split
  · exact .refl s
  · exact .ite (s.keepsJobsLegal_withJob_same _ _) (.refl s)

theorem State.keepsJobsLegal_jobTakesRow (s : State) (j : JobId) (row : Nat) (outcome : RowOutcome) (copied : Bool)
    (t : RowTallies) : s.KeepsJobsLegal (s.jobTakesRow j row outcome copied t) := by
  refine ⟨fun k legal => ?_⟩
  rw [State.job_jobTakesRow]
  split
  · rename_i taken
    split
    · exact Job.takeCompletion_legal copied t legal taken.2
    · exact Job.takeFailure_legal row t legal
  · exact legal

theorem State.keepsJobsLegal_handOver (s : State) (owner : RowOwner) (row : Nat) (outcome : RowOutcome) (copied : Bool)
    (t : RowTallies) (kept settled : Bool) : s.KeepsJobsLegal (s.handOver owner row outcome copied t kept settled) := by
  cases owner with
  | job j => exact s.keepsJobsLegal_jobTakesRow _ _ _ _ _
  | slip i piece => exact .of_jobs rfl

theorem State.keepsJobsLegal_endOperationWith (s : State) (c : ContextId) (outcome : RowOutcome) (kept settled : Bool) :
    s.KeepsJobsLegal (s.endOperationWith c outcome kept settled) := by
  unfold State.endOperationWith
  split
  · exact .refl s
  · exact ((s.keepsJobsLegal_drainCounted _ _).trans (State.keepsJobsLegal_handOver _ _ _ _ _ _ _ _)).trans (.of_jobs rfl)

theorem State.keepsJobsLegal_endOperation (s : State) (c : ContextId) (outcome : RowOutcome) :
    s.KeepsJobsLegal (s.endOperation c outcome) := s.keepsJobsLegal_endOperationWith _ _ _ _

theorem State.keepsJobsLegal_endWaiting (s : State) (r : RowRequest) (outcome : RowOutcome) :
    s.KeepsJobsLegal (s.endWaiting r outcome) :=
  ((s.keepsJobsLegal_drainCounted _ _).trans (State.keepsJobsLegal_handOver _ _ _ _ _ _ _ _)).trans (.of_jobs rfl)

theorem State.keepsJobsLegal_endIdle (s : State) (which : RowOwner → ExtentId → Bool) (outcome : RowOutcome) :
    s.KeepsJobsLegal (s.endIdle which outcome) :=
  .trans (.foldl (fun s _ => s.keepsJobsLegal_endWaiting _ _) _ s)
    (.foldl (f := fun (s : State) (x : ContextId × Operation) => s.endOperation x.1 outcome)
      (fun s x => s.keepsJobsLegal_endOperation x.1 outcome) _ _)

theorem State.keepsJobsLegal_loseRows (s : State) (e : ExtentId) : s.KeepsJobsLegal (s.loseRows e) := by
  rw [State.loseRows_eq]
  exact .trans (s.keepsJobsLegal_endIdle _ _)
    (.foldl (f := fun (s : State) (x : ContextId × Operation) => s.bereave x.1)
      (fun s x => .of_moves (s.movesPorts_bereave x.1)) _ _)

/-! ## Member states and conditions -/

theorem State.keepsJobsLegal_jobSeesCondition (s : State) (e : ExtentId) (c : Condition) :
    s.KeepsJobsLegal (s.jobSeesCondition e c) := by
  have exposed (j : JobId) : s.KeepsJobsLegal (s.withJob j fun x => { x with exposed := c == .exposed }) :=
    s.keepsJobsLegal_withJob_same j _
  unfold State.jobSeesCondition
  split
  · exact .refl s
  · exact .ite ((exposed _).trans (State.keepsJobsLegal_drainJob _ _ _)) (exposed _)

theorem State.keepsJobsLegal_recompute (s : State) (e : ExtentId) : s.KeepsJobsLegal (s.recompute e) := by
  have seen : s.KeepsJobsLegal (s.conditionSeen e) :=
    .trans (.of_jobs (by rfl)) (State.keepsJobsLegal_jobSeesCondition _ e _)
  exact .ite (.ite (.refl s) (.ite (seen.trans (State.keepsJobsLegal_loseRows _ e)) seen)) (.refl s)

theorem State.keepsJobsLegal_loseTarget (s : State) (p : PortId) (j : JobId) :
    s.KeepsJobsLegal (State.loseTarget p s j) :=
  .ite (s.keepsJobsLegal_withJob_asked j _)
    (((s.keepsJobsLegal_drainJob j .targetLost).trans (State.keepsJobsLegal_withJob_same _ j _)).trans
      (.ite (State.keepsJobsLegal_endIdle _ _ _) (.refl _)))

theorem State.keepsJobsLegal_copyToReconstruct (s : State) (p : PortId) : s.KeepsJobsLegal (s.copyToReconstruct p) := by
  unfold State.copyToReconstruct
  split
  · exact .refl s
  · exact s.keepsJobsLegal_withJob_asked _ _

theorem State.keepsJobsLegal_reportMember (s : State) (p : PortId) : s.KeepsJobsLegal (s.reportMember p) := by
  have woken : s.KeepsJobsLegal (s.askPublish.wake p) := .of_jobs (by rfl)
  have failure (t : State) : t.KeepsJobsLegal (t.failureSeen p) :=
    .ite ((t.keepsJobsLegal_copyToReconstruct p).trans (.foldl (fun s j => s.keepsJobsLegal_loseTarget p j) _ _)) (.refl t)
  have recomputed (t : State) : t.KeepsJobsLegal (t.recomputeOf p) := by
    unfold State.recomputeOf
    split
    · exact t.keepsJobsLegal_recompute _
    · exact .refl t
  rw [State.reportMember_eq]
  exact (woken.trans (failure _)).trans (recomputed _)

theorem State.keepsJobsLegal_failMember (s : State) (p : PortId) : s.KeepsJobsLegal (s.failMember p) :=
  .trans (.of_moves (State.MovesPorts.trans (s.movesPorts_withPort p _) (State.movesPorts_loseRequests _ p)))
    (State.keepsJobsLegal_reportMember _ p)

theorem State.keepsJobsLegal_changeMember (s : State) (p : PortId) (new : MemberState) :
    s.KeepsJobsLegal (s.changeMember p new) :=
  .trans (.of_moves (s.movesPorts_moveMember p new)) (State.keepsJobsLegal_reportMember _ p)

theorem State.keepsJobsLegal_turnMember (s : State) (p : PortId) (old new : MemberState) :
    s.KeepsJobsLegal (s.turnMember p old new) := .ite (s.keepsJobsLegal_changeMember p new) (.refl s)

theorem State.keepsJobsLegal_withPort (s : State) (p : PortId) (f : Port → Port) : s.KeepsJobsLegal (s.withPort p f) :=
  .of_jobs rfl

theorem State.keepsJobsLegal_askPublishIf (s : State) (b : Bool) : s.KeepsJobsLegal (s.askPublishIf b) :=
  .of_jobs (by cases b <;> rfl)

theorem State.keepsJobsLegal_stallEvidence (s : State) (p : PortId) (slot : Tag) (block : Nat) :
    s.KeepsJobsLegal (s.stallEvidence p slot block) := by
  have stalled (f : Port → Port) (b : Bool) : s.KeepsJobsLegal ((s.withPort p f).askPublishIf b) :=
    (s.keepsJobsLegal_withPort p f).trans (State.keepsJobsLegal_askPublishIf _ b)
  exact .ite ((s.keepsJobsLegal_withPort p _).trans (State.keepsJobsLegal_failMember _ p))
    (.ite (stalled _ _) ((stalled _ _).trans (State.keepsJobsLegal_withPort _ _ _)))

/-- A request that ended without being carried out may fail its member. -/
theorem State.keepsJobsLegal_endUnanswered (s : State) (p : PortId) (slot : Tag) (r : Request) (ending : Ending) :
    s.KeepsJobsLegal (s.endUnanswered p slot r ending) := by
  have delivered : s.KeepsJobsLegal (s.deliverFailure p r ending) := .of_moves (s.movesPorts_deliverFailure p r ending)
  unfold State.endUnanswered
  dsimp only
  split
  · exact delivered.trans (.ite (State.keepsJobsLegal_failMember _ p) (.refl _))
  · exact delivered.trans (.ite (State.keepsJobsLegal_stallEvidence _ p _ _) (.refl _))
  · exact delivered.trans (.ite (State.keepsJobsLegal_stallEvidence _ p _ _) (.refl _))

/-! ## The phases of row operations -/

theorem State.keepsJobsLegal_takePlan (s : State) (c : ContextId) : s.KeepsJobsLegal (s.takePlan c) := by
  cases held : s.context c with
  | none =>
    unfold State.takePlan
    rw [held]
    exact .refl s
  | some op =>
    by_cases ends : ∃ o, s.makePlan op = .ended o
    · obtain ⟨outcome, ended⟩ := ends
      rw [State.takePlan_of_ended held ended]
      exact s.keepsJobsLegal_endOperation c outcome
    · exact .of_jobs (State.planned_takePlan held (not_exists.mp ends)).jobs

theorem State.keepsJobsLegal_evaluate (s : State) (c : ContextId) : s.KeepsJobsLegal (s.evaluate c) := by
  have joined (t : State) : t.KeepsJobsLegal (t.joinSolver c) := .of_jobs rfl
  have operation (f : Operation → Operation) : s.KeepsJobsLegal (s.withOperation c f) := .of_jobs rfl
  unfold State.evaluate
  split
  · exact .refl s
  · exact .ite (.ite (s.keepsJobsLegal_endOperation _ _) (joined s))
      (.ite ((operation _).trans (State.keepsJobsLegal_takePlan _ c))
        (.ite ((operation _).trans (.of_moves (State.movesPorts_submitReads _ _ _ _)))
          (.ite (.ite (operation _) ((operation _).trans (joined _)))
            (.ite (.of_moves (s.movesPorts_placeAsRead c)) (joined s)))))

theorem State.keepsJobsLegal_endReads (s : State) (c : ContextId) : s.KeepsJobsLegal (s.endReads c) := by
  unfold State.endReads
  split
  · exact .refl s
  · split
    · exact s.keepsJobsLegal_endOperation _ _
    · exact .ite (s.keepsJobsLegal_endOperation _ _) (s.keepsJobsLegal_evaluate c)

theorem State.insertLosses_jobs (s : State) (ranges : List LossEntry) : (s.insertLosses ranges).jobs = s.jobs := by
  unfold State.insertLosses State.askPublishIf
  dsimp only
  split <;> rfl

theorem State.removeLossRange_jobs (s : State) (e : ExtentId) (low high : Nat) :
    (s.removeLossRange e low high).1.jobs = s.jobs := by
  unfold State.removeLossRange State.askPublishIf
  dsimp only
  split <;> rfl

theorem State.keepsJobsLegal_completeSolve (s : State) (c : ContextId) : s.KeepsJobsLegal (s.completeSolve c) := by
  have listed (f : Operation → Operation) (ranges : List LossEntry) : s.KeepsJobsLegal
      (((s.withOperation c f).withSolver fun v => { v with busy := none }).insertLosses ranges) :=
    .of_jobs (State.insertLosses_jobs _ ranges)
  unfold State.completeSolve
  split
  · exact .of_jobs rfl
  · dsimp only
    split
    · exact (listed _ _).trans (State.keepsJobsLegal_endOperation _ _ _)
    · exact (listed _ _).trans (.of_moves (State.movesPorts_enterPlace _ c))

theorem State.keepsJobsLegal_removeCovered (s : State) (op : Operation) : s.KeepsJobsLegal (s.removeCovered op).1 := by
  have fold (l : List RequestedRun) : ∀ acc : State × Bool, acc.1.KeepsJobsLegal (l.foldl (fun acc r =>
      let first := (s.extent op.extent).arrayBlock op.row r.strip r.first
      let out := acc.1.removeLossRange op.extent first (first + r.count - 1)
      (out.1, acc.2 || decide (0 < out.2.kept))) acc).1 := by
    induction l with
    | nil => exact fun acc => .refl _
    | cons r rest ih => exact fun acc => .trans (.of_jobs (acc.1.removeLossRange_jobs _ _ _)) (ih (_, _))
  exact fold op.requested (s, false)

theorem State.keepsJobsLegal_endPlace (s : State) (c : ContextId) : s.KeepsJobsLegal (s.endPlace c) := by
  have settled (e : ExtentId) (row : Nat) : s.KeepsJobsLegal (s.settleRow e row).1 := by
    unfold State.settleRow
    split
    · exact .of_jobs rfl
    · exact .refl s
  unfold State.endPlace
  split
  · exact .refl s
  · split
    · exact s.keepsJobsLegal_endOperation _ _
    · split
      · exact (s.keepsJobsLegal_removeCovered _).trans (State.keepsJobsLegal_endOperationWith _ _ _ _ _)
      · exact (settled _ _).trans (State.keepsJobsLegal_endOperationWith _ _ _ _ _)
      · exact s.keepsJobsLegal_endOperation _ _
      · exact s.keepsJobsLegal_endOperation _ _

/-! ## The end of a job, and resets -/

/-- A job that has ended is on no extent. -/
theorem State.keepsJobsLegal_endJob (s : State) (j : JobId) (cause : Option EndCause) :
    s.KeepsJobsLegal (s.endJob j cause) := s.keepsJobsLegal_withJob j fun _ on => by cases on

theorem State.keepsJobsLegal_answerIf (s : State) (i : Option SlipId) (status : Status) (reason : Reason)
    (body : List BodyField) : s.KeepsJobsLegal (s.answerIf i status reason body) := .of_jobs (by cases i <;> rfl)

theorem State.keepsJobsLegal_dropControl (s : State) (j : JobId) : s.KeepsJobsLegal (s.dropControl j) :=
  s.keepsJobsLegal_withJob_same j _

/-- The record of a job ended, and its slips answered. -/
theorem State.keepsJobsLegal_answerEnded (s : State) (j : JobId) (cause : Option EndCause) (status : Status) :
    s.KeepsJobsLegal ((((s.endJob j cause).answerEnd j).answerEndedControl j status).askPublish) :=
  .trans (.trans (.trans (.trans (s.keepsJobsLegal_endJob j cause) (State.keepsJobsLegal_answerIf _ _ _ _ _))
    (State.keepsJobsLegal_answerIf _ _ _ _ _)) (State.keepsJobsLegal_dropControl _ j)) (.of_jobs rfl)

theorem State.keepsJobsLegal_placeTargets (s : State) (j : JobId) : s.KeepsJobsLegal (s.placeTargets j) := by
  have turned (l : List Source) :
      s.KeepsJobsLegal (l.foldl (fun s (x : Source) => s.turnMember x.target .target .online) s) :=
    .foldl (fun s x => s.keepsJobsLegal_turnMember _ _ _) l s
  have listed (t : State) (f : Extent → Extent) : t.KeepsJobsLegal (t.withExtent (s.job j).extent f) := .of_jobs rfl
  have recomputed (t : State) : t.KeepsJobsLegal (t.askPublish.recompute (s.job j).extent) :=
    .trans (.of_jobs (t := t.askPublish) rfl) (State.keepsJobsLegal_recompute _ _)
  unfold State.placeTargets
  dsimp only
  split
  · exact (((turned _).trans (listed _ _)).trans (State.keepsJobsLegal_turnMember _ _ _ _)).trans (recomputed _)
  · exact ((turned _).trans (listed _ _)).trans (recomputed _)

theorem State.keepsJobsLegal_completeJob (s : State) (j : JobId) : s.KeepsJobsLegal (s.completeJob j) :=
  (s.keepsJobsLegal_placeTargets j).trans (State.keepsJobsLegal_answerEnded _ j _ _)

theorem State.keepsJobsLegal_engineReset (kind : ResetKind) (s : State) : s.KeepsJobsLegal (s.engineReset kind) := by
  have completed : s.KeepsJobsLegal s.completeDue :=
    .foldl (fun s j => .ite (s.keepsJobsLegal_completeJob j) (.refl s)) _ s
  have cleared (t : State) (rows : RowEngine) (ports : Vector Port 16) (losses : LossList) : t.KeepsJobsLegal { t with
      rows := rows, solver := { busy := none, queue := [] }, holds := { entries := [], granted := [] }, requests := []
      ports := ports, losses := losses } := .of_jobs rfl
  have orphaned (t : State) (time : TimeBase) (guard : LoadGuard) (board : Board) : t.KeepsJobsLegal { t with
      jobs := bankMap (Job.engineReset s.stamp) t.jobs, time := time, guard := guard, board := board } :=
    .of_bankMap rfl fun _ => Job.engineReset_legal _
  exact ((completed.trans (cleared _ _ _ _)).trans
    (.foldl (fun s t => s.keepsJobsLegal_changeMember t .spare) s.completeDue.resetTargets _)).trans (orphaned _ _ _ _)

end Sys2Proof.Machine
end

section
/-! O54: every command leaves a job legal that was legal (R86). -/

namespace Sys2Proof.Machine

/-! ## Slips -/

theorem State.takeSlip_jobs {s t : State} {tag : BitVec 64} {i : SlipId} (h : s.takeSlip tag = some (i, t)) :
    t.jobs = s.jobs := by
  unfold State.takeSlip at h
  split at h
  · cases h
  · cases h
    rfl

/-- What leaves the jobs alone leaves them legal, the step ended. -/
theorem lands_keepsJobsLegal_done {s t : State} (jobs : t.jobs = s.jobs) : Lands s.KeepsJobsLegal t.done :=
  State.KeepsJobsLegal.done (.of_jobs jobs)

section
variable {s t : State} {tag : BitVec 64} {i : SlipId} (taken : s.takeSlip tag = some (i, t))
include taken

theorem State.keepsJobsLegal_takeSlip : s.KeepsJobsLegal t := .of_jobs (State.takeSlip_jobs taken)

/-- A slip taken, and then a change that leaves the jobs alone. -/
theorem State.keepsJobsLegal_slip {u : State} (jobs : u.jobs = t.jobs) : Lands s.KeepsJobsLegal u.done :=
  lands_keepsJobsLegal_done (jobs.trans (State.takeSlip_jobs taken))

/-- A slip taken, and then a change that leaves the jobs legal. -/
theorem State.keepsJobsLegal_slip_of {u : State} (kept : t.KeepsJobsLegal u) : Lands s.KeepsJobsLegal u.done :=
  ((State.keepsJobsLegal_takeSlip taken).trans kept).done

end

theorem State.keepsJobsLegal_answer (s : State) (i : SlipId) (status : Status) (reason : Reason) (body : List BodyField) :
    s.KeepsJobsLegal (s.answer i status reason body) := .of_jobs rfl

theorem execBadKind_keepsJobsLegal (kind : Byte) (tag : BitVec 64) (s : State) :
    Lands s.KeepsJobsLegal (execBadKind kind tag s) := by
  unfold execBadKind
  split
  · exact State.keepsJobsLegal_slip ‹_› (by rfl)
  · exact lands_keepsJobsLegal_idle s

theorem execSettings_keepsJobsLegal (tag : BitVec 64) (body : SlipBody) (s : State) :
    Lands s.KeepsJobsLegal (execSettings tag body s) := by
  have failed (t : State) : t.KeepsJobsLegal t.failStalled :=
    .foldl (fun s _ => .ite (s.keepsJobsLegal_failMember _) (.refl s)) _ t
  unfold execSettings
  split
  · exact lands_keepsJobsLegal_idle s
  · rename_i u taken
    have applied : u.KeepsJobsLegal (u.applySettings (settingsFields body)) := .of_jobs (by rfl)
    exact .ite (State.keepsJobsLegal_slip taken rfl)
      (State.keepsJobsLegal_slip_of taken ((applied.trans (.ite (failed _) (.refl _))).trans
        (State.keepsJobsLegal_answer _ _ _ _ _)))

theorem execMember_keepsJobsLegal (tag : BitVec 64) (body : SlipBody) (s : State) :
    Lands s.KeepsJobsLegal (execMember tag body s) := by
  unfold execMember
  split
  · exact lands_keepsJobsLegal_idle s
  · split
    · exact State.keepsJobsLegal_slip ‹_› (by rfl)
    · refine .ite (State.keepsJobsLegal_slip ‹_› (by rfl)) ?_
      split
      · exact State.keepsJobsLegal_slip ‹_› (by rfl)
      · exact State.keepsJobsLegal_slip_of ‹_› (.trans
          (.ite (State.keepsJobsLegal_failMember _ _) (State.keepsJobsLegal_changeMember _ _ _))
          (State.keepsJobsLegal_answer _ _ _ _ _))

theorem execExtentDefine_keepsJobsLegal (tag : BitVec 64) (body : SlipBody) (s : State) :
    Lands s.KeepsJobsLegal (execExtentDefine tag body s) := by
  have defined (t : State) (i : ExtentId) (e : Extent) : t.KeepsJobsLegal (t.defineExtent i e) :=
    .trans (.foldl (fun s p => .ite (s.keepsJobsLegal_changeMember p .online) (.refl s)) e.targets t) (.of_jobs (by rfl))
  unfold execExtentDefine
  split
  · exact lands_keepsJobsLegal_idle s
  · split
    · exact State.keepsJobsLegal_slip ‹_› (by rfl)
    · refine .ite (State.keepsJobsLegal_slip ‹_› (by rfl)) ?_
      split
      · exact State.keepsJobsLegal_slip ‹_› (by rfl)
      · exact State.keepsJobsLegal_slip_of ‹_› ((defined _ _ _).trans (State.keepsJobsLegal_answer _ _ _ _ _))

theorem execExtentClear_keepsJobsLegal (tag : BitVec 64) (body : SlipBody) (s : State) :
    Lands s.KeepsJobsLegal (execExtentClear tag body s) := by
  have cleared (t : State) (i : ExtentId) : t.KeepsJobsLegal (t.clearExtent i) :=
    .trans (.foldl (fun s p => s.keepsJobsLegal_changeMember p .spare) _ t) (.of_jobs (by rfl))
  unfold execExtentClear
  split
  · exact lands_keepsJobsLegal_idle s
  · split
    · exact State.keepsJobsLegal_slip ‹_› (by rfl)
    · refine .ite (State.keepsJobsLegal_slip ‹_› (by rfl)) ?_
      split
      · exact State.keepsJobsLegal_slip ‹_› (by rfl)
      · exact State.keepsJobsLegal_slip_of ‹_› ((cleared _ _).trans (State.keepsJobsLegal_answer _ _ _ _ _))

/-- An accepted REBUILD fills a record with a job that has its start row to rebuild. -/
theorem State.keepsJobsLegal_acceptRebuild {s : State} (slip : SlipId) {f : RebuildFields} {plan : RebuildPlan} {j : JobId}
    (passes : s.RebuildPasses f plan j) : s.KeepsJobsLegal (s.acceptRebuild slip f plan j) := by
  have filled : s.KeepsJobsLegal (s.withJob j fun _ => s.newJob slip f plan) :=
    s.keepsJobsLegal_withJob j fun _ => State.newJob_legal slip passes.startRow
  have marked (t : State) : t.KeepsJobsLegal (t.markCounted plan.extent j) := .of_jobs rfl
  exact ((filled.trans (marked _)).trans
    (.foldl (fun s (x : Source) => s.keepsJobsLegal_changeMember x.target .target) _ _)).trans (.of_jobs (by rfl))

theorem execRebuild_keepsJobsLegal (tag : BitVec 64) (body : SlipBody) (s : State) :
    Lands s.KeepsJobsLegal (execRebuild tag body s) := by
  unfold execRebuild
  split
  · exact lands_keepsJobsLegal_idle s
  · dsimp only
    split
    · exact State.keepsJobsLegal_slip ‹_› (by rfl)
    · exact State.keepsJobsLegal_slip_of ‹_› (State.keepsJobsLegal_acceptRebuild _ (State.rebuildPasses ‹_›))

/-! ## JOBCTL and the steps of a job -/

section
variable {s : State} {j : JobId} (on : (s.job j).isOn = true) (f : Job → Job)
  (h : ∀ x : Job, x.isOn = true → x.SameRows (f x) := by exact fun _ on => { on := fun _ => on })
include on h

/-- A job that is on its extent given another state that is. -/
theorem State.keepsJobsLegal_withJob_on : s.KeepsJobsLegal (s.withJob j f) := s.keepsJobsLegal_withJob j (h _ on).legal

/-- The same with a publish asked for. -/
theorem State.keepsJobsLegal_withJob_on_asked : s.KeepsJobsLegal (s.withJob j f).askPublish :=
  (State.keepsJobsLegal_withJob_on on f h).trans (.of_jobs rfl)

/-- The same with a slip answered. -/
theorem State.keepsJobsLegal_withJob_on_answered (slip : SlipId) (status : Status) (k : JobId) :
    s.KeepsJobsLegal ((s.withJob j f).answerControl slip status k).askPublish :=
  (State.keepsJobsLegal_withJob_on on f h).trans (.of_jobs rfl)

end

theorem State.keepsJobsLegal_pauseJob {s : State} (slip : SlipId) {j : JobId} (on : (s.job j).isOn = true) :
    s.KeepsJobsLegal (s.pauseJob slip j) :=
  .ite (State.keepsJobsLegal_withJob_on_answered on (fun x => { x with state := .paused }) (slip := slip)
      (status := .good) (k := j))
    (State.keepsJobsLegal_withJob_on_asked on fun x => { x with state := .pausing, control := some slip })

theorem execJobctlPause_keepsJobsLegal (tag : BitVec 64) (body : SlipBody) (s : State) :
    Lands s.KeepsJobsLegal (execJobctlPause tag body s) := by
  unfold execJobctlPause
  split
  · exact lands_keepsJobsLegal_idle s
  · split
    · exact State.keepsJobsLegal_slip ‹_› (by rfl)
    · split
      · rename_i running
        exact State.keepsJobsLegal_slip_of ‹_› (State.keepsJobsLegal_pauseJob _ (by simp [Job.isOn, running.1]))
      · exact State.keepsJobsLegal_slip ‹_› (by rfl)

theorem State.keepsJobsLegal_resumeJob {s : State} (slip : SlipId) {j : JobId} (on : (s.job j).isOn = true) :
    s.KeepsJobsLegal (s.resumeJob slip j) :=
  .ite (State.keepsJobsLegal_withJob_on_asked on fun x => { x with state := .running, answering := some slip })
    (State.keepsJobsLegal_withJob_on_answered on (fun x => { x with state := .running }) (slip := slip)
      (status := .good) (k := j))

theorem execJobctlResume_keepsJobsLegal (tag : BitVec 64) (body : SlipBody) (s : State) :
    Lands s.KeepsJobsLegal (execJobctlResume tag body s) := by
  unfold execJobctlResume
  split
  · exact lands_keepsJobsLegal_idle s
  · split
    · exact State.keepsJobsLegal_slip ‹_› (by rfl)
    · split
      · exact State.keepsJobsLegal_slip_of ‹_› (State.keepsJobsLegal_resumeJob _ (by simp [Job.isOn, *]))
      · exact State.keepsJobsLegal_slip ‹_› (by rfl)

theorem execJobctlAbort_keepsJobsLegal (tag : BitVec 64) (body : SlipBody) (s : State) :
    Lands s.KeepsJobsLegal (execJobctlAbort tag body s) := by
  unfold execJobctlAbort
  split
  · exact lands_keepsJobsLegal_idle s
  · split
    · exact State.keepsJobsLegal_slip ‹_› (by rfl)
    · exact .ite (State.keepsJobsLegal_slip_of ‹_› ((State.keepsJobsLegal_drainJob _ _ _).trans
        (State.keepsJobsLegal_withJob_same _ _ _))) (State.keepsJobsLegal_slip ‹_› (by rfl))

theorem execJobctlChange_keepsJobsLegal (tag : BitVec 64) (body : SlipBody) (s : State) :
    Lands s.KeepsJobsLegal (execJobctlChange tag body s) := by
  have changed (t : State) (j : JobId) (f : ControlFields) : t.KeepsJobsLegal (t.withJob j (Job.change t.guard.state f)) :=
    t.keepsJobsLegal_withJob j (Job.change_legal _ f)
  have answered (t : State) (i : SlipId) (status : Status) (j : JobId) (b : Bool) :
      t.KeepsJobsLegal ((t.answerControl i status j).askPublishIf b) := .of_jobs (by cases b <;> rfl)
  unfold execJobctlChange
  split
  · exact lands_keepsJobsLegal_idle s
  · split
    · exact State.keepsJobsLegal_slip ‹_› (by rfl)
    · exact .ite (State.keepsJobsLegal_slip_of ‹_› ((changed _ _ _).trans (answered _ _ _ _ _)))
        (State.keepsJobsLegal_slip ‹_› (by rfl))

theorem execJobRowStart_keepsJobsLegal (j : JobId) (s : State) : Lands s.KeepsJobsLegal (execJobRowStart j s) := by
  unfold execJobRowStart
  split
  · rename_i terms
    obtain ⟨terms, -⟩ := terms
    simp only [State.canStartRow, Bool.and_eq_true, decide_eq_true_eq] at terms
    obtain ⟨⟨⟨-, lane⟩, ahead⟩, bound⟩ := terms
    have started := s.keepsJobsLegal_withJob j (f := fun x => { x with
      creditsLeft := x.creditsLeft - 1, inFlight := x.inFlight ++ [(s.job j).nextRow]
      nextRow := (s.job j).nextRow + 1 }) fun legal => Job.startRow_legal _ legal lane ahead bound
    exact (started.trans (.of_jobs (by rfl))).done
  · exact lands_keepsJobsLegal_idle s

theorem execStartingDrainEnd_keepsJobsLegal (j : JobId) (s : State) :
    Lands s.KeepsJobsLegal (execStartingDrainEnd j s) := by
  unfold execStartingDrainEnd
  split
  · rename_i starting
    have on : (s.job j).isOn = true := by simp [Job.isOn, starting.1]
    exact (State.keepsJobsLegal_withJob_on_asked on fun x => { x with state := .running }).done
  · exact lands_keepsJobsLegal_idle s

theorem execPausingDrainEnd_keepsJobsLegal (j : JobId) (s : State) :
    Lands s.KeepsJobsLegal (execPausingDrainEnd j s) := by
  have answered (t : State) : t.KeepsJobsLegal (t.answerPause j).askPublish := by
    unfold State.answerPause
    split
    · exact .trans (.of_jobs (by rfl)) (State.keepsJobsLegal_withJob_asked _ j _)
    · exact .of_jobs rfl
  unfold execPausingDrainEnd
  split
  · rename_i pausing
    have on : (s.job j).isOn = true := by simp [Job.isOn, pausing.1]
    exact ((State.keepsJobsLegal_withJob_on on fun x => { x with state := .paused }).trans (answered _)).done
  · exact lands_keepsJobsLegal_idle s

theorem execAbortingDrainEnd_keepsJobsLegal (j : JobId) (s : State) :
    Lands s.KeepsJobsLegal (execAbortingDrainEnd j s) :=
  .ite (State.KeepsJobsLegal.trans (.foldl (fun s t => s.keepsJobsLegal_turnMember t .target .spare) _ s)
    (State.keepsJobsLegal_answerEnded _ j _ _)).done (lands_keepsJobsLegal_idle s)

/-! ## Foreground service and the loss list -/

theorem State.takeTransfer_jobs (s : State) (slip : SlipId) (kind : ForegroundKind) (f : TransferFields) :
    (s.takeTransfer slip kind f).jobs = s.jobs := by
  have marked : (s.markNamed slip f.extent).jobs = s.jobs := by
    unfold State.markNamed
    split <;> rfl
  unfold State.takeTransfer
  dsimp only
  split <;> exact marked

theorem execRead_keepsJobsLegal (tag : BitVec 64) (body : SlipBody) (s : State) :
    Lands s.KeepsJobsLegal (execRead tag body s) := by
  unfold execRead
  split
  · exact lands_keepsJobsLegal_idle s
  · exact State.keepsJobsLegal_slip ‹_› (State.takeTransfer_jobs _ _ _ _)

theorem execWrite_keepsJobsLegal (tag : BitVec 64) (body : SlipBody) (s : State) :
    Lands s.KeepsJobsLegal (execWrite tag body s) := by
  unfold execWrite
  split
  · exact lands_keepsJobsLegal_idle s
  · exact State.keepsJobsLegal_slip ‹_› (State.takeTransfer_jobs _ _ _ _)

theorem execResync_keepsJobsLegal (tag : BitVec 64) (body : SlipBody) (s : State) :
    Lands s.KeepsJobsLegal (execResync tag body s) := by
  have marked (t : State) (slip : SlipId) (extent : Nat) : (t.markNamed slip extent).jobs = t.jobs := by
    unfold State.markNamed
    split <;> rfl
  unfold execResync
  split
  · exact lands_keepsJobsLegal_idle s
  · dsimp only
    split
    · exact State.keepsJobsLegal_slip ‹_› (marked _ _ _)
    · exact State.keepsJobsLegal_slip ‹_› (marked _ _ _)

theorem execLossesExport_keepsJobsLegal (tag : BitVec 64) (body : SlipBody) (s : State) :
    Lands s.KeepsJobsLegal (execLossesExport tag body s) := by
  unfold execLossesExport
  split
  · exact lands_keepsJobsLegal_idle s
  · exact .ite (State.keepsJobsLegal_slip ‹_› (by rfl)) (State.keepsJobsLegal_slip ‹_› (by rfl))

theorem execLossesImport_keepsJobsLegal (tag : BitVec 64) (body : SlipBody) (s : State) :
    Lands s.KeepsJobsLegal (execLossesImport tag body s) := by
  unfold execLossesImport
  split
  · exact lands_keepsJobsLegal_idle s
  · dsimp only
    split
    · exact State.keepsJobsLegal_slip ‹_› (by rfl)
    · exact .ite (State.keepsJobsLegal_slip ‹_› (by rfl))
        (.ite (State.keepsJobsLegal_slip ‹_› (by rfl)) (State.keepsJobsLegal_slip ‹_› (by rfl)))

theorem execLossesRemove_keepsJobsLegal (tag : BitVec 64) (body : SlipBody) (s : State) :
    Lands s.KeepsJobsLegal (execLossesRemove tag body s) := by
  unfold execLossesRemove
  split
  · exact lands_keepsJobsLegal_idle s
  · dsimp only
    split
    · exact State.keepsJobsLegal_slip ‹_› (by rfl)
    · exact State.keepsJobsLegal_slip ‹_› (State.removeLossRange_jobs _ _ _ _)

theorem execPieceStart_keepsJobsLegal (slip : SlipId) (s : State) : Lands s.KeepsJobsLegal (execPieceStart slip s) := by
  have started (r : ForegroundRequest) (piece : Piece) : (s.startPiece r piece).jobs = s.jobs := by
    unfold State.startPiece
    split <;> rfl
  unfold execPieceStart
  split
  · exact lands_keepsJobsLegal_idle s
  · refine .ite ?_ (lands_keepsJobsLegal_idle s)
    split
    · exact lands_keepsJobsLegal_done (started _ _)
    · exact lands_keepsJobsLegal_idle s

theorem execRequestFinish_keepsJobsLegal (slip : SlipId) (s : State) :
    Lands s.KeepsJobsLegal (execRequestFinish slip s) := by
  unfold execRequestFinish
  split
  · exact lands_keepsJobsLegal_idle s
  · exact .ite (lands_keepsJobsLegal_done rfl) (lands_keepsJobsLegal_idle s)

theorem execExportEnd_keepsJobsLegal (slip : SlipId) (fault : Bool) (s : State) :
    Lands s.KeepsJobsLegal (execExportEnd slip fault s) := by
  unfold execExportEnd
  split
  · exact lands_keepsJobsLegal_idle s
  · split
    · exact lands_keepsJobsLegal_idle s
    · exact .ite (lands_keepsJobsLegal_done rfl) (lands_keepsJobsLegal_done rfl)

theorem execImportCompletion_keepsJobsLegal (slip : SlipId) (records : Option (List RecordBytes)) (s : State) :
    Lands s.KeepsJobsLegal (execImportCompletion slip records s) := by
  unfold execImportCompletion
  split
  · exact lands_keepsJobsLegal_idle s
  · split
    · exact lands_keepsJobsLegal_idle s
    · dsimp only
      split
      · exact lands_keepsJobsLegal_done rfl
      · refine .ite (lands_keepsJobsLegal_done rfl) ?_
        split
        · exact lands_keepsJobsLegal_done rfl
        · exact lands_keepsJobsLegal_done (State.insertLosses_jobs _ _)

/-! ## The board, time and the member ports -/

theorem execSweepHolderRead_keepsJobsLegal (holder : Byte) (s : State) :
    Lands s.KeepsJobsLegal (execSweepHolderRead holder s) := by
  unfold execSweepHolderRead
  split
  · exact lands_keepsJobsLegal_idle s
  · exact lands_keepsJobsLegal_done rfl

theorem execTakenWrite_keepsJobsLegal (s : State) : Lands s.KeepsJobsLegal (execTakenWrite s) := by
  unfold execTakenWrite
  split
  · exact lands_keepsJobsLegal_idle s
  · exact lands_keepsJobsLegal_done rfl

theorem execAnswerWrite_keepsJobsLegal (s : State) : Lands s.KeepsJobsLegal (execAnswerWrite s) := by
  unfold execAnswerWrite
  split
  · exact lands_keepsJobsLegal_done rfl
  · exact lands_keepsJobsLegal_idle s

theorem execPublish_keepsJobsLegal (s : State) : Lands s.KeepsJobsLegal (execPublish s) := by
  unfold execPublish
  split
  · exact lands_keepsJobsLegal_idle s
  · exact lands_keepsJobsLegal_done rfl

theorem execPeriodRestart_keepsJobsLegal (s : State) : Lands s.KeepsJobsLegal (execPeriodRestart s) :=
  .ite (.next (.of_bankMap rfl fun x legal => by
    rw [Job.restart_eq]
    exact Job.SameRows.legal { on := id } legal)) (lands_keepsJobsLegal_idle s)

theorem execGuardHot_keepsJobsLegal (s : State) : Lands s.KeepsJobsLegal (execGuardHot s) :=
  .ite (State.KeepsJobsLegal.done (.of_bankMap (f := Job.cutHot) rfl fun x legal => by
    rw [Job.cutHot_eq]
    exact Job.SameRows.legal { on := id } legal)) (lands_keepsJobsLegal_idle s)

theorem execDriveReply_keepsJobsLegal (p : PortId) (reply : Reply) (s : State) :
    Lands s.KeepsJobsLegal (execDriveReply p reply s) := by
  have freed := s.movesPorts_withPort p fun x => { x with slots := x.slots.set reply.tag.val none reply.tag.isLt }
  unfold execDriveReply
  split
  · exact State.KeepsJobsLegal.done (.of_moves ((s.movesPorts_withPort p _).trans (State.movesPorts_clearStall _ p)))
  · dsimp only
    split
    · exact State.KeepsJobsLegal.done (.of_moves (freed.trans (State.movesPorts_replyGood _ _ _ _)))
    · exact State.KeepsJobsLegal.done (.of_moves (freed.trans (State.movesPorts_replyUnreadable _ _ _ _ _)))
    · exact (State.KeepsJobsLegal.trans (.of_moves freed) (State.keepsJobsLegal_endUnanswered _ _ _ _ _)).done
    · exact (State.KeepsJobsLegal.trans (.of_moves freed) (State.keepsJobsLegal_endUnanswered _ _ _ _ _)).done

theorem execLapse_keepsJobsLegal (p : PortId) (slot : Tag) (s : State) : Lands s.KeepsJobsLegal (execLapse p slot s) := by
  unfold execLapse
  split
  · exact lands_keepsJobsLegal_idle s
  · exact .ite (((s.keepsJobsLegal_withPort p _).trans (State.keepsJobsLegal_withPort _ p _)).trans
      (State.keepsJobsLegal_endUnanswered _ _ _ _ _)).done (lands_keepsJobsLegal_idle s)

theorem execRequestIssue_keepsJobsLegal (p : PortId) (s : State) : Lands s.KeepsJobsLegal (execRequestIssue p s) := by
  unfold execRequestIssue
  split
  · exact State.KeepsJobsLegal.done (.of_moves (State.arbitrated_issueOne ‹_›).moves)
  · exact lands_keepsJobsLegal_idle s

theorem execLinkDown_keepsJobsLegal (p : PortId) (s : State) : Lands s.KeepsJobsLegal (execLinkDown p s) := by
  have down : s.KeepsJobsLegal (s.linkLost p) := .of_jobs rfl
  have lost : s.KeepsJobsLegal ((s.linkLost p).loseRequests p) := down.trans (.of_moves (State.movesPorts_loseRequests _ p))
  unfold execLinkDown
  dsimp only
  split
  · exact (down.trans (State.keepsJobsLegal_failMember _ p)).done
  · exact (down.trans (State.keepsJobsLegal_failMember _ p)).done
  · exact (lost.trans (State.keepsJobsLegal_changeMember _ p _)).done
  · exact (lost.trans (State.keepsJobsLegal_changeMember _ p _)).done
  · exact lost.done
  · exact lost.done

/-! ## Row operations -/

theorem execContextGrant_keepsJobsLegal (s : State) : Lands s.KeepsJobsLegal (execContextGrant s) := by
  unfold execContextGrant
  split
  · split
    · exact (s.keepsJobsLegal_endWaiting _ _).done
    · exact lands_keepsJobsLegal_done rfl
  · exact lands_keepsJobsLegal_idle s

theorem execHoldGrant_keepsJobsLegal (s : State) : Lands s.KeepsJobsLegal (execHoldGrant s) := by
  have decided (t : State) (c : ContextId) : t.KeepsJobsLegal (t.decideTargets c) := by
    unfold State.decideTargets
    split
    · exact .refl t
    · exact .ite (.of_jobs rfl) (.refl t)
  unfold execHoldGrant
  split
  · exact lands_keepsJobsLegal_idle s
  · exact (State.KeepsJobsLegal.trans (.trans (.of_jobs (by rfl)) (decided _ _)) (State.keepsJobsLegal_takePlan _ _)).done

theorem execFrameGrant_keepsJobsLegal (s : State) : Lands s.KeepsJobsLegal (execFrameGrant s) := by
  unfold execFrameGrant
  split
  · exact lands_keepsJobsLegal_idle s
  · split
    · exact lands_keepsJobsLegal_idle s
    · split
      · exact (s.keepsJobsLegal_endOperation _ _).done
      · exact .ite (State.KeepsJobsLegal.trans (.of_jobs (by rfl)) (.of_moves (State.movesPorts_submitReads _ _ _ _))).done
          (lands_keepsJobsLegal_idle s)

theorem execBufferFetchEnd_keepsJobsLegal (c : ContextId) (fetched : Option (List Block)) (s : State) :
    Lands s.KeepsJobsLegal (execBufferFetchEnd c fetched s) := by
  unfold execBufferFetchEnd
  split
  · exact lands_keepsJobsLegal_idle s
  · refine .ite ?_ (lands_keepsJobsLegal_idle s)
    split <;> exact lands_keepsJobsLegal_done rfl

theorem execGatherEnd_keepsJobsLegal (c : ContextId) (s : State) : Lands s.KeepsJobsLegal (execGatherEnd c s) := by
  unfold execGatherEnd
  split
  · exact lands_keepsJobsLegal_idle s
  · exact .ite (s.keepsJobsLegal_endReads _).done (lands_keepsJobsLegal_idle s)

theorem execSupplementEnd_keepsJobsLegal (c : ContextId) (s : State) :
    Lands s.KeepsJobsLegal (execSupplementEnd c s) := by
  unfold execSupplementEnd
  split
  · exact lands_keepsJobsLegal_idle s
  · exact .ite (s.keepsJobsLegal_endReads _).done (lands_keepsJobsLegal_idle s)

theorem execAwaitMemberWake_keepsJobsLegal (c : ContextId) (s : State) :
    Lands s.KeepsJobsLegal (execAwaitMemberWake c s) := by
  unfold execAwaitMemberWake
  split
  · exact lands_keepsJobsLegal_idle s
  · exact .ite (s.keepsJobsLegal_takePlan _).done (lands_keepsJobsLegal_idle s)

theorem execSolverTakeHead_keepsJobsLegal (s : State) : Lands s.KeepsJobsLegal (execSolverTakeHead s) := by
  unfold execSolverTakeHead
  split
  · split
    · exact lands_keepsJobsLegal_done rfl
    · split
      · exact (s.keepsJobsLegal_endOperation _ _).done
      · exact lands_keepsJobsLegal_done rfl
  · exact lands_keepsJobsLegal_idle s

theorem execSolveCompletion_keepsJobsLegal (s : State) : Lands s.KeepsJobsLegal (execSolveCompletion s) := by
  unfold execSolveCompletion
  split
  · exact lands_keepsJobsLegal_idle s
  · exact (s.keepsJobsLegal_completeSolve _).done

theorem execBufferDeliveryEnd_keepsJobsLegal (c : ContextId) (fault : Bool) (s : State) :
    Lands s.KeepsJobsLegal (execBufferDeliveryEnd c fault s) := by
  have ended (op : Operation) : s.KeepsJobsLegal (s.endDelivery c op) :=
    .of_moves (.ite rfl ((s.movesPorts_withOperation c _).trans (State.movesPorts_submitWrites _ c)))
  unfold execBufferDeliveryEnd
  split
  · exact lands_keepsJobsLegal_idle s
  · refine .ite (.ite ?_ (ended _).done) (lands_keepsJobsLegal_idle s)
    split
    · exact (s.keepsJobsLegal_endOperation _ _).done
    · exact (s.keepsJobsLegal_endOperation _ _).done

theorem execPlaceEnd_keepsJobsLegal (c : ContextId) (s : State) : Lands s.KeepsJobsLegal (execPlaceEnd c s) := by
  unfold execPlaceEnd
  split
  · exact lands_keepsJobsLegal_idle s
  · exact .ite (s.keepsJobsLegal_endPlace _).done (lands_keepsJobsLegal_idle s)

/-! ## Every command -/

/-- Every command leaves a job legal that was legal. -/
theorem exec_keepsJobsLegal (i : Instr) (s : State) : Lands s.KeepsJobsLegal (exec i s) := by
  have still {t : State} (jobs : t.jobs = s.jobs) : Lands s.KeepsJobsLegal t.done := lands_keepsJobsLegal_done jobs
  have idle := lands_keepsJobsLegal_idle s
  cases i with
  | powerOnReset =>
    refine .next ⟨fun j _ => ?_⟩
    show (State.reset.job j).legal
    rw [State.reset_job]
    exact Job.legal_of_fresh le_rfl le_rfl rfl rfl rfl
  | linkReset => exact .next (s.keepsJobsLegal_engineReset _)
  | run => exact .ite (still rfl) idle
  | quiesce => exact .ite (still rfl) idle
  | reset => exact .next (s.keepsJobsLegal_engineReset _)
  | boardBase access value => exact .ite (.next (.of_jobs (by rfl))) idle
  | sweep value => exact .ite (still rfl) idle
  | attention value => exact .next (.of_jobs (by rfl))
  | enableSet value => exact .next (.of_jobs (by rfl))
  | enableClear value => exact .next (.of_jobs (by rfl))
  | registerWriteIgnored offset value => exact idle
  | sweepHolderRead holder => exact execSweepHolderRead_keepsJobsLegal holder s
  | takenWrite => exact execTakenWrite_keepsJobsLegal s
  | settings tag body => exact execSettings_keepsJobsLegal tag body s
  | member tag body => exact execMember_keepsJobsLegal tag body s
  | extentDefine tag body => exact execExtentDefine_keepsJobsLegal tag body s
  | extentClear tag body => exact execExtentClear_keepsJobsLegal tag body s
  | rebuild tag body => exact execRebuild_keepsJobsLegal tag body s
  | jobctlPause tag body => exact execJobctlPause_keepsJobsLegal tag body s
  | jobctlResume tag body => exact execJobctlResume_keepsJobsLegal tag body s
  | jobctlAbort tag body => exact execJobctlAbort_keepsJobsLegal tag body s
  | jobctlChange tag body => exact execJobctlChange_keepsJobsLegal tag body s
  | read tag body => exact execRead_keepsJobsLegal tag body s
  | write tag body => exact execWrite_keepsJobsLegal tag body s
  | resync tag body => exact execResync_keepsJobsLegal tag body s
  | lossesExport tag body => exact execLossesExport_keepsJobsLegal tag body s
  | lossesImport tag body => exact execLossesImport_keepsJobsLegal tag body s
  | lossesRemove tag body => exact execLossesRemove_keepsJobsLegal tag body s
  | badKind kind tag => exact execBadKind_keepsJobsLegal kind tag s
  | answerWrite => exact execAnswerWrite_keepsJobsLegal s
  | publish => exact execPublish_keepsJobsLegal s
  | boardFault access => exact .ite (still rfl) idle
  | quiesceComplete => exact .ite (still rfl) idle
  | tick => exact .next (.of_jobs (by rfl))
  | lapse port slot => exact execLapse_keepsJobsLegal port slot s
  | sweepTimerExpiry => exact .ite (still rfl) idle
  | periodRestart => exact execPeriodRestart_keepsJobsLegal s
  | guardHot => exact execGuardHot_keepsJobsLegal s
  | guardCool => exact .ite (still rfl) idle
  | driveReply port reply => exact execDriveReply_keepsJobsLegal port reply s
  | linkUp port => exact still rfl
  | linkDown port => exact execLinkDown_keepsJobsLegal port s
  | requestIssue port => exact execRequestIssue_keepsJobsLegal port s
  | contextGrant => exact execContextGrant_keepsJobsLegal s
  | holdGrant => exact execHoldGrant_keepsJobsLegal s
  | frameGrant => exact execFrameGrant_keepsJobsLegal s
  | bufferFetchEnd context fetched => exact execBufferFetchEnd_keepsJobsLegal context fetched s
  | gatherEnd context => exact execGatherEnd_keepsJobsLegal context s
  | supplementEnd context => exact execSupplementEnd_keepsJobsLegal context s
  | awaitMemberWake context => exact execAwaitMemberWake_keepsJobsLegal context s
  | solverTakeHead => exact execSolverTakeHead_keepsJobsLegal s
  | solveCompletion => exact execSolveCompletion_keepsJobsLegal s
  | bufferDeliveryEnd context fault => exact execBufferDeliveryEnd_keepsJobsLegal context fault s
  | placeEnd context => exact execPlaceEnd_keepsJobsLegal context s
  | jobRowStart job => exact execJobRowStart_keepsJobsLegal job s
  | startingDrainEnd job => exact execStartingDrainEnd_keepsJobsLegal job s
  | pausingDrainEnd job => exact execPausingDrainEnd_keepsJobsLegal job s
  | abortingDrainEnd job => exact execAbortingDrainEnd_keepsJobsLegal job s
  | jobCompletion job => exact .ite (s.keepsJobsLegal_completeJob job).done idle
  | pieceStart slip => exact execPieceStart_keepsJobsLegal slip s
  | requestFinish slip => exact execRequestFinish_keepsJobsLegal slip s
  | exportEnd slip fault => exact execExportEnd_keepsJobsLegal slip fault s
  | importCompletion slip records => exact execImportCompletion_keepsJobsLegal slip records s

/-- Settles O54: every command leaves each job legal that was legal (`exec_keepsJobsLegal`). -/
theorem jobsStayLegal : Obligations.JobsStayLegal := by
  intro s t legal h
  unfold step at h
  split at h
  · cases h
    exact legal
  · rename_i c rest _
    exact fun j => (exec_keepsJobsLegal c { s with pending := rest } t h).legal j (legal j)

end Sys2Proof.Machine
end

section
/-! What a command on one job does: the record that it leaves, the answers that it queues, and what it keeps. -/

namespace Sys2Proof.Machine

/-- From `s` to `u` the record of job `j` has become `y`, the answers `more` are queued, and the other records and what no
operation on jobs reaches stay. -/
structure State.JobStep (s : State) (j : JobId) (y : Job) (more : List Answer) (u : State) : Prop where
  job : u.job j = y
  others : ∀ k, k ≠ j → u.job k = s.job k
  rest : s.RestKept u
  answers : s.Answers u more

/-- The same of a step that has ended, in the terms of the obligations. -/
structure State.JobStepped (s : State) (j : JobId) (y : Job) (more : List Answer) (t : State) : Prop where
  job : (t.job j).agrees y
  others : s.SameOtherJobs t j
  pacing : s.SamePacing t
  pending : t.pending = s.pending
  registers : s.SameRegisters t
  answers : s.Answers t more
  begins : s.AnswerBegins t

/-- A record changed, and then answers queued and a publish asked for or not. -/
theorem State.jobStep_of_withJob {s u : State} {j : JobId} (f : Job → Job) {more : List Answer}
    (jobs : u.jobs = (s.withJob j f).jobs) (rest : s.RestKept u) (answers : s.Answers u more) :
    s.JobStep j (f (s.job j)) more u := by
  have same : ∀ k, u.job k = (s.withJob j f).job k := fun k => by rw [State.job, jobs, State.job]
  refine ⟨?_, fun k other => ?_, rest, answers⟩
  · rw [same, State.job_withJob_self]
  · rw [same, State.job_withJob, if_neg other.symm]

/-- A step on one job that reaches neither the drives' side nor the row work. -/
structure State.JobAlone (s : State) (j : JobId) (y : Job) (more : List Answer) (u : State) : Prop
    extends s.JobStep j y more u where
  array : s.SameArray u
  work : s.SameWork u

theorem State.jobAlone_of_withJob {s u : State} {j : JobId} (f : Job → Job) {more : List Answer}
    (answers : s.Answers u more) (jobs : u.jobs = (s.withJob j f).jobs := by rfl)
    (rest : s.RestKept u := by exact ⟨rfl, rfl, rfl, rfl, rfl, rfl⟩)
    (array : s.SameArray u := by exact ⟨rfl, rfl, rfl⟩) (work : s.SameWork u := by exact ⟨rfl, rfl, rfl, rfl⟩) :
    s.JobAlone j (f (s.job j)) more u :=
  { State.jobStep_of_withJob f jobs rest answers with array, work }

theorem State.withJob_withJob_jobs (s : State) (j : JobId) (f g : Job → Job) :
    ((s.withJob j f).withJob j g).jobs = (s.withJob j (g ∘ f)).jobs := by
  refine Vector.ext fun i bound => ?_
  show ((s.withJob j f).withJob j g).job ⟨i, bound⟩ = (s.withJob j (g ∘ f)).job ⟨i, bound⟩
  simp only [State.job_withJob]
  split <;> rfl

theorem State.SameArray.settle {s u : State} (h : s.SameArray u) : s.SameArray u.settle := by
  obtain ⟨ports, extents, losses⟩ := h
  exact ⟨(State.settle_ports u).trans ports, (State.settle_extents u).trans extents, (State.settle_losses u).trans losses⟩

theorem State.SameWork.settle {s u : State} (h : s.SameWork u) : s.SameWork u.settle := by
  obtain ⟨rows, solver, holds, requests⟩ := h
  exact ⟨(State.settle_rows u).trans rows, (State.settle_solver u).trans solver, (State.settle_holds u).trans holds,
    (State.settle_requests u).trans requests⟩

/-- Records that are equal agree after the end of the step. -/
theorem State.settle_job_agrees_of_eq {u : State} {j : JobId} {y : Job} (h : u.job j = y) :
    (u.settle.job j).agrees y := h ▸ u.settle_job_agrees j

namespace State.JobStep

variable {s u : State} {j : JobId} {y : Job} {more : List Answer}

theorem settle (h : s.JobStep j y more u) : s.JobStepped j y more u.settle := by
  obtain ⟨-, pacing, pending, registers, -⟩ := h.rest.settle
  exact ⟨State.settle_job_agrees_of_eq h.job, fun k other => (State.settle_job_agrees_of_eq (h.others k other)).symm, pacing,
    pending, registers, (State.settle_answers u).trans h.answers, h.rest.answerBegins⟩

theorem sameSweep (h : s.JobStep j y more u) : s.SameSweep u.settle := by
  obtain ⟨-, -, -, -, sweep⟩ := h.rest.settle
  exact sweep

/-- The published frontiers stay until the end of the step, where the changed record keeps its own. -/
theorem published (h : s.JobStep j y more u) (front : y.publishedFrontier = (s.job j).publishedFrontier) (k : JobId) :
    (u.job k).publishedFrontier = (s.job k).publishedFrontier := by
  by_cases same : k = j
  · rw [same, h.job, front]
  · rw [h.others k same]

theorem publishes (h : s.JobStep j y more u) (asked : u.board.publishAsked = true)
    (front : y.publishedFrontier = (s.job j).publishedFrontier) : s.Publishes u.settle :=
  h.rest.publishes asked (h.published front)

theorem silent (h : s.JobStep j y more u) (asked : u.board.publishAsked = false)
    (front : y.publishedFrontier = (s.job j).publishedFrontier) : s.Silent u.settle :=
  h.rest.silent asked (h.published front)

/-! A step that begins with the read of a slip. -/

variable {run : SweepRun} {tag : BitVec 64}

theorem settle_slip (h : (s.afterTake run tag).JobStep j y more u) : s.JobStepped j y more u.settle := by
  obtain ⟨job, others, pacing, pending, registers, answers, begins⟩ := h.settle
  exact ⟨job, others, pacing, pending, registers, answers, begins⟩

theorem keepsSlip (h : (s.afterTake run tag).JobStep j y [] u) : s.KeepsSlip u.settle run tag none :=
  ⟨h.rest.dispatched, h.settle_slip.answers, h.settle_slip.registers, h.settle_slip.begins⟩

theorem answersAtOnce {a : Answer} (h : (s.afterTake run tag).JobStep j y [a] u) :
    s.AnswersAtOnce u.settle run tag a :=
  ⟨h.rest.dispatched, h.settle_slip.answers, h.settle_slip.registers, h.settle_slip.begins⟩

end State.JobStep

/-! ## What the four JOBCTL have in common (R101) -/

/-- A JOBCTL with the fields it spells: it acts on a job that accepts it, and is refused otherwise. -/
def State.control (s : State) (accepts : Job → Prop) [DecidablePred accepts] (act : State → SlipId → ControlFields → State)
    (fields : Option ControlFields) (tag : BitVec 64) : Host.Outcome State Fault Refusal :=
  match s.takeSlip tag with
  | none => .next s
  | some (slip, s) =>
    match fields with
    | none => (s.refuse slip .badField).done
    | some f => if accepts (s.job f.job) then (act s slip f).done else (s.refuse slip .wrongState).done

/-- An accepted CHANGE (R105): the record is changed, the slip answered, and a publish asked for where anything changed. -/
def State.changeJob (s : State) (slip : SlipId) (f : ControlFields) : State :=
  (((s.withJob f.job (Job.change s.guard.state f)).answerControl slip
    (if f.clampedAny then .adjusted else .good) f.job).askPublishIf
      (decide ((s.withJob f.job (Job.change s.guard.state f)).job f.job ≠ s.job f.job)))

theorem exec_jobctlPause (tag : BitVec 64) (body : SlipBody) (s : State) : exec (.jobctlPause tag body) s =
    s.control (fun x => x.state = .running ∧ x.completes = false) (fun s slip f => s.pauseJob slip f.job)
      (controlFields 0 body) tag := rfl

theorem exec_jobctlResume (tag : BitVec 64) (body : SlipBody) (s : State) : exec (.jobctlResume tag body) s =
    s.control (fun x => x.state = .paused) (fun s slip f => s.resumeJob slip f.job) (controlFields 1 body) tag := rfl

theorem exec_jobctlAbort (tag : BitVec 64) (body : SlipBody) (s : State) : exec (.jobctlAbort tag body) s =
    s.control (fun x => x.drainable = true)
      (fun s slip f => (s.drainJob f.job .aborted).withJob f.job fun x => { x with control := some slip })
      (controlFields 2 body) tag := rfl

theorem exec_jobctlChange (tag : BitVec 64) (body : SlipBody) (s : State) : exec (.jobctlChange tag body) s =
    s.control (fun x => x.drainable = true) (fun s slip f => s.changeJob slip f) (controlFields 3 body) tag := rfl

section
variable {s : State} {run : SweepRun} (at_slip : s.sweepAt .slipRead = some run) {accepts : Job → Prop}
  [DecidablePred accepts] {act : State → SlipId → ControlFields → State} {fields : Option ControlFields}
  {tag : BitVec 64}
include at_slip

theorem State.control_refuses_badField (rest : s.AtRest) (bad : fields = none) :
    ∃ t : State, s.control accepts act fields tag = .next t ∧ s.Refuses t run tag .badField := by
  rw [State.control, State.takeSlip_afterTake tag at_slip, bad]
  exact State.done_refuses rest _

variable {f : ControlFields} (spelt : fields = some f)
include spelt

theorem State.control_refuses_wrongState (rest : s.AtRest) (declines : ¬ accepts (s.job f.job)) :
    ∃ t : State, s.control accepts act fields tag = .next t ∧ s.Refuses t run tag .wrongState := by
  have declines : ¬ accepts ((s.afterTake run tag).job f.job) := declines
  rw [State.control, State.takeSlip_afterTake tag at_slip, spelt]
  dsimp only
  rw [if_neg declines]
  exact State.done_refuses rest _

theorem State.control_accepts (accepted : accepts (s.job f.job)) :
    s.control accepts act fields tag = .next (act (s.afterTake run tag) run.slip f).settle := by
  have accepted : accepts ((s.afterTake run tag).job f.job) := accepted
  rw [State.control, State.takeSlip_afterTake tag at_slip, spelt]
  dsimp only
  rw [if_pos accepted]
  rfl

end

/-! ## JOBCTL_PAUSE, the end of a pause, and JOBCTL_RESUME (R102, R103) -/

theorem State.jobAlone_pauseJob_idle {s : State} {j : JobId} (slip : SlipId) (idle : (s.job j).inFlight = []) :
    s.JobAlone j { s.job j with state := .paused } [controlAnswer slip .good j] (s.pauseJob slip j) := by
  rw [State.pauseJob, if_pos idle]
  exact State.jobAlone_of_withJob (fun x => { x with state := .paused }) rfl

theorem State.jobAlone_pauseJob_busy {s : State} {j : JobId} (slip : SlipId) (busy : (s.job j).inFlight ≠ []) :
    s.JobAlone j { s.job j with state := .pausing, control := some slip } [] (s.pauseJob slip j) := by
  rw [State.pauseJob, if_neg busy]
  exact State.jobAlone_of_withJob (fun x => { x with state := .pausing, control := some slip }) (List.append_nil _).symm

theorem State.pauseJob_asked (s : State) (slip : SlipId) (j : JobId) : (s.pauseJob slip j).board.publishAsked = true := by
  unfold State.pauseJob
  split <;> rfl

theorem State.jobAlone_resumeJob {s : State} {j : JobId} (slip : SlipId) (owned : (s.job j).orphaned = false) :
    s.JobAlone j { s.job j with state := .running } [controlAnswer slip .good j] (s.resumeJob slip j) := by
  rw [State.resumeJob, owned]
  exact State.jobAlone_of_withJob (fun x => { x with state := .running }) rfl

theorem State.jobAlone_resumeJob_orphan {s : State} {j : JobId} (slip : SlipId) (orphaned : (s.job j).orphaned = true) :
    s.JobAlone j { s.job j with state := .running, answering := some slip } [] (s.resumeJob slip j) := by
  rw [State.resumeJob, orphaned]
  exact State.jobAlone_of_withJob (fun x => { x with state := .running, answering := some slip }) (List.append_nil _).symm

theorem State.resumeJob_asked (s : State) (slip : SlipId) (j : JobId) :
    (s.resumeJob slip j).board.publishAsked = true := by
  unfold State.resumeJob
  split <;> rfl

/-- A paused job is orphaned where it has no answering slip. -/
theorem Job.orphaned_iff {x : Job} (paused : x.state = .paused) : x.orphaned = true ↔ x.answering = none := by
  simp [Job.orphaned, Job.isOn, paused]

/-- The last row of a PAUSING job has ended short of its end row: the job is PAUSED, and its PAUSE is answered. -/
def State.endPause (s : State) (j : JobId) : State :=
  ((s.withJob j fun x => { x with state := .paused }).answerPause j).askPublish

theorem State.jobAlone_endPause (s : State) (j : JobId) :
    s.JobAlone j { s.job j with state := .paused, control := none }
      ((s.job j).control.toList.map fun slip => controlAnswer slip .good j) (s.endPause j) := by
  unfold State.endPause State.answerPause
  rw [State.job_withJob_self]
  dsimp only
  cases held : (s.job j).control with
  | none =>
    have same : ({ s.job j with state := .paused, control := none } : Job) = { s.job j with state := .paused } := by
      rw [← held]
    rw [same]
    exact State.jobAlone_of_withJob (fun x => { x with state := .paused }) (List.append_nil _).symm
  | some slip =>
    exact State.jobAlone_of_withJob (fun x => { x with state := .paused, control := none }) rfl
      (s.withJob_withJob_jobs j (fun x => { x with state := .paused }) fun x => { x with control := none })

/-- Settles O21: PAUSE, the end of a pause and RESUME each act on one job alone (`State.jobAlone_pauseJob_idle` and those
after it); the body of the answer is `Job.controlBody`. -/
theorem jobPausedAndResumed : Obligations.JobPausedAndResumed := by
  refine ⟨⟨fun s run tag body rest at_slip => ?_, fun s j rest pausing idle short => ?_⟩,
    fun s run tag body rest at_slip => ?_, fun s a => ⟨fun plain => ?_, fun c asked => ?_⟩, fun j x => ?_⟩
  · simp only [exec_jobctlPause]
    refine ⟨State.control_refuses_badField at_slip rest, fun f spelt => ⟨fun declined => ?_, fun running short idle => ?_,
      fun running short busy => ?_⟩⟩
    · refine State.control_refuses_wrongState at_slip spelt rest fun ⟨running, going⟩ => ?_
      rcases declined with still | full
      · exact still running
      · exact Bool.eq_false_iff.mp going (Job.completes_iff.mpr ⟨.inl running, full⟩)
    · have paused := State.jobAlone_pauseJob_idle (s := s.afterTake run tag) (j := f.job) run.slip idle
      have going := Bool.eq_false_iff.mpr fun ends => short (Job.completes_iff.mp ends).2
      have stepped := paused.settle_slip
      exact ⟨_, State.control_accepts at_slip spelt ⟨running, going⟩, stepped.job, stepped.others, paused.array.settle,
        paused.work.settle, stepped.pacing, stepped.pending, paused.publishes (State.pauseJob_asked _ _ _) rfl,
        paused.answersAtOnce⟩
    · have pausing := State.jobAlone_pauseJob_busy (s := s.afterTake run tag) (j := f.job) run.slip busy
      have going := Bool.eq_false_iff.mpr fun ends => short (Job.completes_iff.mp ends).2
      have stepped := pausing.settle_slip
      exact ⟨_, State.control_accepts at_slip spelt ⟨running, going⟩, stepped.job, stepped.others, pausing.array.settle,
        pausing.work.settle, stepped.pacing, stepped.pending, pausing.publishes (State.pauseJob_asked _ _ _) rfl,
        pausing.keepsSlip⟩
  · have ended := s.jobAlone_endPause j
    have stepped := ended.settle
    exact ⟨_, if_pos ⟨pausing, idle, short⟩, stepped.job, stepped.others, stepped.answers, ended.array.settle,
      ended.work.settle, stepped.pacing, stepped.pending, stepped.registers, ended.sameSweep, ended.publishes rfl rfl,
      stepped.begins⟩
  · simp only [exec_jobctlResume]
    refine ⟨State.control_refuses_badField at_slip rest, fun f spelt =>
      ⟨fun still => State.control_refuses_wrongState at_slip spelt rest still, fun paused => ?_⟩⟩
    have orphaned := Job.orphaned_iff paused
    by_cases answering : (s.job f.job).answering = none
    · have resumed := State.jobAlone_resumeJob_orphan (s := s.afterTake run tag) run.slip (orphaned.mpr answering)
      have stepped := resumed.settle_slip
      exact ⟨_, State.control_accepts at_slip spelt paused, stepped.others, resumed.array.settle, resumed.work.settle,
        stepped.pacing, stepped.pending, resumed.publishes (State.resumeJob_asked _ _ _) rfl,
        fun owned => absurd answering owned, fun _ => ⟨stepped.job, resumed.keepsSlip⟩⟩
    · have resumed := State.jobAlone_resumeJob (s := s.afterTake run tag) run.slip
        (Bool.eq_false_iff.mpr (mt orphaned.mp answering))
      have stepped := resumed.settle_slip
      exact ⟨_, State.control_accepts at_slip spelt paused, stepped.others, resumed.array.settle, resumed.work.settle,
        stepped.pacing, stepped.pending, resumed.publishes (State.resumeJob_asked _ _ _) rfl,
        fun _ => ⟨stepped.job, resumed.answersAtOnce⟩, fun none => absurd none answering⟩
  · rw [State.answerFields, plain]
  · rw [State.answerFields, asked]
    dsimp only
    cases c.drained <;> rfl
  · rw [Job.controlBody, Job.answerCause]
    rfl

end Sys2Proof.Machine
end

section
/-! O22 and O23: ABORT and CHANGE, of a job that can be drained. -/

namespace Sys2Proof.Machine

/-! ## The jobs that take an ABORT or a CHANGE (R104, R105, R108) -/

theorem JobState.drainable_iff {st : JobState} : st.drainable = true ↔ st ∈ [.starting, .running, .pausing, .paused] := by
  cases st <;> decide

theorem Job.drainable_iff_listed {x : Job} : x.drainable = true ↔
    x.state ∈ [.starting, .running, .pausing, .paused] ∧
      ¬ ((x.state = .running ∨ x.state = .pausing) ∧ x.frontier = x.endRow) := by
  rw [← Job.completes_iff, ← JobState.drainable_iff, Job.drainable]
  simp

theorem Job.not_drainable_of {x : Job} (h : x.state ∉ [.starting, .running, .pausing, .paused] ∨
    ((x.state = .running ∨ x.state = .pausing) ∧ x.frontier = x.endRow)) : ¬ x.drainable = true := fun drainable => by
  obtain ⟨listed, short⟩ := Job.drainable_iff_listed.mp drainable
  rcases h with unlisted | full
  · exact unlisted listed
  · exact short full

/-! ## JOBCTL_ABORT -/

theorem State.supersedePause_eq (s : State) (j : JobId) (cause : EndCause) : s.supersedePause j cause =
    s.withBoard fun b => { b with answers := b.answers ++ s.supersededPause j cause } := by
  have answers := s.supersedePause_answers j cause
  have board : (s.supersedePause j cause).board =
      { s.board with answers := (s.supersedePause j cause).board.answers } := by
    unfold State.supersedePause
    split <;> rfl
  have rest : s.supersedePause j cause = { s with board := (s.supersedePause j cause).board } := by
    unfold State.supersedePause
    split <;> rfl
  rw [rest, board, answers]
  rfl

/-- An accepted ABORT: the job is set draining, and keeps the slip as its control slip. -/
def State.abortJob (s : State) (slip : SlipId) (j : JobId) : State :=
  (s.drainJob j .aborted).withJob j fun x => { x with control := some slip }

theorem State.abortJob_of_drainable {s : State} {j : JobId} (slip : SlipId) (drainable : (s.job j).drainable = true) :
    s.JobAlone j { s.job j with state := .aborting, drainCause := some .aborted, control := some slip }
        (s.supersededPause j .aborted) (s.abortJob slip j) ∧
      (s.abortJob slip j).board.publishAsked = true := by
  rw [State.abortJob, State.drainJob_eq, if_pos drainable, State.supersedePause_eq]
  exact ⟨State.jobAlone_of_withJob
    (fun x => { x with state := .aborting, drainCause := some .aborted, control := some slip }) rfl
    (s.withJob_withJob_jobs j (Job.drained .aborted) fun x => { x with control := some slip }), rfl⟩

/-- Settles O22: an ABORT acts on its job alone (`State.abortJob_of_drainable`). -/
theorem jobAborted : Obligations.JobAborted := by
  intro s run tag body rest at_slip
  simp only [exec_jobctlAbort]
  refine ⟨State.control_refuses_badField at_slip rest, fun f spelt => ⟨fun declined => ?_, fun listed short => ?_⟩⟩
  · exact State.control_refuses_wrongState at_slip spelt rest (Job.not_drainable_of declined)
  · have drainable : (s.job f.job).drainable = true := Job.drainable_iff_listed.mpr ⟨listed, short⟩
    obtain ⟨aborted, asked⟩ := State.abortJob_of_drainable (s := s.afterTake run tag) run.slip drainable
    have stepped := aborted.settle_slip
    exact ⟨_, State.control_accepts at_slip spelt drainable, stepped.job, stepped.others, stepped.answers,
      aborted.array.settle, aborted.work.settle, stepped.pacing, stepped.pending, stepped.registers,
      aborted.rest.dispatched, aborted.publishes asked rfl, stepped.begins⟩

/-! ## JOBCTL_CHANGE (R105): the fields of a changed record -/

section
variable (guard : GuardState) (f : ControlFields) (x : Job)

theorem Job.change_lanesWanted : (x.change guard f).lanesWanted =
    if f.lanes = 0 then x.lanesWanted else max 1 (min 4 f.lanes) := by
  unfold Job.change
  dsimp only
  split <;> split <;> rfl

theorem Job.change_coolCredits : (x.change guard f).coolCredits =
    if f.coolCredits = 0 then x.coolCredits else max 1 (min 1023 f.coolCredits) := by
  unfold Job.change
  dsimp only
  split <;> split <;> rfl

theorem Job.change_hotCredits : (x.change guard f).hotCredits =
    if f.hotCredits = 0 then x.hotCredits else max 1 (min 1023 f.hotCredits) := by
  unfold Job.change
  dsimp only
  split <;> split <;> rfl

theorem Job.change_expedite : (x.change guard f).expedite =
    if f.expedite = .set then true else if f.expedite = .clear then false else x.expedite := by
  unfold Job.change
  dsimp only
  split <;> cases f.expedite <;> rfl

theorem ControlFields.keepsAll_iff : f.keepsAll = true ↔
    f.lanes = 0 ∧ f.coolCredits = 0 ∧ f.hotCredits = 0 ∧ f.expedite = .keep := by
  simp [ControlFields.keepsAll, and_assoc]

theorem Job.change_creditsLeft : (x.change guard f).creditsLeft =
    if f.lanes = 0 ∧ f.coolCredits = 0 ∧ f.hotCredits = 0 ∧ f.expedite = .keep then x.creditsLeft
    else min x.creditsLeft
      (if (x.change guard f).expedite = true ∨ x.exposed = true ∨ guard = .cool then (x.change guard f).coolCredits
      else (x.change guard f).hotCredits) := by
  rw [← if_congr (ControlFields.keepsAll_iff f) rfl rfl]
  unfold Job.change
  dsimp only
  split
  · rfl
  · simp [Job.budget, or_assoc]

end

theorem ControlFields.clampedAny_iff (f : ControlFields) :
    f.clampedAny = true ↔ 4 < f.lanes ∨ 1023 < f.coolCredits ∨ 1023 < f.hotCredits := by
  simp [ControlFields.clampedAny, or_assoc]

/-- Records that agree are equal where their published frontiers are. -/
theorem Job.eq_of_agrees {x y : Job} (h : x.agrees y) (front : x.publishedFrontier = y.publishedFrontier) : x = y := by
  cases x
  cases y
  simp_all [Job.agrees]

theorem State.jobAlone_changeJob (s : State) (slip : SlipId) (f : ControlFields) :
    s.JobAlone f.job ((s.job f.job).change s.guard.state f)
      [controlAnswer slip (if f.clampedAny then .adjusted else .good) f.job] (s.changeJob slip f) := by
  unfold State.changeJob
  by_cases kept : (s.withJob f.job (Job.change s.guard.state f)).job f.job = s.job f.job
  · rw [decide_eq_false (not_not.mpr kept)]
    exact State.jobAlone_of_withJob (Job.change s.guard.state f) rfl
  · rw [decide_eq_true kept]
    exact State.jobAlone_of_withJob (Job.change s.guard.state f) rfl

theorem Job.change_publishedFrontier (guard : GuardState) (f : ControlFields) (x : Job) :
    (x.change guard f).publishedFrontier = x.publishedFrontier := by rw [Job.change_eq]

theorem Job.agrees_of_eq {x y : Job} (h : x = y) : x.agrees y := h ▸ rfl

/-- A publish is asked for where the record has changed. -/
theorem State.changeJob_asked {s : State} (rest : s.AtRest) (slip : SlipId) (f : ControlFields) :
    (s.changeJob slip f).board.publishAsked = decide ((s.job f.job).change s.guard.state f ≠ s.job f.job) := by
  unfold State.changeJob State.askPublishIf
  rw [State.job_withJob_self]
  split
  · exact (‹_› : _ = true).symm
  · exact rest.trans (Bool.eq_false_iff.mpr ‹_›).symm

/-- Settles O23: a CHANGE acts on its job alone (`State.jobAlone_changeJob`), and asks for a publish where the record has
changed. -/
theorem jobChanged : Obligations.JobChanged := by
  intro s run tag body rest at_slip
  simp only [exec_jobctlChange]
  refine ⟨State.control_refuses_badField at_slip rest, fun f spelt => ⟨fun declined => ?_, fun listed short => ?_⟩⟩
  · exact State.control_refuses_wrongState at_slip spelt rest (Job.not_drainable_of declined)
  · have drainable : (s.job f.job).drainable = true := Job.drainable_iff_listed.mpr ⟨listed, short⟩
    have changed := (s.afterTake run tag).jobAlone_changeJob run.slip f
    have asked := State.changeJob_asked (s := s.afterTake run tag) rest run.slip f
    have front := Job.change_publishedFrontier s.guard.state f (s.job f.job)
    have stepped : s.JobStepped f.job ((s.job f.job).change s.guard.state f) _ _ := changed.settle_slip
    have same : (s.job f.job).agrees (((s.afterTake run tag).changeJob run.slip f).settle.job f.job) ↔
        (s.job f.job).change s.guard.state f = s.job f.job :=
      ⟨fun agrees => (Job.eq_of_agrees (agrees.trans stepped.job) front.symm).symm,
        fun kept => (stepped.job.trans (Job.agrees_of_eq kept)).symm⟩
    have silent := fun agrees =>
      changed.silent (asked.trans (decide_eq_false (not_not.mpr (same.mp agrees)))) front
    have publishes := fun differs => changed.publishes (asked.trans (decide_eq_true (mt same.mpr differs))) front
    have status : (if f.clampedAny then Status.adjusted else .good) =
        if 4 < f.lanes ∨ 1023 < f.coolCredits ∨ 1023 < f.hotCredits then .adjusted else .good :=
      if_congr f.clampedAny_iff rfl rfl
    refine ⟨_, State.control_accepts at_slip spelt drainable, ?_⟩
    have lanesWanted := congrArg Job.lanesWanted stepped.job
    have laneCount := congrArg Job.laneCount stepped.job
    have coolCredits := congrArg Job.coolCredits stepped.job
    have hotCredits := congrArg Job.hotCredits stepped.job
    have expedite := congrArg Job.expedite stepped.job
    have creditsLeft := congrArg Job.creditsLeft stepped.job
    dsimp only at lanesWanted laneCount coolCredits hotCredits expedite creditsLeft
    rw [lanesWanted, laneCount, coolCredits, hotCredits, expedite, creditsLeft, ← status]
    refine ⟨Job.change_lanesWanted _ f _, Job.change_laneCount _ f _, Job.change_coolCredits _ f _,
      Job.change_hotCredits _ f _, Job.change_expedite _ f _, Job.change_creditsLeft _ f _, ?_, stepped.others,
      changed.array.settle, changed.work.settle, stepped.pacing, stepped.pending, silent, publishes,
      changed.answersAtOnce⟩
    exact stepped.job.trans (Job.agrees_of_eq (Job.change_eq _ f _))

end Sys2Proof.Machine
end

section
/-! O24: the start of a row, and the ends of the two drains. -/

namespace Sys2Proof.Machine

/-! ## JOB_ROW_START and STARTING_DRAIN_END (R90, R91) -/

theorem State.canStartRow_iff {s : State} {j : JobId} : s.canStartRow j = true ↔
    s.board.engine = .running ∧ (s.job j).state = .running ∧ 1 ≤ (s.job j).creditsLeft ∧
      (s.job j).inFlight.length < (s.job j).laneCount ∧ (s.job j).nextRow < (s.job j).frontier + 64 ∧
      (s.job j).nextRow < (s.job j).endRow := by
  simp only [State.canStartRow, Bool.and_eq_true, beq_iff_eq, decide_eq_true_eq]
  constructor
  · rintro ⟨⟨⟨⟨⟨running, engine⟩, credit⟩, lane⟩, ahead⟩, bound⟩
    exact ⟨engine, running, credit, lane, ahead, bound⟩
  · rintro ⟨engine, running, credit, lane, ahead, bound⟩
    exact ⟨⟨⟨⟨⟨running, engine⟩, credit⟩, lane⟩, ahead⟩, bound⟩

theorem execJobRowStart_of_starts {s : State} {j : JobId} (starts : s.canStartRow j = true)
    (first : ∀ k : JobId, k < j → s.canStartRow k = false) : exec (.jobRowStart j) s = (s.startRow j).done := by
  refine if_pos ⟨starts, List.all_eq_true.mpr fun k _ => ?_⟩
  by_cases later : j ≤ k
  · simp [later]
  · simp [first k (not_le.mp later)]

theorem execJobRowStart_of_not {s : State} {j : JobId} (still : ¬ s.canStartRow j = true) :
    exec (.jobRowStart j) s = .next s := if_neg fun terms => still terms.1

theorem State.jobStep_startRow (s : State) (j : JobId) : s.JobStep j
    { s.job j with
      creditsLeft := (s.job j).creditsLeft - 1, inFlight := (s.job j).inFlight ++ [(s.job j).nextRow]
      nextRow := (s.job j).nextRow + 1 } [] (s.startRow j) :=
  State.jobStep_of_withJob (fun x => { x with
    creditsLeft := x.creditsLeft - 1, inFlight := x.inFlight ++ [(s.job j).nextRow], nextRow := (s.job j).nextRow + 1 })
    rfl ⟨rfl, rfl, rfl, rfl, rfl, rfl⟩ (List.append_nil _).symm

/-! ## Ports that change their member state one after another -/

/-- A fold over ports of which each, in no extent, is changed alone. -/
theorem State.foldl_changesPorts {f : State → PortId → State} {g : Port → Port} (once : ∀ x, g (g x) = g x)
    (step : ∀ (s : State) (p : PortId), s.extentOfPort p = none →
      s.MovesPorts (f s p) ∧ ∀ q, (f s p).port q = if q = p then g (s.port q) else s.port q)
    {l : List PortId} {s : State} (free : ∀ p ∈ l, s.extentOfPort p = none) :
    s.MovesPorts (l.foldl f s) ∧ ∀ q, (l.foldl f s).port q = if q ∈ l then g (s.port q) else s.port q := by
  induction l generalizing s with
  | nil => exact ⟨.refl s, fun q => by simp⟩
  | cons p rest ih =>
    obtain ⟨moves, ports⟩ := step s p (free p List.mem_cons_self)
    obtain ⟨moves', ports'⟩ := ih (s := f s p) fun q mem => by
      rw [State.extentOfPort_congr moves.extents moves.jobs]
      exact free q (List.mem_cons_of_mem _ mem)
    refine ⟨moves.trans moves', fun q => (ports' q).trans ?_⟩
    rw [ports]
    by_cases here : q = p
    · simp [here, once]
    · simp [here]

/-- A TARGET port that a job has let go. -/
def Port.spared (x : Port) : Port :=
  if x.memberState = .target then { x.clearFlags with memberState := .spare, waiting := [] } else x

theorem Port.spared_spared (x : Port) : x.spared.spared = x.spared := by
  unfold Port.spared
  split <;> simp [*]

theorem State.turnMember_spare {s : State} {p : PortId} (free : s.extentOfPort p = none) :
    s.MovesPorts (s.turnMember p .target .spare) ∧
      ∀ q, (s.turnMember p .target .spare).port q = if q = p then (s.port q).spared else s.port q := by
  unfold State.turnMember
  split
  · rename_i target
    have moved : ∀ q, (s.moveMember p .spare).port q = _ := fun q =>
      s.port_moveMember_of_leaves p q (new := .spare) (by rw [target]; rfl) (.inl rfl)
    obtain ⟨moves, ports⟩ := State.changeMember_quiet (s := s) (p := p) (new := .spare)
      (by rw [moved, if_pos rfl]; exact fun failed => nomatch failed) fun x here => by rw [free] at here; cases here
    refine ⟨moves, fun q => ?_⟩
    rw [ports, moved]
    by_cases same : p = q
    · subst same
      rw [if_pos rfl, if_pos rfl, Port.spared, if_pos target]
    · rw [if_neg same, if_neg (Ne.symm same)]
  · rename_i other
    refine ⟨.refl s, fun q => ?_⟩
    split
    · rename_i same
      rw [Port.spared, if_neg (same ▸ other)]
    · rfl

theorem Job.mem_ownTargets {x : Job} {p : PortId} :
    p ∈ x.ownTargets ↔ x.targetless = false ∧ ∃ y ∈ x.sources, y.target = p := by
  unfold Job.ownTargets
  cases x.targetless <;> simp

/-! ## ABORTING_DRAIN_END (R96, R100) -/

theorem State.answerIf_eq (s : State) (slip : Option SlipId) (status : Status) (reason : Reason) (body : List BodyField) :
    s.answerIf slip status reason body =
      s.withBoard fun b => { b with answers := b.answers ++ answersOf [(slip, status, reason, body)] } := by
  cases slip with
  | some i => rfl
  | none =>
    show s = { s with board := { s.board with answers := s.board.answers ++ [] } }
    rw [List.append_nil]

theorem answersOf_append (l m : List (Option SlipId × Status × Reason × List BodyField)) :
    answersOf (l ++ m) = answersOf l ++ answersOf m := List.filterMap_append

/-- The record of a job that has ended. -/
def Job.endedWith (cause : Option EndCause) (now : Stamp) (x : Job) : Job :=
  { x with state := .ended, endCause := cause, endStamp := now, exposed := false }

/-- The answers that a record takes with it as the job ends: of its answering slip and of its control slip. -/
def Job.endAnswers (j : JobId) (x : Job) : List Answer :=
  answersOf [(x.answering, x.endStatus.1, x.endStatus.2, x.endBody j), (x.control, .good, .none, x.controlBody j)]

/-- A job ended, and its slips answered. -/
def State.finishJob (s : State) (j : JobId) (cause : Option EndCause) : State :=
  (((s.endJob j cause).answerEnd j).answerEndedControl j .good).askPublish

theorem State.finishJob_answers (s : State) (j : JobId) (cause : Option EndCause) :
    s.Answers (s.finishJob j cause) (((s.job j).endedWith cause s.stamp).endAnswers j) := by
  have record : (s.endJob j cause).job j = (s.job j).endedWith cause s.stamp := s.job_withJob_self j _
  have answered : (s.endJob j cause).answerEnd j = (s.endJob j cause).withBoard fun b => { b with answers := (b.answers ++
      answersOf [(((s.endJob j cause).job j).answering, ((s.endJob j cause).job j).endStatus.1,
        ((s.endJob j cause).job j).endStatus.2, ((s.endJob j cause).job j).endBody j)]) } := State.answerIf_eq _ _ _ _ _
  unfold State.finishJob State.answerEndedControl
  rw [answered, State.answerIf_eq]
  show s.board.answers ++ _ ++ answersOf [(((s.endJob j cause).job j).control, .good, .none,
    ((s.endJob j cause).job j).controlBody j)] = _
  rw [record, List.append_assoc, ← answersOf_append]
  rfl

theorem State.jobStep_finishJob (s : State) (j : JobId) (cause : Option EndCause) :
    s.JobStep j { (s.job j).endedWith cause s.stamp with control := none }
      (((s.job j).endedWith cause s.stamp).endAnswers j) (s.finishJob j cause) := by
  have answers := s.finishJob_answers j cause
  unfold State.finishJob State.answerEndedControl State.answerEnd at *
  simp only [State.answerIf_eq] at *
  exact State.jobStep_of_withJob (fun x => { x.endedWith cause s.stamp with control := none })
    (s.withJob_withJob_jobs j (Job.endedWith cause s.stamp) fun x => { x with control := none })
    ⟨rfl, rfl, rfl, rfl, rfl, rfl⟩ answers

/-- A job that ends but for its completion is answered FAILED, with EXTENT_LOST where its extent is LOST (R96). -/
theorem Job.endStatus_of_incomplete {x : Job} (short : x.endCause ≠ some .complete) :
    x.endStatus = (.failed, if x.endCause = some .extentLost then .extentLost else .none) := by
  unfold Job.endStatus
  split <;> simp_all

/-- What a step on a job does stays what it does where the ports have moved before it. -/
theorem State.JobStep.of_moves {s t u : State} {j : JobId} {y : Job} {more : List Answer} (moves : s.MovesPorts t)
    (h : t.JobStep j y more u) : s.JobStep j y more u := by
  have same : ∀ k, t.job k = s.job k := fun k => by rw [State.job, moves.jobs, State.job]
  refine ⟨h.job, fun k other => (h.others k other).trans (same k), moves.restKept.trans h.rest, ?_⟩
  have answers := h.answers
  unfold State.Answers at *
  rw [answers, moves.board]

/-- The targets that a job has let go. -/
def State.spareTargets (s : State) (j : JobId) : State :=
  (s.job j).ownTargets.foldl (fun s t => s.turnMember t .target .spare) s

/-- An ABORTING job without a row in flight: its targets are let go, and it ends with its drain cause. -/
def State.endAborting (s : State) (j : JobId) : State := (s.spareTargets j).finishJob j (s.job j).drainCause

/-- The end of a job reaches the jobs and the board alone. -/
theorem State.finishJob_eq (s : State) (j : JobId) (cause : Option EndCause) :
    s.finishJob j cause = { s with jobs := (s.finishJob j cause).jobs, board := (s.finishJob j cause).board } := by
  unfold State.finishJob State.answerEndedControl State.answerEnd
  simp only [State.answerIf_eq]
  rfl

section
variable {s : State} {j : JobId} (free : ∀ x ∈ (s.job j).sources, s.extentOfPort x.target = none)
include free

theorem State.spareTargets_spec : s.MovesPorts (s.spareTargets j) ∧
    ∀ q, (s.spareTargets j).port q = if q ∈ (s.job j).ownTargets then (s.port q).spared else s.port q :=
  State.foldl_changesPorts (f := fun s t => s.turnMember t .target .spare) Port.spared_spared
    (fun _ _ free => State.turnMember_spare free) fun p mem => by
      obtain ⟨-, x, listed, rfl⟩ := Job.mem_ownTargets.mp mem
      exact free x listed

theorem State.spareTargets_job : (s.spareTargets j).job j = s.job j := by
  rw [State.job, (State.spareTargets_spec free).1.jobs, State.job]

theorem execAbortingDrainEnd_of_idle (aborting : (s.job j).state = .aborting) (idle : (s.job j).inFlight = []) :
    exec (.abortingDrainEnd j) s = (s.endAborting j).done := by
  refine (if_pos ⟨aborting, idle⟩).trans ?_
  show ((s.spareTargets j).finishJob j ((s.spareTargets j).job j).drainCause).done = _
  rw [State.spareTargets_job free, State.endAborting]

theorem State.jobStep_endAborting :
    s.JobStep j { (s.job j).endedWith (s.job j).drainCause s.stamp with control := none }
      (((s.job j).endedWith (s.job j).drainCause s.stamp).endAnswers j) (s.endAborting j) := by
  have moves := (State.spareTargets_spec free).1
  have finished := (s.spareTargets j).jobStep_finishJob j (s.job j).drainCause
  have now : (s.spareTargets j).stamp = s.stamp := by rw [State.stamp, moves.time, State.stamp]
  rw [State.spareTargets_job free, now] at finished
  exact finished.of_moves moves

/-- A target that the job has, still TARGET, is SPARE afterwards, with nothing pending. -/
theorem State.port_endAborting (p : PortId) :
    if (s.port p).memberState = .target ∧ (s.job j).targetless = false ∧ ∃ x ∈ (s.job j).sources, x.target = p then
      ((s.endAborting j).port p).memberState = .spare ∧ ((s.endAborting j).port p).stalled = false ∧
        ((s.endAborting j).port p).lapseCount = 0 ∧ ((s.endAborting j).port p).waiting = [] ∧
        ((s.endAborting j).port p).slots = (s.port p).slots
    else (s.endAborting j).port p = s.port p := by
  have port : (s.endAborting j).port p = if p ∈ (s.job j).ownTargets then (s.port p).spared else s.port p := by
    rw [State.endAborting, State.port, State.finishJob_eq]
    exact (State.spareTargets_spec free).2 p
  rw [port]
  split
  · rename_i spared
    obtain ⟨target, own⟩ := spared
    rw [if_pos (Job.mem_ownTargets.mpr own), Port.spared, if_pos target]
    exact ⟨rfl, rfl, rfl, rfl, rfl⟩
  · rename_i kept
    split
    · rename_i own
      rw [Port.spared, if_neg fun target => kept ⟨target, Job.mem_ownTargets.mp own⟩]
    · rfl

end

section
variable {x y : Job} (j : JobId) (agrees : y.agrees { x with control := none })
include agrees

/-- An answer body shows neither the published frontier nor the control slip. -/
theorem Job.endBody_of_agrees : y.endBody j = x.endBody j := by
  show Job.endBody j { y with publishedFrontier := 0 } = Job.endBody j { x with control := none, publishedFrontier := 0 }
  rw [agrees]

theorem Job.controlBody_of_agrees : y.controlBody j = x.controlBody j := by
  show Job.controlBody j { y with publishedFrontier := 0 } =
    Job.controlBody j { x with control := none, publishedFrontier := 0 }
  rw [agrees]

theorem Job.endAnswers_eq (short : x.endCause ≠ some .complete) : x.endAnswers j =
    answersOf [(x.answering, .failed, (if x.endCause = some .extentLost then .extentLost else .none), y.endBody j),
      (x.control, .good, .none, y.controlBody j)] := by
  rw [Job.endAnswers, Job.endStatus_of_incomplete short, Job.endBody_of_agrees j agrees, Job.controlBody_of_agrees j agrees]

end

/-- Settles O24: a row starts by `State.jobStep_startRow`; a STARTING drain ends by a change of state alone; an ABORTING
one lets the targets go (`State.port_endAborting`) and ends the job (`State.jobStep_endAborting`). -/
theorem jobStartsRowsAndDrains : Obligations.JobStartsRowsAndDrains := by
  refine ⟨⟨fun s j rest engine running credit lane ahead bound first => ?_, fun s j barred => ?_,
    fun s j rest starting drained => ?_⟩, fun s j rest aborting idle cause free => ?_⟩
  · have started := s.jobStep_startRow j
    have stepped := started.settle
    have array : s.SameArray (s.startRow j) := ⟨rfl, rfl, rfl⟩
    exact ⟨_, execJobRowStart_of_starts (State.canStartRow_iff.mpr ⟨engine, running, credit, lane, ahead, bound⟩) first,
      stepped.job, State.settle_rows _, stepped.others, array.settle, State.settle_solver _, State.settle_holds _,
      State.settle_requests _, stepped.pacing, stepped.pending, stepped.registers, started.sameSweep, stepped.answers,
      started.silent rest rfl, stepped.begins⟩
  · refine execJobRowStart_of_not fun starts => ?_
    obtain ⟨engine, running, credit, lane, ahead, bound⟩ := State.canStartRow_iff.mp starts
    rcases barred with other | other | none | full | far | last
    · exact other engine
    · exact other running
    all_goals omega
  · have begun := State.jobAlone_of_withJob (s := s) (u := (s.withJob j fun x => { x with state := .running }).askPublish)
      (fun x => { x with state := .running }) (List.append_nil _).symm
    have stepped := begun.settle
    exact ⟨_, if_pos ⟨starting, drained⟩, stepped.job, stepped.others, begun.array.settle, begun.work.settle,
      stepped.pacing, stepped.pending, stepped.registers, begun.sameSweep, stepped.answers, begun.publishes rfl rfl,
      stepped.begins⟩
  · have ended := State.jobStep_endAborting free
    have stepped := ended.settle
    have moves := (State.spareTargets_spec free).1
    have answers := Job.endAnswers_eq j stepped.job cause
    have reaches := (s.spareTargets j).finishJob_eq j (s.job j).drainCause
    refine ⟨_, execAbortingDrainEnd_of_idle free aborting idle, stepped.job, stepped.others, fun p => ?_,
      answers ▸ stepped.answers, ?_, (State.settle_losses _).trans ended.rest.losses, ?_, ?_, stepped.pacing,
      stepped.pending, stepped.registers, ended.sameSweep, ended.publishes rfl rfl, stepped.begins⟩
    · rw [State.settle_port]
      exact State.port_endAborting free p
    · rw [State.settle_extents, State.endAborting, reaches]
      exact moves.extents
    · rw [State.settle_requests, State.endAborting, reaches]
      exact moves.requests
    · rw [State.settle_holds, State.endAborting, reaches]
      exact moves.holds

end Sys2Proof.Machine
end

section
/-! O20: a REBUILD that passes its checks fills a record, turns its targets and counts the rows on its extent. -/

namespace Sys2Proof.Machine

/-! ## A record filled -/

/-- A record filled for an extent that has no job, by one that does not complete, puts no port in place. -/
theorem State.completesOnto_filled {s : State} {j : JobId} {y : Job} (off : (s.job j).isOn = false)
    (alone : s.jobOn y.extent = none) (short : y.completes = false) (e : ExtentId) (p : PortId) :
    (s.withJob j fun _ => y).completesOnto e p = s.completesOnto e p := by
  have off_of {k : JobId} (on : (s.job k).isOn = true) : j ≠ k := fun same => by
    rw [← same, off] at on
    cases on
  by_cases here : y.extent = e
  · subst here
    have none : s.completesOnto y.extent p = false := by rw [State.completesOnto, alone]
    rw [none, State.completesOnto]
    split
    · rfl
    · rename_i k found
      have on := List.find?_some found
      simp only [State.job_withJob, Bool.and_eq_true, beq_iff_eq] at on ⊢
      split at on
      · rw [if_pos ‹_›, short, Bool.false_and]
      · have some := State.jobOn_isSome.mpr ⟨k, on⟩
        rw [alone] at some
        cases some
  · have same : (s.withJob j fun _ => y).jobOn e = s.jobOn e := by
      unfold State.jobOn
      congr 1
      funext k
      rw [State.job_withJob]
      split
      · rename_i taken
        rw [← taken, off, Bool.false_and, beq_false_of_ne here, Bool.and_false]
      · rfl
    rw [State.completesOnto, State.completesOnto, same]
    cases found : s.jobOn e with
    | none => rfl
    | some k =>
      have on := List.find?_some found
      rw [Bool.and_eq_true] at on
      dsimp only
      rw [State.job_withJob, if_neg (off_of on.1)]

theorem State.extentOfPort_filled {s : State} {j : JobId} {y : Job} (off : (s.job j).isOn = false)
    (alone : s.jobOn y.extent = none) (short : y.completes = false) :
    (s.withJob j fun _ => y).extentOfPort = s.extentOfPort := by
  funext p
  simp only [State.extentOfPort, State.completesOnto_filled off alone short]
  rfl

/-! ## Ports that become TARGET -/

theorem State.changeMember_target {s : State} {p : PortId} (free : s.extentOfPort p = none) :
    s.MovesPorts (s.changeMember p .target) ∧
      ∀ q, (s.changeMember p .target).port q = if q = p then { s.port q with memberState := .target } else s.port q := by
  have moved : ∀ q, (s.moveMember p .target).port q = _ := fun q => s.port_moveMember_of_carries p q rfl
  obtain ⟨moves, ports⟩ := State.changeMember_quiet (s := s) (p := p) (new := .target)
    (by rw [moved, if_pos rfl]; exact fun failed => nomatch failed) fun x here => by rw [free] at here; cases here
  refine ⟨moves, fun q => ?_⟩
  rw [ports, moved]
  exact if_congr eq_comm rfl rfl

/-- A port that becomes TARGET ends no request. -/
theorem State.moveMember_target_rows (s : State) (p : PortId) : (s.moveMember p .target).rows = s.rows := by
  unfold State.moveMember
  dsimp only
  rw [if_neg (by simp)]
  rfl

theorem Operation.countedBy_wakenFor (p : PortId) : Operation.countedBy ∘ Operation.wakenFor p = Operation.countedBy := by
  funext op
  unfold Function.comp Operation.wakenFor
  split <;> rfl

theorem State.changeMember_target_counted {s : State} {p : PortId} (free : s.extentOfPort p = none) (c : ContextId) :
    ((s.changeMember p .target).context c).map Operation.countedBy = (s.context c).map Operation.countedBy := by
  have moves := s.movesPorts_moveMember p .target
  have contexts : (s.moveMember p .target).context c = s.context c := by
    rw [State.context, State.moveMember_target_rows, State.context]
  rw [State.changeMember_eq, State.reportMember_quiet, State.context_wake, Option.map_map, Operation.countedBy_wakenFor]
  · exact congrArg _ contexts
  · rw [State.port_moveMember_of_carries _ _ _ rfl, if_pos rfl]
    exact fun failed => nomatch failed
  · intro x here
    rw [State.extentOfPort_congr moves.extents moves.jobs, free] at here
    cases here

/-- The targets of a plan, made TARGET. -/
def State.takeTargets (s : State) (sources : List Source) : State :=
  sources.foldl (fun s x => s.changeMember x.target .target) s

section
variable {s : State} {sources : List Source} (free : ∀ x ∈ sources, s.extentOfPort x.target = none)
include free

theorem State.takeTargets_spec : s.MovesPorts (s.takeTargets sources) ∧ ∀ q, (s.takeTargets sources).port q =
    if ∃ x ∈ sources, x.target = q then { s.port q with memberState := .target } else s.port q := by
  have folded : s.takeTargets sources = (sources.map Source.target).foldl (fun s p => s.changeMember p .target) s :=
    by rw [State.takeTargets, List.foldl_map]
  obtain ⟨moves, ports⟩ := State.foldl_changesPorts (f := fun s p => s.changeMember p .target)
    (g := fun x => { x with memberState := .target }) (l := sources.map Source.target) (s := s) (fun _ => rfl)
    (fun _ _ free => State.changeMember_target free) (by simpa using free)
  rw [folded]
  exact ⟨moves, fun q => (ports q).trans (if_congr List.mem_map rfl rfl)⟩

theorem State.takeTargets_counted (c : ContextId) :
    ((s.takeTargets sources).context c).map Operation.countedBy = (s.context c).map Operation.countedBy := by
  induction sources generalizing s with
  | nil => rfl
  | cons x rest ih =>
    have here := free x List.mem_cons_self
    have moves := (State.changeMember_target here).1
    refine (ih (s := s.changeMember x.target .target) fun y mem => ?_).trans (State.changeMember_target_counted here c)
    rw [State.extentOfPort_congr moves.extents moves.jobs]
    exact free y (List.mem_cons_of_mem _ mem)

end

/-! ## An accepted REBUILD (R89) -/

theorem State.JobStep.moved {s t u : State} {j : JobId} {y : Job} {more : List Answer} (h : s.JobStep j y more t)
    (moves : t.MovesPorts u) : s.JobStep j y more u := by
  have same : ∀ k, u.job k = t.job k := fun k => by rw [State.job, moves.jobs, State.job]
  refine ⟨(same j).trans h.job, fun k other => (same k).trans (h.others k other), h.rest.trans moves.restKept, ?_⟩
  have answers := h.answers
  unfold State.Answers at *
  rw [moves.board, answers]

/-- A job that has rows to rebuild does not complete as it begins. -/
theorem State.newJob_completes {s : State} (slip : SlipId) {f : RebuildFields} {plan : RebuildPlan}
    (within : f.startRow < (s.extent plan.extent).rows) : (s.newJob slip f plan).completes = false :=
  Bool.eq_false_iff.mpr fun ends => within.ne (Job.completes_iff.mp ends).2

/-- The record filled and the row operations on the extent counted, before the targets are taken. -/
def State.fillRecord (s : State) (slip : SlipId) (f : RebuildFields) (plan : RebuildPlan) (j : JobId) : State :=
  (s.withJob j fun _ => s.newJob slip f plan).markCounted plan.extent j

theorem State.acceptRebuild_eq (s : State) (slip : SlipId) (f : RebuildFields) (plan : RebuildPlan) (j : JobId) :
    s.acceptRebuild slip f plan j = ((s.fillRecord slip f plan j).takeTargets plan.sources).askPublish := rfl

theorem State.fillRecord_context (s : State) (slip : SlipId) (f : RebuildFields) (plan : RebuildPlan) (j : JobId)
    (c : ContextId) : ((s.fillRecord slip f plan j).context c).map Operation.countedBy =
      (s.context c).map fun op => if op.extent = plan.extent then some j else op.countedBy := by
  have marked : (s.fillRecord slip f plan j).context c = (s.context c).map fun op =>
      if op.extent = plan.extent then { op with countedBy := some j } else op := bankMap_getElem _ _ _
  rw [marked, Option.map_map]
  congr 1
  funext op
  dsimp only [Function.comp]
  split <;> rfl

theorem State.fillRecord_contextWait (s : State) (slip : SlipId) (f : RebuildFields) (plan : RebuildPlan) (j : JobId) :
    (s.fillRecord slip f plan j).rows.contextWait = s.rows.contextWait.map fun r =>
      { r with countedBy := if r.extent = plan.extent then some j else r.countedBy } := by
  refine List.map_congr_left fun r _ => ?_
  split <;> rfl

section
variable {s : State} {f : RebuildFields} {plan : RebuildPlan} {j : JobId} (passes : s.RebuildPasses f plan j)
  (free : ∀ x ∈ plan.sources, s.extentOfPort x.target = none) (slip : SlipId)
include passes free

theorem State.fillRecord_free : ∀ x ∈ plan.sources, (s.fillRecord slip f plan j).extentOfPort x.target = none := by
  intro x mem
  have extent : (s.newJob slip f plan).extent = plan.extent := rfl
  have filled : (s.withJob j fun _ => s.newJob slip f plan).extentOfPort = s.extentOfPort :=
    State.extentOfPort_filled (State.isOn_freeRecord passes.record) (extent ▸ passes.alone)
      (State.newJob_completes slip passes.startRow)
  have counted : (s.fillRecord slip f plan j).extentOfPort = _ :=
    State.extentOfPort_congr (s := s.withJob j fun _ => s.newJob slip f plan) rfl rfl
  rw [counted, filled]
  exact free x mem

theorem State.acceptRebuild_moves :
    (s.fillRecord slip f plan j).MovesPorts (s.acceptRebuild slip f plan j) :=
  (State.takeTargets_spec (State.fillRecord_free passes free slip)).1.trans rfl

theorem State.jobStep_acceptRebuild :
    s.JobStep j (s.newJob slip f plan) [] (s.acceptRebuild slip f plan j) := by
  have filled : s.JobStep j (s.newJob slip f plan) [] (s.fillRecord slip f plan j) :=
    State.jobStep_of_withJob (fun _ => s.newJob slip f plan) rfl ⟨rfl, rfl, rfl, rfl, rfl, rfl⟩ (List.append_nil _).symm
  exact filled.moved (State.acceptRebuild_moves passes free slip)

end

/-- A publish asked for begins where the engine state allows it and none is PUBLISHING. -/
theorem State.publishing_settle {u : State} (asked : u.board.publishAsked = true) (sound : u.board.engine ≠ .faulted)
    (none : u.board.publishing = none) (quiet : u.board.engine = .stopped → u.board.quiesced = true) :
    u.settle.board.publishing = some u.settle.pageFields := by
  have begins : u.publishBegins = true := by
    simp only [State.publishBegins, asked, none]
    cases engine : u.board.engine <;> simp_all
  rw [State.settle_publishing, if_pos begins]

/-! The checks do not look at the board. -/

theorem State.checkRebuild_afterTake (s : State) (run : SweepRun) (tag : BitVec 64) (f : RebuildFields) :
    (s.afterTake run tag).checkRebuild f = s.checkRebuild f := rfl

section
variable {s : State} {run : SweepRun} (tag : BitVec 64) {body : SlipBody} (at_slip : s.sweepAt .slipRead = some run)
include at_slip

theorem execRebuild_of_error {reason : Reason} (refused : s.checkRebuild (rebuildFields body) = .error reason) :
    exec (.rebuild tag body) s = ((s.afterTake run tag).refuse run.slip reason).done := by
  show execRebuild tag body s = _
  rw [execRebuild, State.takeSlip_afterTake tag at_slip]
  dsimp only
  rw [State.checkRebuild_afterTake, refused]

theorem execRebuild_of_ok {plan : RebuildPlan} {j : JobId} (passed : s.checkRebuild (rebuildFields body) = .ok (plan, j)) :
    exec (.rebuild tag body) s = ((s.afterTake run tag).acceptRebuild run.slip (rebuildFields body) plan j).done := by
  show execRebuild tag body s = _
  rw [execRebuild, State.takeSlip_afterTake tag at_slip]
  dsimp only
  rw [State.checkRebuild_afterTake, passed]

end

/-- The port that a COPY copies from stands at the position of its source. -/
theorem State.newJob_outgoing (s : State) (slip : SlipId) (f : RebuildFields) (plan : RebuildPlan) :
    (s.newJob slip f plan).outgoing = match plan.mode with
      | .reconstruct => none
      | .copy => plan.sources.head?.bind fun x => (s.extent plan.extent).targets[x.position]? := by
  unfold State.newJob
  cases plan.mode with
  | reconstruct => rfl
  | copy => cases plan.sources <;> rfl

theorem State.newJob_exposed (s : State) (slip : SlipId) (f : RebuildFields) (plan : RebuildPlan) :
    (s.newJob slip f plan).exposed = decide ((s.extent plan.extent).condition = .exposed) := by
  show ((s.extent plan.extent).condition == .exposed) = _
  cases (s.extent plan.extent).condition <;> rfl

/-- The record of a new job, its outgoing port and its exposed flag as R89 gives them. -/
theorem State.newJob_eq (s : State) (slip : SlipId) (f : RebuildFields) (plan : RebuildPlan) :
    s.newJob slip f plan = { s.newJob slip f plan with
      outgoing := match plan.mode with
        | .reconstruct => none
        | .copy => plan.sources.head?.bind fun x => (s.extent plan.extent).targets[x.position]?
      exposed := decide ((s.extent plan.extent).condition = .exposed) } := by
  rw [← State.newJob_outgoing s slip f plan, ← State.newJob_exposed s slip f plan]

/-- Settles O20: the refusal is that of the checks; an accepted REBUILD fills its record (`State.jobStep_acceptRebuild`),
counts the rows (`State.fillRecord_context`), and takes its targets (`State.takeTargets_spec`). -/
theorem rebuildAccepted : Obligations.RebuildAccepted := by
  intro s run tag body rest at_slip f
  refine ⟨fun reason refused => ?_, fun plan j passed free => ?_⟩
  · rw [execRebuild_of_error tag at_slip refused]
    exact State.done_refuses rest reason
  · have passes : (s.afterTake run tag).RebuildPasses f plan j := State.rebuildPasses passed
    have unlisted : ∀ x ∈ plan.sources, (s.afterTake run tag).extentOfPort x.target = none := by
      rw [State.afterTake_extentOfPort]
      exact free
    have accepted := State.jobStep_acceptRebuild passes unlisted run.slip
    have stepped := accepted.settle_slip
    have moves := State.acceptRebuild_moves passes unlisted run.slip
    have taken := State.takeTargets_spec (State.fillRecord_free passes unlisted run.slip)
    have counted := State.takeTargets_counted (State.fillRecord_free passes unlisted run.slip)
    have record := (s.afterTake run tag).newJob_eq run.slip f plan
    have rows : ((s.afterTake run tag).acceptRebuild run.slip f plan j).settle.rows = _ := State.settle_rows _
    refine ⟨_, execRebuild_of_ok tag at_slip passed, stepped.job.trans (Job.agrees_of_eq (record.trans rfl)),
      stepped.others, fun p => ?_, (State.settle_extents _).trans moves.extents,
      (State.settle_losses _).trans moves.losses, (State.settle_requests _).trans moves.requests,
      (State.settle_holds _).trans moves.holds, (State.settle_solver _).trans moves.solver, ?_,
      rows ▸ moves.unsettled, fun c => ?_, ?_, stepped.pacing, stepped.pending, accepted.keepsSlip,
      fun sound none quiet => State.publishing_settle rfl ?_ ?_ ?_⟩
    · rw [State.settle_port]
      exact taken.2 p
    · rw [rows, moves]
      rfl
    · rw [State.settle_context]
      exact (counted c).trans (State.fillRecord_context _ _ _ _ _ c)
    · rw [rows, moves]
      exact State.fillRecord_contextWait _ _ _ _ _
    all_goals
      rw [accepted.rest.board]
      assumption

end Sys2Proof.Machine
end
